-- ==== Sys2Proof/Word.lean ====
section
/-!
DEFINITION. Word.lean: the plain types that the whole model shares: a byte, a 64-byte granule in motion,
a finite map kept as a sorted list of pairs, and a register field's place.
-/
namespace Sys2Proof

/-- One byte. -/
abbrev Byte := BitVec 8

/-- A finite map from Nat, kept as a list of pairs with strictly rising keys (one canonical form). -/
abbrev NMap (β : Type) := List (Nat × β)

/-- The canonical form of a map: keys strictly rising. -/
abbrev NMap.sorted {β : Type} (m : NMap β) : Prop := m.Pairwise (fun a b => a.1 < b.1)

/-- Field types of a register table (spec 00, R3). -/
inductive FTy where
  /-- read only -/
  | ro
  /-- read and write -/
  | rw
  /-- read the shadow, held until the block's commit -/
  | rwc
  /-- write one to clear -/
  | w1c
  /-- write one to set -/
  | w1s
  /-- reads zero -/
  | wo
deriving DecidableEq, Repr

/-- A register field: BAR0 offset of the register, stride between repeated registers, lowest bit, width,
reset value, and the reset values of the single copies where the spec gives them one by one (R3, R7). -/
structure Fld where
  off : Nat
  stride : Nat
  lo : Nat
  width : Nat
  reset : Nat
  each : List Nat
  byIndex : Bool
deriving DecidableEq, Repr

/-- A 64-byte granule in motion, with its guard and poison bit (spec 01, R14 to R16), and the zero flag of a granule answered from the
zero map or a zero-fill extent (R17, spec 02 R32). -/
structure Gran where
  data : List Byte
  guard : Nat
  poison : Bool
  zero : Bool := false
deriving DecidableEq, Repr

end Sys2Proof
end

