-- ==== Sys2Proof/Syntax.lean ====
section
/-!
DEFINITION. Syntax.lean: the commands that the block takes, one constructor per row of spec/opcode_table.json,
with the operands each carries, and the types of those operands.
-/
namespace Sys2Proof

/-- Placement attributes of an extent (spec 10, R218). -/
structure Place where
  icls : Nat
  affEn : Bool
  affStack : Nat
deriving DecidableEq, Repr

/-- What the host has configured in PCIe configuration space (spec 09 R203, spec 16 R334, spec 02 R49): Max Payload Size and Max Read
Request Size in bytes, Relaxed Ordering enabled, ATS and PRI enabled. -/
structure HostCfg where
  mps : Nat
  mrrs : Nat
  ro : Bool
  atsPri : Bool
deriving DecidableEq, Repr

/-- What a register write can meet outside the block's own state: the host's configuration (spec 19 R409), the placement of the
ells that an ERASE_RANGE zeroes (spec 17 R373), the channels that fail a retraining pass (spec 10 R225), and what reads of granules on other
nodes give when an engine is retired (spec 04 R96). -/
structure RegEnv where
  host : HostCfg
  place : Place
  failed : Nat
  remote : NMap Gran
deriving DecidableEq, Repr

/-- One microsecond's utilisations (spec 15, R331) in units of 1/65,536: by stack, engines, by port, held entries, and the
grants of each stack at every level, at U2 or U3, and at U3. -/
structure UtilSample where
  mem : List Nat
  eng : Nat
  fab : List Nat
  held : Nat
  grants : List Nat
  grants2 : List Nat
  grants3 : List Nat
deriving DecidableEq, Repr

/-- Who sends a register access: the host through PF0, or management core pair A or B (spec 16 R337, 18 R376). -/
inductive Src where
  | pf0
  | pairA
  | pairB
deriving DecidableEq, Repr

/-- A fabric packet (spec 14, R302): header fields, `rsv` the reserved header bits as they arrived, `body` the 32 bytes
0x20 to 0x3F as a little-endian number, and the DATA flits. -/
structure Pkt where
  dst : Nat
  src : Nat
  job : Nat
  tenant : Nat
  ptype : Nat
  vc : Nat
  epoch : Bool
  flow : Nat
  seq : Nat
  reqId : Nat
  length : Nat
  addr : Nat
  admClass : Nat
  fathom : Nat
  icls : Nat
  affEn : Bool
  affStack : Nat
  keyTenant : Nat
  isPpa : Bool
  hops : Nat
  status : Nat
  dstRank : Bool
  rsv : Nat
  hcrc : Nat
  body : Nat
  data : List Gran
deriving DecidableEq, Repr

/-- A descriptor handed to an operator: the queue it was posted on, its image, a little-endian number of 64 or 128 bytes
(spec 03 R58, R59), and the granules that other nodes answer its operand reads with, by PPA ÷ 64 (spec 05 R116: a read
with no answer times out). -/
structure OpCmd where
  queue : Nat
  raw : Nat
  remote : NMap Gran
deriving DecidableEq, Repr

/-- What a codeword of another node turns out to be in a range pass (spec 05, R120). -/
inductive FarScrub where
  | clean
  | corrected
  | uncorrectable
  | poisoned
  | zero
deriving DecidableEq, Repr

/-- A request that a port presents to a channel scheduler in one cycle (spec 10, R220 to R226): the arbiter position,
the age in nanoseconds, the byte address z in the channel, its PPA, a granule to write or none for a read, the 64 granules of a block write
(R232; empty for any other request), the page hint of its issuing unit, the memory key slot it is served under and the
acknowledgement it releases. -/
structure MemReq where
  pos : Nat
  ageNs : Nat
  z : Nat
  ppa : Nat
  write : Option Gran
  block : List Gran
  openHint : Bool
  keySlot : Option Nat
  ackId : Nat
deriving DecidableEq, Repr

/-- Symbols of a codeword in error: symbol 0 to 71 and the non-zero byte added to it (spec 11, R235 to R238). -/
abbrev SymErr := NMap Nat

/-- A PCIe completion for a host read (spec 09 R206): data with the poisoned-TLP mark, Unsupported Request or Completer Abort. -/
inductive HostCpl where
  | data (bytes : List Byte) (poisoned : Bool)
  | ur
  | ca
deriving DecidableEq, Repr

/-- A REVOKE: a descriptor, or a command of XTU_RCMD with its tenant, tag and address (spec 08 R189). -/
inductive RevCmd where
  | desc (o : OpCmd)
  | rcmd (tenant tag addr : Nat)
deriving DecidableEq, Repr

/-- A flit on a link (spec 13, R282): 64 data bytes and its sideband fields. -/
structure Flit where
  data : List Byte
  guard : Nat
  poison : Bool
  ty : Nat
  vc : Nat
deriving DecidableEq, Repr

/-- A frame on a link (spec 13, R283): four flits, the fields of the frame-control word and the CRC-32 as it arrived. -/
structure Frame where
  flits : List Flit
  seq : Nat
  seqValid : Bool
  ack : Nat
  ackValid : Bool
  xoff : Nat
  keyPhase : Bool
  rsv : Nat
  crc : Nat
deriving DecidableEq, Repr

/-- What CONFIG exchanged with a port's peer (spec 13, R293, R294, R300; spec 17, R361): its node, port and kind, whether it can and
wants to encrypt, whether it requires encryption, its expected number and nonce, the round trip measured, and the lanes found
failed in each direction (a bit for each physical lane). -/
structure CfgInfo where
  node : Nat
  port : Nat
  sr2 : Bool
  enc : Bool
  encReq : Bool
  expected : Nat
  nonce : Nat
  rttNs : Nat
  rxFail : Nat
  txFail : Nat
deriving DecidableEq, Repr

/-- What a start meets outside the block's own state (spec 19, R396 to R399): a sensor below 0 °C, the outcome of the random number
generator's start-up tests, the step of R366 at which each image slot fails (0: it verifies), the stacks that fail training, the PCIe link
if it trains (speed, width, flit mode), whether the downstream port has enabled DRS, and the diagnosis cause of each management
pair (0: it passes). -/
structure StartEnv where
  cold : Bool
  trngOk : Bool
  rot0 : Nat
  rot1 : Nat
  mgt0 : Nat
  mgt1 : Nat
  trainFail : Nat
  link : Option (Nat × Nat × Bool)
  drs : Bool
  diagA : Nat
  diagB : Nat
  straps : Nat
deriving DecidableEq, Repr

/-- SCRUB_RANGE's operands: the operator's, and what codewords of other nodes turn out to be, by PPA ÷ 64 (spec 05, R120). -/
structure ScrubCmd where
  op : OpCmd
  far : NMap FarScrub
deriving DecidableEq, Repr

/-- The end of a publish at the home (spec 02, R43): the region, and the replaced versions with the other nodes at which work is still bound
to them. -/
structure PublishEnd where
  region : Nat
  bound : List (Nat × Nat)
deriving DecidableEq, Repr

/-- A command to an engine, with the granules of other nodes that it may read, by PPA (spec 04). -/
structure EngineCmd where
  engine : Nat
  remote : NMap Gran
deriving DecidableEq, Repr

/-- The end of a tile's step 4 (spec 04, R77, R81): writes issued, scratchpad errors corrected, and the addresses of the granules with an
uncorrectable scratchpad error. -/
structure ComputeEnd where
  issued : Nat
  corrected : Nat
  bad : List Nat
deriving DecidableEq, Repr

/-- A response packet, with the granules of other nodes that what follows it may read, by PPA (spec 14, R445). -/
structure RspCmd where
  pkt : Pkt
  remote : NMap Gran
deriving DecidableEq, Repr

/-- What a granted access meets: symbols of the codeword in error, and an error in the line of the zero-map cache slice that it uses (spec 11,
R235; spec 10, R233). -/
structure GrantErrs where
  syms : SymErr
  line : Bool
deriving DecidableEq, Repr

/-- What comes with a PCIe link that is up again: whether it runs in flit mode, and what the host has configured (spec 16, R343). -/
structure LinkUp where
  flit : Bool
  host : HostCfg
deriving DecidableEq, Repr

/-- The commands, one constructor per row of spec/opcode_table.json. An operand of type Unit holds nothing: the row's meaning needs no
operand there. -/
inductive Instr where
/-- DEVICE_RESET (R393). SYS_RST_N held low for 10 µs or more, or a power-good input low, idles all lanes, tri-states xSPI, stops all work
  and loses every state except fuses and flash. -/
  | deviceReset
/-- DEVICE_START (R396). At T0, with SYS_RST_N rising while both power-good inputs are high, the start sequence begins: root of trust,
  Varic image, power-up, stack training, firmware load and claims. -/
  | deviceStart (env : StartEnv)
/-- PCIE_RESET (R344). PCIE_PERST_N, a Hot Reset or a Secure Bus Reset resets HIF alone, with the effects of DL_Down. -/
  | pcieReset
/-- PCIE_LINK_DOWN (R343). On DL_Down, functions reset, host requests time out, the ATS cache empties, and pending MSI-X messages and PF0
  mailbox responses are discarded. -/
  | pcieLinkDown
/-- FUNCTION_LEVEL_RESET (R341). An FLR of PF1 or a virtual function stops its requests, aborts its queues, drops its ATS state and resets
  its configuration. -/
  | functionLevelReset (fn : Nat)
/-- VF_DISABLE (R342). Clearing VF Enable or lowering NumVFs applies an FLR to every virtual function that ceases to exist. -/
  | vfDisable (n : Nat)
/-- ATS_INVALIDATION_REQUEST (R182). A host ATS invalidation withdraws the host leases it covers and sends the completion once every
  holder has acknowledged. -/
  | atsInvalidationRequest (fn pasid page pages tag : Nat)
/-- PAGE_REQUEST_RESPONSE (R181). The host answers a Page Request, and the held operation translates again or completes with UNMAPPED. -/
  | pageRequestResponse (index : Nat) (success : Bool)
/-- PRI_TIMEOUT (R181). A page request that has no answer within pri_timeout_ms completes its operation with TIMEOUT. -/
  | priTimeout (index : Nat)
/-- HOST_COMPLETION (R206). A PCIe completion for a host read arrives with data, the poisoned-TLP mark, UR or CA, and the DMA piece acts
  on it. -/
  | hostCompletion (tag : Nat) (res : HostCpl) (remote : NMap Gran)
/-- HOST_COMPLETION_TIMEOUT (R206). A host request that receives no completion within the PCIe completion timeout ends its piece with
  TIMEOUT. -/
  | hostCompletionTimeout (tag : Nat)
/-- REGISTER_WRITE (R3). A PF0 BAR0 write to a register without behaviour of its own takes effect by its field types, or is discarded and
  recorded when its size or alignment is wrong. -/
  | registerWrite (src : Src) (env : RegEnv) (off size v : Nat)
/-- BLOCK_UNAVAILABLE_TIMEOUT (R339). An access to a block that is off, or that has not answered within 20 µs, returns all ones or is
  discarded, with cause 0x02. -/
  | blockUnavailableTimeout (off bytes : Nat) (write : Bool)
/-- SQ_TAIL (R55). A doorbell write to SQ_TAIL steps sq_tail_count or puts the queue in ERROR with cause 0x01. -/
  | sqTail (fn page idx value : Nat)
/-- CQ_HEAD (R55). A doorbell write to CQ_HEAD releases CQ records or puts the queue in ERROR with cause 0x02. -/
  | cqHead (fn page idx value : Nat)
/-- DOORBELL_WRITE_DROPPED (R447). A BAR2 write of any other form or offset is dropped, counted in QMG_DB_DROP and logged with cause 0x10.
  -/
  | doorbellWriteDropped (fn off bytes : Nat)
/-- READ_CTX (R74). The QMG command copies a queue context into the stage registers. -/
  | readCtx (queue : Nat)
/-- WRITE_CTX (R52). The QMG command validates the stage registers and writes them into a DISABLED queue's context. -/
  | writeCtx (queue : Nat)
/-- ENABLE (R74). The QMG command validates the context, zeroes the counts and the predicate slots, and enables a DISABLED queue. -/
  | enable (queue : Nat)
/-- DISABLE_DRAIN (R74). The QMG command stops fetching, and the queue reaches DISABLED once its in-flight work completes. -/
  | disableDrain (queue : Nat)
/-- DISABLE_ABORT (R74). The QMG command stops fetching and ends in-flight and waiting descriptors with PARTIAL at the next boundary. -/
  | disableAbort (queue : Nat)
/-- CLEAR_PRED (R67). The QMG command sets every predicate slot of a DISABLED queue to 0, not pending. -/
  | clearPred (queue : Nat)
/-- DESCRIPTOR_FETCH (R59). QMG grants one queue by the arbiter, reserves CQ records, fetches the descriptor, checks its header and marks
  producer slots pending. -/
  | descriptorFetch (hosts : NMap (List Gran))
/-- PREDICATE_RELEASE (R68). A fetched descriptor whose predicate slot clears reads the slot and executes, is skipped, or completes with
  the producer's status. -/
  | predicateRelease (uid : Nat)
/-- WAIT_SLOTS_CLEARED (R144). A MOE_COMBINE whose recorded slots have all cleared starts, or completes skipped when one of them failed.
  -/
  | waitSlotsCleared (uid : Nat)
/-- MODERATION_TIMER_EXPIRY (R69). mod_time expires since the oldest unsignalled record, and the interrupt or notification is raised. -/
  | moderationTimerExpiry (queue : Nat)
/-- COPY2D (R109). The operator moves a shaped byte stream between PVAs, or to or from host memory on a DMA channel. -/
  | copy2d (o : OpCmd)
/-- FILL (R111). The operator writes a repeated pattern over a destination range, eliding all-zero blocks. -/
  | fill (o : OpCmd)
/-- GATHER (R113). The operator copies the table rows that a list or bitmap selects into consecutive destination rows. -/
  | gather (o : OpCmd)
/-- SCATTER_ADD (R114). The operator adds source rows into the table rows that a list or bitmap selects, indivisibly per granule. -/
  | scatterAdd (o : OpCmd)
/-- EMBED_BAG (R115). The operator reduces bags of table rows into one output row per bag. -/
  | embedBag (o : OpCmd)
/-- REDUCE (R116). The operator combines up to eight vectors, and optionally the destination, elementwise. -/
  | reduce (o : OpCmd)
/-- ATOMIC (R117). The operator applies one 64-bit operation to an aligned target at its owning node, exactly once under the replay cache.
  -/
  | atomic (o : OpCmd)
/-- QUANTIZE (R119). The operator converts elements between formats, computing MX scales per block of 32. -/
  | quantize (o : OpCmd)
/-- SCRUB_RANGE (R120). The operator has Mistral scrub a PVA range and write a summary record. -/
  | scrubRange (o : ScrubCmd)
/-- ATTEND_DECODE (R127). The operator computes one decode attention step over a paged key/value cache for up to 512 sequences. -/
  | attendDecode (o : OpCmd)
/-- ATTEND_MERGE (R133). The operator merges partial attention results by their log-sum-exp values. -/
  | attendMerge (o : OpCmd)
/-- TOPK (R135). The operator selects the k largest or smallest elements per row, with an optional softmax, and may signal a slot. -/
  | topk (o : OpCmd)
/-- MOE_DISPATCH (R138). The operator packs token rows into expert buffers, writes positions and counts, and may write predicate slots. -/
  | moeDispatch (o : OpCmd)
/-- EXPERT_FFN (R141). The operator runs one expert's gated feed-forward block in two phases over the row count it reads. -/
  | expertFfn (o : OpCmd)
/-- MOE_COMBINE (R145). The operator gathers gated expert outputs back into token order, optionally accumulating. -/
  | moeCombine (o : OpCmd)
/-- PUBLISH (R43). The home checks owner, version and set, then swaps in the new extent set of a region and withdraws cached copies. -/
  | publish (o : OpCmd)
/-- PUBLISH_COMPLETE (R43). Once withdrawals, and with drain set the replaced version's drain, have ended, the PUBLISH completes DONE with
  the new version. -/
  | publishComplete (p : PublishEnd)
/-- REVOKE (R189). REVOKE, as a descriptor or an XTU command, makes an extent's rev_epoch odd and waits for its in-flight work. -/
  | revoke (c : RevCmd)
/-- REVOKE_DRAIN_DONE (R189). The extent's in-flight count reaches zero and the REVOKE completes DONE with its hint. -/
  | revokeDrainDone (tenant pva : Nat)
/-- REVOKE_STRAGGLER_TIMEOUT (R190). At 2 ms, the remaining work on the revoked extent is aborted as stragglers with REVOKED. -/
  | revokeStragglerTimeout (tenant pva : Nat)
/-- WAIT_LIST_SERVICE (R88). The dispatcher takes a waiting engine descriptor, in class round-robin, once resources free, and charges it
  to admission. -/
  | waitListService
/-- TILE_DISPATCH (R82). The dispatcher splits a descriptor into tiles and places each on its anchor engine, a spill engine or a remote
  node. -/
  | tileDispatch (uid : Nat) (remote : NMap Gran)
/-- TILE_START (R86). An engine chooses the next tile among its contexts by the shared arbiter and acquires all its leases or none. -/
  | tileStart (e : EngineCmd)
/-- TILE_LOAD_DATA (R81). Operand granules arrive at the tile loader and are guard-checked, or accepted as poisoned. -/
  | tileLoadData (uid tile : Nat) (remote : NMap Gran)
/-- TILE_COMPUTE_DONE (R81). A tile finishes step 4, judges its stop flags, and writes its results or stops with NUMERIC. -/
  | tileComputeDone (uid tile : Nat) (c : ComputeEnd) (remote : NMap Gran)
/-- TILE_RETIRE (R81). A tile's writes are done: it adds its result bytes, releases its leases and buffers, and may complete its
  descriptor. -/
  | tileRetire (uid tile : Nat) (remote : NMap Gran)
/-- PARTIAL_STATE_COMBINE (R129). An accumulating engine receives a partial state, combines it, and writes the output once the last tile
  contributes. -/
  | partialStateCombine (uid tile : Nat) (remote : NMap Gran)
/-- ENGINE_FAULT (R95). An engine that detects a fault leaves service; its tiles move to a replacement or are poisoned in step 5. -/
  | engineFault (engine : Nat)
/-- TILE_WATCHDOG_EXPIRY (R95). A tile that stays in step 4 for 1 ms takes its engine out of service. -/
  | tileWatchdogExpiry (uid tile : Nat)
/-- SPARE_ACTIVATED (R95). A released spare engine finishes zeroing and self-test and takes the failed engine's logical number. -/
  | spareActivated (engine : Nat)
/-- NME_RETIRE (R96). The fabric manager takes a logical engine out of service without poisoning. -/
  | nmeRetire (e : EngineCmd)
/-- NME_COMMIT (R5). Pending NME_DISP_CTL values take effect. -/
  | nmeCommit
/-- DMA_CHANNEL_SELECT (R195). When a DMA engine's descriptor ends, the arbiter chooses the next channel with pending work, which starts
  and is charged. -/
  | dmaChannelSelect (engine : Nat)
/-- DMA_PIECE (R198). A DMA channel translates and issues the writes of its next 4 KiB piece. -/
  | dmaPiece (engine : Nat) (remote : NMap Gran)
/-- FLUSH_READ_COMPLETE (R204). The barrier flush read to the host completes, and the record is posted. -/
  | flushReadComplete (tag : Nat)
/-- DMA_SUSPEND_RESUME (R196). A DMA descriptor suspended on a migration resumes once its ell is resident. -/
  | dmaSuspendResume (engine : Nat)
/-- WRITE_ACKNOWLEDGE (R60). An owning node's acknowledgement of written granules arrives, releasing barrier completions. -/
  | writeAcknowledge (uid reqId : Nat)
/-- TENANT_CREATE (R26). Writing ACTIVE to a FREE tenant record creates the tenant, or is refused and logged. -/
  | tenantCreate (tenant : Nat) (confidential busError : Bool)
/-- KEY_SLOT_LOADED (R357). A new tenant's memory key slot is loaded within 2 µs, and its waiting translations proceed. -/
  | keySlotLoaded (tenant : Nat)
/-- TENANT_RETIRE (R372). Writing RETIRING starts removal: the slot retires and the tenant's work is stopped or ended with TENANT_GONE. -/
  | tenantRetire (tenant : Nat)
/-- TENANT_KEY_DESTROY (R372). Once in-flight work and key uses reach zero, SEC destroys the key, the tenant reads FREE and a record is
  posted. -/
  | tenantKeyDestroy (tenant : Nat)
/-- INVALIDATE_RANGE (R178). The XTU drops cache entries of a range, raises the invalidation epoch and sends notices to every holder. -/
  | invalidateRange (tenant tag addr count : Nat)
/-- INVALIDATE_TENANT (R178). As INVALIDATE_RANGE over every ell of a tenant. -/
  | invalidateTenant (tenant tag : Nat)
/-- LEASE_NOTICE (R91). An invalidation notice reaches an engine or DMA channel, which marks overlapping leases stale and stops their
  descriptors. -/
  | leaseNotice (epoch : Nat) (dma : Bool) (n : Nat)
/-- INVALIDATION_COMPLETE (R178). With every holder acknowledged and every request through dropped entries done, including late_drain, the
  command completes. -/
  | invalidationComplete (tag : Nat)
/-- TABLE_SWAP (R176). In one XTU cycle, a new extent table replaces an ACTIVE tenant's table, and its cache entries drop. -/
  | tableSwap (tenant tag ppa count : Nat)
/-- RESMAP_CLEAR (R183). The XTU command clears the residency bits of a local ell range. -/
  | resmapClear (tag offset count : Nat)
/-- TRANSLATION_MISS (R173). An extent-cache miss binary-searches the tenant's table and fills the cache. -/
  | translationMiss (tenant pva : Nat)
/-- MIG_EN_CLEAR (R186). Clearing mig_en completes suspended items with UNMAPPED and withdraws untaken migration entries. -/
  | migEnClear
/-- DMA_MIG_CMD (R208). Firmware issues a one-ell migration to the least-loaded migration channel. -/
  | dmaMigCmd (ppa iova pasid index : Nat)
/-- MIGRATION_DONE (R208). A migration command confirms arrival and enters its outcome in the result FIFO. -/
  | migrationDone (engine : Nat) (_a _b : Unit)
/-- DMA_MIG_POP (R208). Firmware removes the oldest migration result. -/
  | dmaMigPop
/-- XTU_MIG_DONE (R184). Firmware reports a move's outcome; the XTU sets residency and resumes, or fails, the waiting items. -/
  | xtuMigDone (index outcome : Nat)
/-- RD_REQ (R18). A read request enters and passes NIE, admission, translation and the directory, then is served or forwarded. -/
  | rdReq (inPort : Nat) (p : Pkt)
/-- WR_REQ (R18). A write request enters with its data, is checked and admitted, and is served or forwarded, raising a counter if asked.
  -/
  | wrReq (inPort : Nat) (p : Pkt)
/-- ATOMIC_REQ (R118). A fabric atomic request is looked up in the replay cache and executed once at its owning node. -/
  | atomicReq (inPort : Nat) (p : Pkt)
/-- DOORBELL_PACKET (R54). A fabric doorbell packet is admitted and applied to a fabric-owned page, or dropped. -/
  | doorbellPacket (inPort : Nat) (p : Pkt)
/-- TILE_BATCH (R83). A remote node executes a batch of tiles under the bound versions and returns one BATCH_RSP. -/
  | tileBatch (inPort : Nat) (p : Pkt) (remote : NMap Gran)
/-- CMD_FWD (R451). A PUBLISH forwarded to its home is checked, looked up in the replay cache and processed. -/
  | cmdFwd (inPort : Nat) (p : Pkt)
/-- SET_REQ (R42). A home answers an entry node's request for a region's current set with SET_RSP. -/
  | setReq (inPort : Nat) (p : Pkt)
/-- SET_RSP (R42). An entry node receives a region set and caches it, and the waiting translations proceed. -/
  | setRsp (inPort : Nat) (p : Pkt)
/-- SET_WITHDRAW (R43). An entry node empties its region set cache of a replaced version and answers with WITHDRAW_ACK. -/
  | setWithdraw (inPort : Nat) (p : Pkt)
/-- WITHDRAW_ACK (R43). A home receives one node's acknowledgement of a set withdrawal. -/
  | withdrawAck (inPort : Nat) (p : Pkt)
/-- RD_RSP (R445). A read response with its data reaches the requester and is matched to its outstanding request. -/
  | rdRsp (inPort : Nat) (p : Pkt)
/-- WR_RSP (R445). A write response reaches the requester and completes its request. -/
  | wrRsp (inPort : Nat) (p : Pkt)
/-- ATOMIC_RSP (R445). An atomic response carries the old value and stored bit back to the fetching node. -/
  | atomicRsp (inPort : Nat) (r : RspCmd)
/-- BATCH_RSP (R83). A tile-batch response carries status, result bytes and partial states back to the fetching node. -/
  | batchRsp (inPort : Nat) (r : RspCmd)
/-- CMD_RSP (R43). The home's answer to a forwarded PUBLISH completes the descriptor at the fetching node. -/
  | cmdRsp (inPort : Nat) (p : Pkt)
/-- ERR_RSP (R445). An error response completes the matching outstanding request with its status. -/
  | errRsp (inPort : Nat) (p : Pkt)
/-- CACHE_RELEASE (R320). A requester frees recent-completions cache entries early. -/
  | cacheRelease (inPort : Nat) (p : Pkt)
/-- REPLAY_CACHE_EXPIRY (R320). A recent-completions cache entry expires 64 ms after it was written. -/
  | replayCacheExpiry (tenant reqId : Nat)
/-- FLOW_RELEASE (R316). A packet held in the reorder buffer is released once every earlier flow number has completed. -/
  | flowRelease (flow : Nat)
/-- NIE_FLOW_OPEN (R316). NIE_FLOW_CMD OPEN creates a flow record with n at 0 and a clear bitmap. -/
  | nieFlowOpen (flow job srcNode : Nat)
/-- NIE_FLOW_CLOSE (R316). NIE_FLOW_CMD CLOSE ends a flow and answers its held packets with ACCESS_DENIED. -/
  | nieFlowClose (flow job srcNode : Nat)
/-- JOB_BIND (R313). Writing valid 1 to a job record binds the job to its tenant and rank table. -/
  | jobBind (job tenant ranks rankPpa : Nat)
/-- COMPLETION_TIMEOUT (R318). A sent request's timer expires, and the request completes with TIMEOUT. -/
  | completionTimeout (dst tenant reqId : Nat)
/-- RD_SHARED (R267). The home grants a shared copy of a coherent line, from memory or by forwarding from a sharer or the owner. -/
  | rdShared (inPort : Nat) (p : Pkt) (dirErr : Bool)
/-- RD_OWN (R267). The home grants an exclusive copy, invalidating sharers or forwarding from the owner. -/
  | rdOwn (inPort : Nat) (p : Pkt) (dirErr : Bool)
/-- UPGRADE (R267). The home upgrades a listed sharer to M after invalidating the others. -/
  | upgrade (inPort : Nat) (p : Pkt) (dirErr : Bool)
/-- WB_DATA (R267). The home stores an owner's writeback and sends WB_ACK, or discards a stale one. -/
  | wbData (inPort : Nat) (p : Pkt)
/-- EVICT_CLEAN (R267). The home removes a sender that announced a clean drop. -/
  | evictClean (inPort : Nat) (p : Pkt)
/-- SNP_RSP (R267). The home receives an agent's snoop response, with dirty data or wb_pending, toward closing the transaction. -/
  | snpRsp (inPort : Nat) (p : Pkt)
/-- COMP_ACK (R270). The requester's acknowledgement closes the transaction and starts the line's hold. -/
  | compAck (inPort : Nat) (p : Pkt)
/-- HOLD_EXPIRY (R270). min_hold ends and the next waiting request for the line opens. -/
  | holdExpiry (line : Nat)
/-- SNOOP_TIMEOUT (R275). A missing snoop response marks the agent failed and closes or continues the transaction. -/
  | snoopTimeout (line agent : Nat)
/-- COMP_ACK_TIMEOUT (R275). A COMP_ACK missing after snoop_timeout closes its transaction as though it had arrived. -/
  | compAckTimeout (line : Nat)
/-- BINV_RANGE (R278). The directory command back-invalidates every tracked line in a PPA range. -/
  | binvRange (ppa ells : Nat)
/-- AGENT_RELEASE (R275). The directory command ends an agent's failed state and frees its lines. -/
  | agentRelease (agent : Nat)
/-- DIR_COMMIT (R229). Pending DIR_CTL values take effect from the next cycle. -/
  | dirCommit
/-- PACKET_HEADER_ARRIVAL (R305). The router checks a HEADER flit, routes it by its epoch's table half and allocates an output virtual
  channel. -/
  | packetHeaderArrival (inPort : Nat) (p : Pkt)
/-- HEADER_HOLD_TIMEOUT (R309). A header that has waited longer than hold_us, not counting retraining, is discarded. -/
  | headerHoldTimeout (id : Nat)
/-- ROUTE_TABLE_WRITE (R310). ROUTER_TBL_DATA writes an entry of an IDLE half, or is refused for an active half. -/
  | routeTableWrite (half : Bool) (dest entry : Nat)
/-- EPOCH_FLIP (R310). A node switches injection to the new half, retires the old one, starts the drain timer and acknowledges. -/
  | epochFlip (inPort : Nat) (p : Pkt)
/-- EPOCH_RETIRE (R310). Once drain_us has passed and no old-epoch packet remains, the old half becomes IDLE and a second EPOCH_ACK is
  sent. -/
  | epochRetire
/-- ROUTER_COMMIT (R229). Pending ROUTER_CTL arb_n takes effect. -/
  | routerCommit
/-- FRAME_TRANSMIT (R284). A port transmitter sends the next frame, sequenced or unsequenced, filling flit slots by VC arbitration. -/
  | frameTransmit (port : Nat)
/-- FRAME_RECEIVE (R287). A port receives a frame, checks its CRC and sequence, applies its ack and xoff, and accepts or discards it. -/
  | frameReceive (port fecCorr : Nat) (fecUncorr : Bool) (f : Frame)
/-- REPLAY_REQ (R288). A transmitter accepts a replay request and resends stored frames from the requested number. -/
  | replayReq (port number : Nat)
/-- REPLAY_TIMEOUT (R288). No acknowledgement progress for replay_timeout makes the transmitter replay from oldest, or retrain at the
  limit. -/
  | replayTimeout (port : Nat)
/-- RETRAIN_REQ (R295). A peer's retraining request makes the port enter RETRAIN. -/
  | retrainReq (port : Nat)
/-- RTT_PROBE (R294). A port answers a peer's round-trip probe with RTT_ECHO. -/
  | rttProbe (port stamp : Nat)
/-- RTT_ECHO (R294). An echoed probe yields a round-trip measurement and a headroom check. -/
  | rttEcho (port stamp : Nat)
/-- RTT_PROBE_TIMER (R294). Every millisecond an ACTIVE port sends RTT_PROBE. -/
  | rttProbeTimer (port : Nat)
/-- LOSS_OF_SIGNAL (R295). Loss of signal or of FEC lock on an active lane starts retraining. -/
  | lossOfSignal (port lane : Nat)
/-- LANE_ERROR_LIMIT (R295). A lane exceeding ser_limit corrected symbols in 1 ms is failed and retraining starts. -/
  | laneErrorLimit (port lane : Nat)
/-- PORT_ENABLE (R293). Setting FPT_p_CTL.enable moves a DISABLED port to DETECT. -/
  | portEnable (port : Nat)
/-- PORT_DISABLE (R293). Clearing enable drives the port to DISABLED from any state, with the link-down effects. -/
  | portDisable (port : Nat)
/-- PORT_RETRAIN (R295). A write to FPT_p_CTL.retrain starts retraining from ACTIVE. -/
  | portRetrain (port : Nat)
/-- DETECT_SIGNAL (R293). Signal on every lane moves the port from DETECT to TRAIN. -/
  | detectSignal (port : Nat)
/-- TRAIN_DONE (R293). Training ends, and the port moves to CONFIG or back to DETECT on failure. -/
  | trainDone (port : Nat) (ok : Bool)
/-- CONFIG_DONE (R294). CONFIG completes: a new or resumed link instance goes ACTIVE, derives link keys, or is refused DOWN. -/
  | configDone (port : Nat) (c : CfgInfo)
/-- RETRAIN_DONE (R294). A retraining port returns to ACTIVE and resumes its link instance. -/
  | retrainDone (port : Nat) (c : CfgInfo)
/-- RETRAIN_TIMEOUT (R293). A port not ACTIVE within 2 ms of entering RETRAIN goes DOWN. -/
  | retrainTimeout (port : Nat)
/-- AUTO_UP_TIMER (R293). After 100 ms in DOWN with auto_up set, the port returns to DETECT. -/
  | autoUpTimer (port : Nat)
/-- REKEY_TIMER (R362). rekey_ms elapses, or the segment counter reaches 2^32, and the transmitter begins a key change. -/
  | rekeyTimer (port : Nat)
/-- LINK_REKEY (R362). The SEC command starts a key change on a port. -/
  | linkRekey (port tag : Nat)
/-- KEY_PHASE_SWITCH (R362). Once no frame is unacknowledged, the transmitter toggles key_phase, installs the next generation and resumes.
  -/
  | keyPhaseSwitch (port : Nat)
/-- PAIR_SET (R360). The SEC command installs a session pairing secret for a port from SEC_PAIR_0 to SEC_PAIR_3. -/
  | pairSet (port tag : Nat)
/-- ADM_RELEASE (R326). Work in the holding queue reaches its release time and leaves in arbiter order. -/
  | admRelease
/-- ADM_REDECIDE (R327). A held tile or DMA piece is decided afresh once its retry-after passes. -/
  | admRedecide
/-- ADM_BKT_READ (R322). ADM_BKT_CMD READ loads a bucket's parameters and level into the stage registers. -/
  | admBktRead (bucket : Nat)
/-- ADM_BKT_WRITE (R328). ADM_BKT_CMD WRITE applies staged parameters to a bucket and sets its level to full or zero. -/
  | admBktWrite (bucket rate gust overhead target limit : Nat) (resetMode : Bool)
/-- FATHOM_UPDATE (R331). Every microsecond the node recomputes its Fathom level from its utilisations. -/
  | fathomUpdate (u : UtilSample)
/-- CHANNEL_GRANT (R223). A channel scheduler grants one ready request by effective rank and the shared arbiter, reading or writing a
  granule. -/
  | channelGrant (stack channel : Nat) (reqs : List MemReq) (errs : GrantErrs)
/-- PARITY_DELTA (R253). A parity channel applies a write's delta in one read-modify-write, releasing the write's acknowledgement. -/
  | parityDelta (gran : Nat)
/-- REFRESH (R224). A bank's per-bank refresh falls due and issues, or is postponed up to eight times. -/
  | refresh (stack channel pseudo bank : Nat) (reqs : List MemReq)
/-- CHANNEL_RETRAIN (R225). A channel retrains on the period or a temperature change; a third failure removes it from service. -/
  | channelRetrain (stack channel temp : Nat) (ok : Bool)
/-- SMC_RETRAIN_NOW (R225). Setting retrain_now starts a retraining pass of every channel of the stack. -/
  | smcRetrainNow (stack failed : Nat)
/-- STACK_NO_RESPONSE (R255). A stack that has not answered commands for 10 µs is declared FAILED or lost. -/
  | stackNoResponse (stack : Nat)
/-- REBUILD_UNIT (R257). PAR reconstructs and writes one stripe unit of the promoted stack and advances the rebuild pointer. -/
  | rebuildUnit (channel : Nat)
/-- UE_LIMIT_EXCEEDED (R255). More than ue_limit uncorrectable codewords within one second fail the member stack. -/
  | ueLimitExceeded (stack : Nat)
/-- PAR_RETIRE (R255). PAR_CMD retire declares a member stack FAILED. -/
  | parRetire (stack : Nat)
/-- MISTRAL_READ (R247). The paced background walk reads a codeword and repairs, reconstructs or poisons it. -/
  | mistralRead (stack channel : Nat) (errs : SymErr)
/-- ROW_REPAIR (R250). A row at row_ce_limit, or with a double uncorrectable, is soft-repaired with its bank held for up to 5 µs. -/
  | rowRepair (stack channel pseudo bank row : Nat) (spare : Bool)
/-- SMC_LOCK (R212). Setting SMC_LOCK fixes the profiles, reserved memory and capacity mode until device reset. -/
  | smcLock
/-- SMC_COMMIT (R229). Pending SMC common register values take effect. -/
  | smcCommit
/-- XBAR_COMMIT (R229). Pending XBAR arbiter and port values take effect from the next cycle. -/
  | xbarCommit
/-- ERASE_RANGE (R373). The SEC command has Mistral zero a removed tenant's local ell range. -/
  | eraseRange (tenant tag offset ells : Nat) (pl : Place)
/-- ERASE_COMPLETE (R373). An erase finishes and posts a DONE record with the bytes zeroed. -/
  | eraseComplete (tag : Nat)
/-- TRNG_HEALTH_FAIL (R353). A failing health test stops random draws and logs cause 0x01. -/
  | trngHealthFail
/-- IDENTITY_READY (R363). SEC finishes rebuilding the identity key's bottom tree, and signing becomes available. -/
  | identityReady
/-- DEBUG_GRANT (R370). A signed debug challenge grants debug access, unless the fuse or a confidential tenant forbids it. -/
  | debugGrant (signed : Bool)
/-- SPDM_GET_VERSION (R368). The SPDM request through DOE on PF0 returns the supported versions. -/
  | spdmGetVersion
/-- SPDM_GET_CAPABILITIES (R368). The SPDM request returns the endpoint's capabilities. -/
  | spdmGetCapabilities
/-- SPDM_NEGOTIATE_ALGORITHMS (R368). The SPDM request settles the measurement algorithms. -/
  | spdmNegotiateAlgorithms
/-- SPDM_GET_MEASUREMENTS (R368). The SPDM request returns measurement blocks, including a signed report. -/
  | spdmGetMeasurements (block : Nat) (nonce : List Byte) (fails : Bool)
/-- MCTP_MESSAGE (R347). An MCTP message over a PCIe VDM, I3C or SMBus is assembled and queued as a mailbox request, or refused. -/
  | mctpMessage (source : Nat) (pldm : Bool) (msg : List Byte)
/-- HIF_MBX_SUBMIT (R349). PF0 queues its staged mailbox request, or is refused when the queue is full. -/
  | hifMbxSubmit (bytes : List Byte)
/-- HIF_MBX_POP (R349). PF0 frees the oldest mailbox response and its queue entry. -/
  | hifMbxPop
/-- MAILBOX_TAKE (R349). The winner's firmware takes the next queued mailbox request. -/
  | mailboxTake
/-- PWR_STATUS (R391). Mailbox command 0x40 returns the PWR claim, DVFS, limits, power and temperature. -/
  | pwrStatus (source tag : Nat)
/-- POWER_CAP (R391). Mailbox command 0x41 sets power_cap_w. -/
  | powerCap (source tag : Nat)
/-- DOMAIN_POWER (R390). Mailbox command 0x42 switches a power domain on or off under its condition. -/
  | domainPower (source tag : Nat)
/-- POINT_CEILING (R391). Mailbox command 0x43 sets the highest operating point allowed. -/
  | pointCeiling (source tag : Nat)
/-- THERMAL_LIMIT (R391). Mailbox command 0x44 sets throttle_c. -/
  | thermalLimit (source tag : Nat)
/-- FW_STAGE (R383). Mailbox command 0x45 fetches, verifies and writes a firmware image to the inactive slot. -/
  | fwStage (source tag : Nat) (image : Option (List Byte)) (fails : Nat) (flashOk : Bool)
/-- FW_ACTIVATE (R383). Mailbox command 0x46 boots the standby on the staged image, then hands control over. -/
  | fwActivate (source tag cause : Nat)
/-- HANDOVER (R391). Mailbox command 0x47 runs the handover to the standby without a new image. -/
  | handover (source tag : Nat)
/-- MGT_STATUS (R391). Mailbox command 0x48 returns both pairs' status registers. -/
  | mgtStatus (source tag : Nat)
/-- CFG_REPORT (R411). Mailbox command 0x10 returns configuration report bytes from an offset. -/
  | cfgReport (source tag : Nat)
/-- FIELD_GET (R411). Mailbox command 0x11 returns a configuration field's current value. -/
  | fieldGet (source tag : Nat)
/-- FIELD_SET (R412). Mailbox command 0x12 checks and writes a run-time configuration field. -/
  | fieldSet (source tag : Nat)
/-- IMAGE_WRITE (R413). Mailbox command 0x13 fetches and checks a Varic image, writes it to the inactive slot and updates the header. -/
  | imageWrite (source tag : Nat) (image : Option (List Byte)) (flashOk : Bool)
/-- RECOVERY_WRITE (R414). Mailbox command 0x18 writes flash data in RECOVERY within the permitted areas. -/
  | recoveryWrite (source tag : Nat)
/-- ATTEST (R368). Mailbox command 0x20 writes a signed attestation report into reserved memory. -/
  | attest (source tag : Nat) (fails : Bool)
/-- SVN_ADVANCE (R367). Mailbox command 0x21 irreversibly burns svn fuses up to the running images' SVN. -/
  | svnAdvance (source tag : Nat)
/-- PLDM (R411). Mailbox command 0x30 carries a PLDM type 2 message and returns its response. -/
  | pldm (source tag : Nat)
/-- CFG_FEAT_COMMIT (R409). Writing commit judges the accept vector against the offer and fixes the committed vector. -/
  | cfgFeatCommit (host : HostCfg)
/-- CFG_RPT_READ (R408). A read of CFG_RPT_DATA returns a report word and advances the word address. -/
  | cfgRptRead
/-- CLAIM_RAISE (R375). A pair writes present 1; at the end of the always-on cycle the higher claim stands. -/
  | claimRaise (b : Bool) (other : Option Bool)
/-- CLAIM_DROP (R375). A pair writes present 0, and the winner changes or becomes none. -/
  | claimDrop (b : Bool) (other : Option Bool)
/-- HEARTBEAT (R379). A core writes its PWR_HB bit. -/
  | heartbeat (core : Nat)
/-- WATCHDOG_EXPIRY (R379). A missed heartbeat of the winning pair clears its claim and resets the pair. -/
  | watchdogExpiry (b : Bool)
/-- SELF_DIAG_PERIODIC (R378). Every 10 ms the winner runs self-diagnosis; a failure drops its claim and reboots the pair. -/
  | selfDiagPeriodic (cause : Nat)
/-- STANDBY_TAKEOVER (R380). The standby called on at no winner passes diagnosis, reads the stages and handoff record and presents its
  claim. -/
  | standbyTakeover (b : Bool) (cause : Nat)
/-- PAIR_BOOT_DONE (R381). A pair finishes boot and diagnosis and claims at once or stays standby; eight failures leave it FAILED. -/
  | pairBootDone (b : Bool) (cause : Nat)
/-- MGT_PAIR_RESET (R378). The winner resets the other pair through its MGT control register. -/
  | mgtPairReset (b staged : Bool)
/-- DOLDRUMS_ALERT (R380). Doldrums lasting alert_ms assert ALERT_N. -/
  | doldrumsAlert
/-- DVFS_TARGET (R386). The winner writes a target operating point, and PWR starts stepping toward it. -/
  | dvfsTarget (b : Bool) (point : Nat)
/-- DVFS_STEP_DONE (R386). One adjacent-point step of voltage and clocks finishes, and the next step begins. -/
  | dvfsStepDone
/-- AVS_TIMEOUT (R437). An unacknowledged AVSBus command is retried once, then the point is held and hw_limited raised. -/
  | avsTimeout (fails : Bool)
/-- POWER_LOOP (R387). Every 100 µs the firmware power loop steps the point down or up against the cap. -/
  | powerLoop (power icc : Nat)
/-- THERMAL_LOOP (R387). Every 1 ms the firmware thermal loop steps down above throttle_c. -/
  | thermalLoop (temp : Nat) (east : Bool)
/-- FAST_CURRENT_LIMIT (R387). VDD_CORE current above icc_limit_a for 1 µs makes PWR step one point down. -/
  | fastCurrentLimit
/-- HW_THERMAL_THROTTLE (R387). A logic die at 105 °C moves the device to point 5 until it is below 100 °C. -/
  | hwThermalThrottle
/-- THERMTRIP (R440). A trip temperature asserts THERMTRIP_N and stops all work until device reset. -/
  | thermtrip
/-- PD_SWITCH (R390). PWR_PD_CMD go switches one power domain on or off under its condition. -/
  | pdSwitch (b : Bool) (domain : Nat) (on : Bool)
/-- TEL_COMMIT (R419). Pending counter selectors take effect, zeroing changed counters. -/
  | telCommit
/-- TEL_CNT_CLEAR (R417). Writing clear zeroes a counter and its overflow. -/
  | telCntClear (n : Nat)
/-- TEL_DUMP_ENABLE (R423). Setting TEL_DUMP_CTL.en starts periodic dumps and zeroes the sequence and pointers. -/
  | telDumpEnable
/-- TEL_DUMP_PERIOD (R423). The dump period expires, snapshots the counters and writes one record, or counts a skip. -/
  | telDumpPeriod (busy : Bool) (_a : Unit)
/-- TEL_SAMP_CTL_WRITE (R426). A write to TEL_SAMP_CTL reseeds the sampling generator and, when enabling, zeroes the pointers. -/
  | telSampCtlWrite (en : Bool) (k filter log2 : Nat)
/-- PCIE_LINK_UP (R343). The PCIe link returns after DL_Down, and HIF serves configuration and BAR requests and sends MSI-X again. -/
  | pcieLinkUp (speed width : Nat) (link : LinkUp)
/-- HW_THERMAL_THROTTLE_RELEASE (R387). The hottest logic die falls below 100 °C, and PWR releases the hardware hold at point 5, letting
  the governor or firmware raise the point. -/
  | hwThermalThrottleRelease
/-- TRNG_HEALTH_PASS (R353). The random number generator's health tests pass again, trng_ok returns to 1 and operations waiting for a
  random value proceed. -/
  | trngHealthPass
/-- ATS_TRANSLATION_COMPLETION (R181). The host's answer to an ATS Translation Request arrives, filling the ATS cache or leading to a Page
  Request. -/
  | atsTranslationCompletion (fn pasid page : Nat) (rd wr : Bool) (priMax : Nat)
/-- VF_ENABLE (R342). Setting VF Enable or raising NumVFs brings virtual functions into existence, so writes to their doorbell windows are
  accepted. -/
  | vfEnable (n : Nat)
/-- D3HOT_TRANSITION (R334). A host configuration write moves a function into or out of D3hot, in which it issues no requests and answers
  only configuration requests. -/
  | d3hotTransition (fn : Nat) (enter : Bool)
/-- REPLAY_REQ_RESEND_TIMEOUT (R287). replay_timeout elapses at a receiver since its last REPLAY_REQ for the same expected number,
  allowing a further REPLAY_REQ. -/
  | replayReqResendTimeout (port : Nat)
/-- OPEN_MAX_EXPIRY (R220). A row held open under the OPEN hint is closed when SMC_s_CTL.open_max elapses without a conflicting request.
  -/
  | openMaxExpiry (stack channel pseudo bank : Nat)
/-- ZMAP_READY (R254). Zeroing of every codeword and setting of the zero map finish, SMC_LOCK.zmap_ready reads 1 and waiting requests
  proceed. -/
  | zmapReady
/-- PD_SWITCH_DONE (R390). A power-domain switch of up to 100 µs finishes, PWR_PD_CMD.busy clears, and a domain switched on starts its
  blocks at reset values. -/
  | pdSwitchDone
deriving DecidableEq, Repr

end Sys2Proof
end

