-- ==== Sys2Proof/Decode.lean ====
section
/-!
DEFINITION. Decode.lean: the commands that a word of spec/opcode_table.json spells. The table gives no row any bits: a command of this
block is an event or an access with its operands, and no word stands for it.
-/
namespace Sys2Proof

/-- The command that a word of the table spells: the table gives no row bits, so none. -/
def decodeTableWord (_nbits _w : Nat) : Option Instr := none

end Sys2Proof
end

