-- ==== Sys2Proof/Config.lean ====
section
/-!
DEFINITION. Config.lean: what one implementation fixes and the free values: constants with no body, so that no proof can
see them. A free value replaces one value the spec leaves open; every other effect of a command stands (log 2).
-/
namespace Sys2Proof.Config

/-- A free number for each draw: the step reads the state's counter `free` and advances it (log 2). -/
opaque freeNat : Nat → Nat

/-- A free byte for each draw (log 2). -/
opaque freeByte : Nat → Byte

/-- SHAKE256 of a byte string, as many bytes as asked (spec 17, R354; the spec names the function and gives no values). -/
opaque shake256 : List Byte → Nat → List Byte

/-- The last-place offset an engine's special function shows for an argument, by function and FP32 bits: only its remainder
modulo 9 is used, and only while the result stays inside the bound of R158 (spec 07). -/
opaque ulpOffset : Nat → Nat → Nat

/-- The fleet_secret fuses (spec 17, R352; the spec gives no value). -/
opaque fleetSecret : Nat

/-- The device identity's public key (spec 17, R363; derived from device_secret, whose value the spec does not give). -/
opaque identityKey : List Byte

/-- Byte i of the XMSS^MT signature of a message under an index (spec 17, R363, R368; the spec names the algorithm). -/
opaque xmssByte : Nat → List Byte → Nat → Byte

/-- Byte i of the AES-256-GCM key stream of 36 bytes of key and salt and a segment counter (spec 13, R300). -/
opaque gcmByte : List Byte → Nat → Nat → Byte

/-- The AES-256-GCM tag of key and salt, counter, additional data and ciphertext (spec 13, R300). -/
opaque gcmTag : List Byte → Nat → List Byte → List Byte → Nat

/-- The SHAKE256 digest of the firmware payload that an image slot holds (spec 17, R366, R368; the spec gives images no layout). -/
opaque payloadDigest : List Byte → List Byte

/-- The SVN in the manifest of an image (spec 17, R366; the spec gives images no layout). -/
opaque imageSvn : List Byte → Nat

/-- The SHA3-384 digest that an SPDM measurement block carries (spec 17, R368). -/
opaque sha3 : List Byte → List Byte

end Sys2Proof.Config
end

