-- ==== Sys2Proof/Machine/Bits.lean ====
section
/-!
DEFINITION. Machine/Bits.lean: bit fields, little-endian bytes (R1), the guard CRC-16 (R14), the frame CRC-32 (R283)
and the operations on finite maps.
-/
namespace Sys2Proof.Machine

/-- Bits [lo+w-1:lo] of v. -/
def bitsOf (v lo w : Nat) : Nat := v / 2 ^ lo % 2 ^ w

/-- Bit i of v as a Bool. -/
def bitOf (v i : Nat) : Bool := v / 2 ^ i % 2 == 1

/-- 1 for true, 0 for false. -/
def b2n (b : Bool) : Nat := if b then 1 else 0

/-- v with bits [lo+w-1:lo] replaced by the low w bits of x. -/
def putBits (v lo w x : Nat) : Nat := v - bitsOf v lo w * 2 ^ lo + (x % 2 ^ w) * 2 ^ lo

/-- The number that a little-endian byte list holds (R1). -/
def leToNat : List Byte → Nat
  | [] => 0
  | b :: bs => b.toNat + 256 * leToNat bs

/-- The first n little-endian bytes of v (R1). -/
def natToLe : Nat → Nat → List Byte
  | 0, _ => []
  | n + 1, v => BitVec.ofNat 8 v :: natToLe n (v / 256)

/-- One bit of the CRC-16 of R14, polynomial 0x8BB7, most significant bit first. -/
def crc16Bit (crc : Nat) (bit : Nat) : Nat :=
  let top := crc / 32768 % 2
  let sh := crc * 2 % 65536
  if (top + bit) % 2 = 1 then Nat.xor sh 0x8BB7 else sh

/-- One byte of the CRC-16 of R14. -/
def crc16Byte (crc : Nat) (b : Byte) : Nat :=
  [7, 6, 5, 4, 3, 2, 1, 0].foldl (fun c i => crc16Bit c (b.toNat / 2 ^ i % 2)) crc

/-- The guard of R14 over a byte list in ascending order. -/
def crc16 (bs : List Byte) : Nat := bs.foldl crc16Byte 0

/-- One byte of the reflected CRC-32 of R283. -/
def crc32Byte (crc : Nat) (b : Byte) : Nat :=
  (List.range 8).foldl (fun c _ => if c % 2 = 1 then Nat.xor (c / 2) 0xEDB88320 else c / 2) (Nat.xor crc b.toNat)

/-- The frame CRC-32 of R283. -/
def crc32 (bs : List Byte) : Nat := Nat.xor (bs.foldl crc32Byte 0xFFFFFFFF) 0xFFFFFFFF

/-- Value under key k. -/
def nfind {β : Type} : NMap β → Nat → Option β
  | [], _ => none
  | (a, b) :: m, k => if a = k then some b else nfind m k

/-- Value under key k, or the default d. -/
def ngetD {β : Type} (d : β) (m : NMap β) (k : Nat) : β := (nfind m k).getD d

/-- The map with v under key k, kept sorted. -/
def nput {β : Type} : NMap β → Nat → β → NMap β
  | [], k, v => [(k, v)]
  | (a, b) :: m, k, v =>
    if k < a then (k, v) :: (a, b) :: m
    else if k = a then (k, v) :: m
    else (a, b) :: nput m k v

/-- The map without key k. -/
def ndel {β : Type} : NMap β → Nat → NMap β
  | [], _ => []
  | (a, b) :: m, k => if a = k then ndel m k else (a, b) :: ndel m k

/-- The map with v under key k, where an unlisted key reads as d: a value equal to d is not listed. -/
def nset {β : Type} [DecidableEq β] (d : β) (m : NMap β) (k : Nat) (v : β) : NMap β :=
  if v = d then ndel m k else nput m k v

/-- The canonical form: keys strictly rising and no value equal to the unlisted one. -/
def nwf {β : Type} [DecidableEq β] (d : β) : NMap β → Bool
  | [] => true
  | (a, b) :: m => decide (b ≠ d) && m.all (fun p => decide (a < p.1)) && nwf d m

/-- The canonical form where the unlisted value depends on the key. -/
def nwfBy {β : Type} [DecidableEq β] (d : Nat → β) : NMap β → Bool
  | [] => true
  | (a, b) :: m => decide (b ≠ d a) && m.all (fun p => decide (a < p.1)) && nwfBy d m

/-- Ceiling division. -/
def cdiv (a b : Nat) : Nat := (a + b - 1) / b

/-- Element i of a list, or the default d. -/
def lget {β : Type} (d : β) (l : List β) (i : Nat) : β := l.getD i d

/-- The list with element i changed by f. -/
def lmod {β : Type} (l : List β) (i : Nat) (f : β → β) : List β := l.modify i f

/-- Clamp v into lo..hi. -/
def clamp (lo hi v : Nat) : Nat := if v < lo then lo else if hi < v then hi else v

/-- Saturating count of w bits. -/
def satAdd (w v d : Nat) : Nat := min (v + d) (2 ^ w - 1)

/-- A granule of 64 zero bytes with guard 0x0000 (R17). -/
def zeroGran : Gran := { data := List.replicate 64 0, guard := 0, poison := false, zero := true }

/-- A poisoned granule: its data bytes are undefined (R16), so it carries none. -/
def poisonGran : Gran := { data := [], guard := 0, poison := true }

/-- A granule of given bytes with its fresh guard (R15). -/
def freshGran (bs : List Byte) : Gran := { data := bs, guard := crc16 bs, poison := false }

/-- The guard of a granule checks (R15). A poisoned granule is not guard-checked (R16). -/
def granOk (g : Gran) : Bool := g.poison || g.guard == crc16 g.data

/-- Cut a byte list into granules of 64 bytes, with fuel n granules. -/
def chop64 : Nat → List Byte → List (List Byte)
  | 0, _ => []
  | n + 1, bs => bs.take 64 :: chop64 n (bs.drop 64)

end Sys2Proof.Machine
end

