-- ==== Sys2Proof/Machine/Regs.lean ====
section
/-!
DEFINITION. Machine/Regs.lean: every field of every register table of the spec (spec 02, 03, 04, 08 to 20), each as the
place of its bits and its reset value, and the table of registers by which an access of PF0 BAR0 finds them (R3, R6, R7).
Fields the spec fills at start or from fuses stand at 0 until DEVICE_START writes them (DESIGN CHOICE, log 9).
-/
namespace Sys2Proof.Machine

/-- One register of PF0 BAR0: its name, offset, width in bits, stride and count of copies, block code and fields. -/
structure RegDesc where
  name : String
  off : Nat
  width : Nat
  stride : Nat
  count : Nat
  block : Nat
  fields : List (FTy × Fld)
deriving DecidableEq, Repr

namespace Reg

/-! QMG_BLOCK_ID: spec 03_queues_and_commands.md. -/
/-- QMG_BLOCK_ID.family, RO, bits 31:24. -/
def qmgBlockId_family : Fld := ⟨0x1000000, 0x0, 24, 8, 2, [], false⟩
/-- QMG_BLOCK_ID.instance, RO, bits 23:16. -/
def qmgBlockId_inst : Fld := ⟨0x1000000, 0x0, 16, 8, 0, [], false⟩
/-- QMG_BLOCK_ID.block_code, RO, bits 11:0. -/
def qmgBlockId_block_code : Fld := ⟨0x1000000, 0x0, 0, 12, 16, [], false⟩
/-! QMG_BLOCK_REV: spec 03_queues_and_commands.md. -/
/-- QMG_BLOCK_REV.stepping, RO, bits 15:8. -/
def qmgBlockRev_stepping : Fld := ⟨0x1000004, 0x0, 8, 8, 176, [], false⟩
/-- QMG_BLOCK_REV.block_rev, RO, bits 7:0. -/
def qmgBlockRev_block_rev : Fld := ⟨0x1000004, 0x0, 0, 8, 2, [], false⟩
/-! QMG_QCTX_BASE: spec 03_queues_and_commands.md. -/
/-- QMG_QCTX_BASE.base, RW, bits 55:0. -/
def qmgQctxBase_base : Fld := ⟨0x1000010, 0x0, 0, 56, 0, [], false⟩
/-! QMG_QCMD: spec 03_queues_and_commands.md. -/
/-- QMG_QCMD.queue, RW, bits 15:0. -/
def qmgQcmd_queue : Fld := ⟨0x1000020, 0x0, 0, 16, 0, [], false⟩
/-- QMG_QCMD.op, WO, bits 19:16. -/
def qmgQcmd_op : Fld := ⟨0x1000020, 0x0, 16, 4, 0, [], false⟩
/-- QMG_QCMD.result, RO, bits 27:24. -/
def qmgQcmd_result : Fld := ⟨0x1000020, 0x0, 24, 4, 0, [], false⟩
/-- QMG_QCMD.busy, RO, bits 31:31. -/
def qmgQcmd_busy : Fld := ⟨0x1000020, 0x0, 31, 1, 0, [], false⟩
/-! QMG_ERR_BASE: spec 03_queues_and_commands.md. -/
/-- QMG_ERR_BASE.base, RW, bits 55:0. -/
def qmgErrBase_base : Fld := ⟨0x1000100, 0x0, 0, 56, 0, [], false⟩
/-! QMG_ERR_CTL: spec 03_queues_and_commands.md. -/
/-- QMG_ERR_CTL.log2_entries, RW, bits 3:0. -/
def qmgErrCtl_log2_entries : Fld := ⟨0x1000108, 0x0, 0, 4, 8, [], false⟩
/-- QMG_ERR_CTL.tail, RO, bits 23:16. -/
def qmgErrCtl_tail : Fld := ⟨0x1000108, 0x0, 16, 8, 0, [], false⟩
/-- QMG_ERR_CTL.head, RW, bits 31:24. -/
def qmgErrCtl_head : Fld := ⟨0x1000108, 0x0, 24, 8, 0, [], false⟩
/-! QMG_ERR_OVF: spec 03_queues_and_commands.md. -/
/-- QMG_ERR_OVF.dropped, W1C, bits 31:0. -/
def qmgErrOvf_dropped : Fld := ⟨0x1000110, 0x0, 0, 32, 0, [], false⟩
/-! QMG_DB_DROP: spec 03_queues_and_commands.md. -/
/-- QMG_DB_DROP.count, W1C, bits 31:0. -/
def qmgDbDrop_count : Fld := ⟨0x1000114, 0x0, 0, 32, 0, [], false⟩
/-! NME_CAPS: spec 04_near_memory_engines.md. -/
/-- NME_CAPS.enabled, RO, bits 6:0. -/
def nmeCaps_enabled : Fld := ⟨0x3800000, 0x0, 0, 7, 0, [], false⟩
/-- NME_CAPS.spares_ready, RO, bits 11:8. -/
def nmeCaps_spares_ready : Fld := ⟨0x3800000, 0x0, 8, 4, 0, [], false⟩
/-! NME_DISP_CTL: spec 04_near_memory_engines.md. -/
/-- NME_DISP_CTL.ctx_per_tenant, RWC, bits 3:0. -/
def nmeDispCtl_ctx_per_tenant : Fld := ⟨0x3800010, 0x0, 0, 4, 0, [], false⟩
/-- NME_DISP_CTL.spill_en, RWC, bits 4:4. -/
def nmeDispCtl_spill_en : Fld := ⟨0x3800010, 0x0, 4, 1, 1, [], false⟩
/-- NME_DISP_CTL.spill_depth, RWC, bits 11:8. -/
def nmeDispCtl_spill_depth : Fld := ⟨0x3800010, 0x0, 8, 4, 4, [], false⟩
/-! NME_COMMIT: spec 04_near_memory_engines.md. -/
/-- NME_COMMIT.commit, WO, bits 0:0. -/
def nmeCommit_commit : Fld := ⟨0x3800018, 0x0, 0, 1, 0, [], false⟩
/-! NME_RETIRE: spec 04_near_memory_engines.md. -/
/-- NME_RETIRE.engine, RW, bits 6:0. -/
def nmeRetire_engine : Fld := ⟨0x3800020, 0x0, 0, 7, 0, [], false⟩
/-- NME_RETIRE.retire, WO, bits 8:8. -/
def nmeRetire_retire : Fld := ⟨0x3800020, 0x0, 8, 1, 0, [], false⟩
/-- NME_RETIRE.result, RO, bits 13:12. -/
def nmeRetire_result : Fld := ⟨0x3800020, 0x0, 12, 2, 0, [], false⟩
/-- NME_RETIRE.busy, RO, bits 31:31. -/
def nmeRetire_busy : Fld := ⟨0x3800020, 0x0, 31, 1, 0, [], false⟩
/-! NME_ERR_BASE: spec 04_near_memory_engines.md. -/
/-- NME_ERR_BASE.base, RW, bits 55:0. -/
def nmeErrBase_base : Fld := ⟨0x3800200, 0x0, 0, 56, 0, [], false⟩
/-! NME_ERR_CTL: spec 04_near_memory_engines.md. -/
/-- NME_ERR_CTL.log2_entries, RW, bits 3:0. -/
def nmeErrCtl_log2_entries : Fld := ⟨0x3800208, 0x0, 0, 4, 8, [], false⟩
/-- NME_ERR_CTL.tail, RO, bits 23:16. -/
def nmeErrCtl_tail : Fld := ⟨0x3800208, 0x0, 16, 8, 0, [], false⟩
/-- NME_ERR_CTL.head, RW, bits 31:24. -/
def nmeErrCtl_head : Fld := ⟨0x3800208, 0x0, 24, 8, 0, [], false⟩
/-! NME_ERR_OVF: spec 04_near_memory_engines.md. -/
/-- NME_ERR_OVF.dropped, W1C, bits 31:0. -/
def nmeErrOvf_dropped : Fld := ⟨0x3800210, 0x0, 0, 32, 0, [], false⟩
/-! XTU_BLOCK_ID: spec 08_address_translation.md. -/
/-- XTU_BLOCK_ID.family, RO, bits 31:24. -/
def xtuBlockId_family : Fld := ⟨0x2000000, 0x0, 24, 8, 2, [], false⟩
/-- XTU_BLOCK_ID.instance, RO, bits 23:16. -/
def xtuBlockId_inst : Fld := ⟨0x2000000, 0x0, 16, 8, 0, [], false⟩
/-- XTU_BLOCK_ID.block_code, RO, bits 11:0. -/
def xtuBlockId_block_code : Fld := ⟨0x2000000, 0x0, 0, 12, 32, [], false⟩
/-! XTU_BLOCK_REV: spec 08_address_translation.md. -/
/-- XTU_BLOCK_REV.stepping, RO, bits 15:8. -/
def xtuBlockRev_stepping : Fld := ⟨0x2000004, 0x0, 8, 8, 176, [], false⟩
/-- XTU_BLOCK_REV.block_rev, RO, bits 7:0. -/
def xtuBlockRev_block_rev : Fld := ⟨0x2000004, 0x0, 0, 8, 2, [], false⟩
/-! XTU_CTL: spec 08_address_translation.md. -/
/-- XTU_CTL.late_drain, RW, bits 13:0. -/
def xtuCtl_late_drain : Fld := ⟨0x2000010, 0x0, 0, 14, 1700, [], false⟩
/-- XTU_CTL.mig_en, RW, bits 14:14. -/
def xtuCtl_mig_en : Fld := ⟨0x2000010, 0x0, 14, 1, 0, [], false⟩
/-- XTU_CTL.pri_timeout_ms, RW, bits 25:16. -/
def xtuCtl_pri_timeout_ms : Fld := ⟨0x2000010, 0x0, 16, 10, 500, [], false⟩
/-! XTU_RGN_BASE: spec 08_address_translation.md. -/
/-- XTU_RGN_BASE.base, RW, bits 55:0. -/
def xtuRgnBase_base : Fld := ⟨0x2000020, 0x0, 0, 56, 0, [], false⟩
/-! XTU_RGN_COUNT: spec 08_address_translation.md. -/
/-- XTU_RGN_COUNT.count, RW, bits 18:0. -/
def xtuRgnCount_count : Fld := ⟨0x2000028, 0x0, 0, 19, 0, [], false⟩
/-! XTU_RESMAP_BASE: spec 08_address_translation.md. -/
/-- XTU_RESMAP_BASE.base, RW, bits 55:0. -/
def xtuResmapBase_base : Fld := ⟨0x2000030, 0x0, 0, 56, 0, [], false⟩
/-! XTU_RCMD: spec 08_address_translation.md. -/
/-- XTU_RCMD.op, WO, bits 3:0. -/
def xtuRcmd_op : Fld := ⟨0x2000040, 0x0, 0, 4, 0, [], false⟩
/-- XTU_RCMD.tenant, RW, bits 19:8. -/
def xtuRcmd_tenant : Fld := ⟨0x2000040, 0x0, 8, 12, 0, [], false⟩
/-- XTU_RCMD.tag, RW, bits 55:32. -/
def xtuRcmd_tag : Fld := ⟨0x2000040, 0x0, 32, 24, 0, [], false⟩
/-- XTU_RCMD.result, RO, bits 59:56. -/
def xtuRcmd_result : Fld := ⟨0x2000040, 0x0, 56, 4, 0, [], false⟩
/-- XTU_RCMD.busy, RO, bits 63:63. -/
def xtuRcmd_busy : Fld := ⟨0x2000040, 0x0, 63, 1, 0, [], false⟩
/-! XTU_RCMD_ARG0: spec 08_address_translation.md. -/
/-- XTU_RCMD_ARG0.addr, RW, bits 63:0. -/
def xtuRcmdArg0_addr : Fld := ⟨0x2000048, 0x0, 0, 64, 0, [], false⟩
/-! XTU_RCMD_ARG1: spec 08_address_translation.md. -/
/-- XTU_RCMD_ARG1.count, RW, bits 31:0. -/
def xtuRcmdArg1_count : Fld := ⟨0x2000050, 0x0, 0, 32, 0, [], false⟩
/-! XTU_CCQ_BASE: spec 08_address_translation.md. -/
/-- XTU_CCQ_BASE.base, RW, bits 55:0. -/
def xtuCcqBase_base : Fld := ⟨0x2000060, 0x0, 0, 56, 0, [], false⟩
/-! XTU_CCQ_CTL: spec 08_address_translation.md. -/
/-- XTU_CCQ_CTL.log2_entries, RW, bits 3:0. -/
def xtuCcqCtl_log2_entries : Fld := ⟨0x2000068, 0x0, 0, 4, 8, [], false⟩
/-- XTU_CCQ_CTL.tail, RO, bits 23:16. -/
def xtuCcqCtl_tail : Fld := ⟨0x2000068, 0x0, 16, 8, 0, [], false⟩
/-- XTU_CCQ_CTL.head, RW, bits 31:24. -/
def xtuCcqCtl_head : Fld := ⟨0x2000068, 0x0, 24, 8, 0, [], false⟩
/-! XTU_MIG_BASE: spec 08_address_translation.md. -/
/-- XTU_MIG_BASE.base, RW, bits 55:0. -/
def xtuMigBase_base : Fld := ⟨0x2000080, 0x0, 0, 56, 0, [], false⟩
/-! XTU_MIG_CTL: spec 08_address_translation.md. -/
/-- XTU_MIG_CTL.tail, RO, bits 11:0. -/
def xtuMigCtl_tail : Fld := ⟨0x2000088, 0x0, 0, 12, 0, [], false⟩
/-- XTU_MIG_CTL.head, RW, bits 27:16. -/
def xtuMigCtl_head : Fld := ⟨0x2000088, 0x0, 16, 12, 0, [], false⟩
/-! XTU_MIG_DONE: spec 08_address_translation.md. -/
/-- XTU_MIG_DONE.index, WO, bits 11:0. -/
def xtuMigDone_index : Fld := ⟨0x2000090, 0x0, 0, 12, 0, [], false⟩
/-- XTU_MIG_DONE.outcome, WO, bits 17:16. -/
def xtuMigDone_outcome : Fld := ⟨0x2000090, 0x0, 16, 2, 0, [], false⟩
/-! XTU_ERR_BASE: spec 08_address_translation.md. -/
/-- XTU_ERR_BASE.base, RW, bits 55:0. -/
def xtuErrBase_base : Fld := ⟨0x2000100, 0x0, 0, 56, 0, [], false⟩
/-! XTU_ERR_CTL: spec 08_address_translation.md. -/
/-- XTU_ERR_CTL.log2_entries, RW, bits 3:0. -/
def xtuErrCtl_log2_entries : Fld := ⟨0x2000108, 0x0, 0, 4, 8, [], false⟩
/-- XTU_ERR_CTL.tail, RO, bits 23:16. -/
def xtuErrCtl_tail : Fld := ⟨0x2000108, 0x0, 16, 8, 0, [], false⟩
/-- XTU_ERR_CTL.head, RW, bits 31:24. -/
def xtuErrCtl_head : Fld := ⟨0x2000108, 0x0, 24, 8, 0, [], false⟩
/-! XTU_ERR_OVF: spec 08_address_translation.md. -/
/-- XTU_ERR_OVF.dropped, W1C, bits 31:0. -/
def xtuErrOvf_dropped : Fld := ⟨0x2000110, 0x0, 0, 32, 0, [], false⟩
/-! XTU_HITS: spec 08_address_translation.md. -/
/-- XTU_HITS.count, RO, bits 63:0. -/
def xtuHits_count : Fld := ⟨0x2000120, 0x0, 0, 64, 0, [], false⟩
/-! XTU_MISSES: spec 08_address_translation.md. -/
/-- XTU_MISSES.count, RO, bits 63:0. -/
def xtuMisses_count : Fld := ⟨0x2000128, 0x0, 0, 64, 0, [], false⟩
/-! DMA_BLOCK_ID: spec 09_dma_engines.md. -/
/-- DMA_BLOCK_ID.family, RO, bits 31:24. -/
def dmaBlockId_family : Fld := ⟨0x4000000, 0x0, 24, 8, 2, [], false⟩
/-- DMA_BLOCK_ID.instance, RO, bits 23:16. -/
def dmaBlockId_inst : Fld := ⟨0x4000000, 0x0, 16, 8, 0, [], false⟩
/-- DMA_BLOCK_ID.block_code, RO, bits 11:0. -/
def dmaBlockId_block_code : Fld := ⟨0x4000000, 0x0, 0, 12, 64, [], false⟩
/-! DMA_BLOCK_REV: spec 09_dma_engines.md. -/
/-- DMA_BLOCK_REV.stepping, RO, bits 15:8. -/
def dmaBlockRev_stepping : Fld := ⟨0x4000004, 0x0, 8, 8, 176, [], false⟩
/-- DMA_BLOCK_REV.block_rev, RO, bits 7:0. -/
def dmaBlockRev_block_rev : Fld := ⟨0x4000004, 0x0, 0, 8, 2, [], false⟩
/-! DMA_CTL: spec 09_dma_engines.md. -/
/-- DMA_CTL.host_ro, RW, bits 0:0. -/
def dmaCtl_host_ro : Fld := ⟨0x4000010, 0x0, 0, 1, 1, [], false⟩
/-- DMA_CTL.rd_window, RW, bits 7:4. -/
def dmaCtl_rd_window : Fld := ⟨0x4000010, 0x0, 4, 4, 8, [], false⟩
/-! DMA_ERR_BASE: spec 09_dma_engines.md. -/
/-- DMA_ERR_BASE.base, RW, bits 55:0. -/
def dmaErrBase_base : Fld := ⟨0x4000100, 0x0, 0, 56, 0, [], false⟩
/-! DMA_ERR_CTL: spec 09_dma_engines.md. -/
/-- DMA_ERR_CTL.log2_entries, RW, bits 3:0. -/
def dmaErrCtl_log2_entries : Fld := ⟨0x4000108, 0x0, 0, 4, 8, [], false⟩
/-- DMA_ERR_CTL.tail, RO, bits 23:16. -/
def dmaErrCtl_tail : Fld := ⟨0x4000108, 0x0, 16, 8, 0, [], false⟩
/-- DMA_ERR_CTL.head, RW, bits 31:24. -/
def dmaErrCtl_head : Fld := ⟨0x4000108, 0x0, 24, 8, 0, [], false⟩
/-! DMA_ERR_OVF: spec 09_dma_engines.md. -/
/-- DMA_ERR_OVF.dropped, W1C, bits 31:0. -/
def dmaErrOvf_dropped : Fld := ⟨0x4000110, 0x0, 0, 32, 0, [], false⟩
/-! DMA_MIG_CMD0: spec 09_dma_engines.md. -/
/-- DMA_MIG_CMD0.ppa, RW, bits 55:0. -/
def dmaMigCmd0_ppa : Fld := ⟨0x4000200, 0x0, 0, 56, 0, [], false⟩
/-! DMA_MIG_CMD1: spec 09_dma_engines.md. -/
/-- DMA_MIG_CMD1.iova, RW, bits 63:0. -/
def dmaMigCmd1_iova : Fld := ⟨0x4000208, 0x0, 0, 64, 0, [], false⟩
/-! DMA_MIG_CMD2: spec 09_dma_engines.md. -/
/-- DMA_MIG_CMD2.pasid, RW, bits 19:0. -/
def dmaMigCmd2_pasid : Fld := ⟨0x4000210, 0x0, 0, 20, 0, [], false⟩
/-- DMA_MIG_CMD2.index, RW, bits 31:20. -/
def dmaMigCmd2_index : Fld := ⟨0x4000210, 0x0, 20, 12, 0, [], false⟩
/-- DMA_MIG_CMD2.go, WO, bits 32:32. -/
def dmaMigCmd2_go : Fld := ⟨0x4000210, 0x0, 32, 1, 0, [], false⟩
/-- DMA_MIG_CMD2.result, RO, bits 34:33. -/
def dmaMigCmd2_result : Fld := ⟨0x4000210, 0x0, 33, 2, 0, [], false⟩
/-! DMA_MIG_RESULT: spec 09_dma_engines.md. -/
/-- DMA_MIG_RESULT.index, RO, bits 11:0. -/
def dmaMigResult_index : Fld := ⟨0x4000220, 0x0, 0, 12, 0, [], false⟩
/-- DMA_MIG_RESULT.outcome, RO, bits 13:12. -/
def dmaMigResult_outcome : Fld := ⟨0x4000220, 0x0, 12, 2, 0, [], false⟩
/-- DMA_MIG_RESULT.valid, RO, bits 31:31. -/
def dmaMigResult_valid : Fld := ⟨0x4000220, 0x0, 31, 1, 0, [], false⟩
/-! DMA_MIG_POP: spec 09_dma_engines.md. -/
/-- DMA_MIG_POP.pop, WO, bits 0:0. -/
def dmaMigPop_pop : Fld := ⟨0x4000224, 0x0, 0, 1, 0, [], false⟩
/-! SMC_RSV: spec 10_memory_system.md. -/
/-- SMC_RSV.frames, RW, bits 12:0. -/
def smcRsv_frames : Fld := ⟨0x5c00040, 0x0, 0, 13, 128, [], false⟩
/-! SMC_LOCK: spec 10_memory_system.md. -/
/-- SMC_LOCK.locked, W1S, bits 0:0. -/
def smcLock_locked : Fld := ⟨0x5c00048, 0x0, 0, 1, 0, [], false⟩
/-- SMC_LOCK.zmap_ready, RO, bits 1:1. -/
def smcLock_zmap_ready : Fld := ⟨0x5c00048, 0x0, 1, 1, 0, [], false⟩
/-! SMC_ENG_LAT: spec 10_memory_system.md. -/
/-- SMC_ENG_LAT.rank, RWC, bits 1:0. -/
def smcEngLat_rank : Fld := ⟨0x5c00060, 0x0, 0, 2, 1, [], false⟩
/-- SMC_ENG_LAT.lat_target, RWC, bits 15:8. -/
def smcEngLat_lat_target : Fld := ⟨0x5c00060, 0x0, 8, 8, 60, [], false⟩
/-! SMC_COMMIT: spec 10_memory_system.md. -/
/-- SMC_COMMIT.commit, WO, bits 0:0. -/
def smcCommit_commit : Fld := ⟨0x5c00068, 0x0, 0, 1, 0, [], false⟩
/-! XBAR_BLOCK_ID: spec 10_memory_system.md. -/
/-- XBAR_BLOCK_ID.family, RO, bits 31:24. -/
def xbarBlockId_family : Fld := ⟨0x4800000, 0x0, 24, 8, 2, [], false⟩
/-- XBAR_BLOCK_ID.instance, RO, bits 23:16. -/
def xbarBlockId_inst : Fld := ⟨0x4800000, 0x0, 16, 8, 0, [], false⟩
/-- XBAR_BLOCK_ID.block_code, RO, bits 11:0. -/
def xbarBlockId_block_code : Fld := ⟨0x4800000, 0x0, 0, 12, 72, [], false⟩
/-! XBAR_BLOCK_REV: spec 10_memory_system.md. -/
/-- XBAR_BLOCK_REV.stepping, RO, bits 15:8. -/
def xbarBlockRev_stepping : Fld := ⟨0x4800004, 0x0, 8, 8, 176, [], false⟩
/-- XBAR_BLOCK_REV.block_rev, RO, bits 7:0. -/
def xbarBlockRev_block_rev : Fld := ⟨0x4800004, 0x0, 0, 8, 2, [], false⟩
/-! XBAR_ARB_CTL: spec 10_memory_system.md. -/
/-- XBAR_ARB_CTL.n_xbar, RWC, bits 5:0. -/
def xbarArbCtl_n_xbar : Fld := ⟨0x4800010, 0x0, 0, 6, 15, [], false⟩
/-- XBAR_ARB_CTL.n_smc, RWC, bits 11:6. -/
def xbarArbCtl_n_smc : Fld := ⟨0x4800010, 0x0, 6, 6, 15, [], false⟩
/-- XBAR_ARB_CTL.n_qmg, RWC, bits 17:12. -/
def xbarArbCtl_n_qmg : Fld := ⟨0x4800010, 0x0, 12, 6, 7, [], false⟩
/-- XBAR_ARB_CTL.n_nme, RWC, bits 23:18. -/
def xbarArbCtl_n_nme : Fld := ⟨0x4800010, 0x0, 18, 6, 7, [], false⟩
/-- XBAR_ARB_CTL.n_dma, RWC, bits 29:24. -/
def xbarArbCtl_n_dma : Fld := ⟨0x4800010, 0x0, 24, 6, 7, [], false⟩
/-- XBAR_ARB_CTL.n_home, RWC, bits 35:30. -/
def xbarArbCtl_n_home : Fld := ⟨0x4800010, 0x0, 30, 6, 15, [], false⟩
/-- XBAR_ARB_CTL.n_adm, RWC, bits 41:36. -/
def xbarArbCtl_n_adm : Fld := ⟨0x4800010, 0x0, 36, 6, 15, [], false⟩
/-! XBAR_COMMIT: spec 10_memory_system.md. -/
/-- XBAR_COMMIT.commit, WO, bits 0:0. -/
def xbarCommit_commit : Fld := ⟨0x4800018, 0x0, 0, 1, 0, [], false⟩
/-! XBAR_BRIDGE_WE_BYTES: spec 10_memory_system.md. -/
/-- XBAR_BRIDGE_WE_BYTES.count, RO, bits 63:0. -/
def xbarBridgeWeBytes_count : Fld := ⟨0x4800200, 0x0, 0, 64, 0, [], false⟩
/-! XBAR_BRIDGE_EW_BYTES: spec 10_memory_system.md. -/
/-- XBAR_BRIDGE_EW_BYTES.count, RO, bits 63:0. -/
def xbarBridgeEwBytes_count : Fld := ⟨0x4800208, 0x0, 0, 64, 0, [], false⟩
/-! XBAR_BRIDGE_STALL: spec 10_memory_system.md. -/
/-- XBAR_BRIDGE_STALL.count, RO, bits 63:0. -/
def xbarBridgeStall_count : Fld := ⟨0x4800210, 0x0, 0, 64, 0, [], false⟩
/-! RAS_BLOCK_ID: spec 11_data_integrity_and_ras.md. -/
/-- RAS_BLOCK_ID.family, RO, bits 31:24. -/
def rasBlockId_family : Fld := ⟨0x6000000, 0x0, 24, 8, 2, [], false⟩
/-- RAS_BLOCK_ID.instance, RO, bits 23:16. -/
def rasBlockId_inst : Fld := ⟨0x6000000, 0x0, 16, 8, 0, [], false⟩
/-- RAS_BLOCK_ID.block_code, RO, bits 11:0. -/
def rasBlockId_block_code : Fld := ⟨0x6000000, 0x0, 0, 12, 96, [], false⟩
/-! RAS_BLOCK_REV: spec 11_data_integrity_and_ras.md. -/
/-- RAS_BLOCK_REV.stepping, RO, bits 15:8. -/
def rasBlockRev_stepping : Fld := ⟨0x6000004, 0x0, 8, 8, 176, [], false⟩
/-- RAS_BLOCK_REV.block_rev, RO, bits 7:0. -/
def rasBlockRev_block_rev : Fld := ⟨0x6000004, 0x0, 0, 8, 2, [], false⟩
/-! RAS_CTL: spec 11_data_integrity_and_ras.md. -/
/-- RAS_CTL.row_ce_limit, RW, bits 7:0. -/
def rasCtl_row_ce_limit : Fld := ⟨0x6000010, 0x0, 0, 8, 8, [], false⟩
/-- RAS_CTL.ue_limit, RW, bits 15:8. -/
def rasCtl_ue_limit : Fld := ⟨0x6000010, 0x0, 8, 8, 64, [], false⟩
/-- RAS_CTL.repair_en, RW, bits 16:16. -/
def rasCtl_repair_en : Fld := ⟨0x6000010, 0x0, 16, 1, 1, [], false⟩
/-! RAS_CE_EVICT: spec 11_data_integrity_and_ras.md. -/
/-- RAS_CE_EVICT.count, W1C, bits 31:0. -/
def rasCeEvict_count : Fld := ⟨0x6000018, 0x0, 0, 32, 0, [], false⟩
/-! RAS_ERR_BASE: spec 11_data_integrity_and_ras.md. -/
/-- RAS_ERR_BASE.base, RW, bits 55:0. -/
def rasErrBase_base : Fld := ⟨0x6000100, 0x0, 0, 56, 0, [], false⟩
/-! RAS_ERR_CTL: spec 11_data_integrity_and_ras.md. -/
/-- RAS_ERR_CTL.log2_entries, RW, bits 3:0. -/
def rasErrCtl_log2_entries : Fld := ⟨0x6000108, 0x0, 0, 4, 8, [], false⟩
/-- RAS_ERR_CTL.tail, RO, bits 23:16. -/
def rasErrCtl_tail : Fld := ⟨0x6000108, 0x0, 16, 8, 0, [], false⟩
/-- RAS_ERR_CTL.head, RW, bits 31:24. -/
def rasErrCtl_head : Fld := ⟨0x6000108, 0x0, 24, 8, 0, [], false⟩
/-! RAS_ERR_OVF: spec 11_data_integrity_and_ras.md. -/
/-- RAS_ERR_OVF.dropped, W1C, bits 31:0. -/
def rasErrOvf_dropped : Fld := ⟨0x6000110, 0x0, 0, 32, 0, [], false⟩
/-! MSL_BLOCK_ID: spec 11_data_integrity_and_ras.md. -/
/-- MSL_BLOCK_ID.family, RO, bits 31:24. -/
def mslBlockId_family : Fld := ⟨0x6800000, 0x0, 24, 8, 2, [], false⟩
/-- MSL_BLOCK_ID.instance, RO, bits 23:16. -/
def mslBlockId_inst : Fld := ⟨0x6800000, 0x0, 16, 8, 0, [], false⟩
/-- MSL_BLOCK_ID.block_code, RO, bits 11:0. -/
def mslBlockId_block_code : Fld := ⟨0x6800000, 0x0, 0, 12, 104, [], false⟩
/-! MSL_BLOCK_REV: spec 11_data_integrity_and_ras.md. -/
/-- MSL_BLOCK_REV.stepping, RO, bits 15:8. -/
def mslBlockRev_stepping : Fld := ⟨0x6800004, 0x0, 8, 8, 176, [], false⟩
/-- MSL_BLOCK_REV.block_rev, RO, bits 7:0. -/
def mslBlockRev_block_rev : Fld := ⟨0x6800004, 0x0, 0, 8, 2, [], false⟩
/-! MSL_CTL: spec 11_data_integrity_and_ras.md. -/
/-- MSL_CTL.bg_en, RW, bits 0:0. -/
def mslCtl_bg_en : Fld := ⟨0x6800010, 0x0, 0, 1, 1, [], false⟩
/-- MSL_CTL.period_h, RW, bits 15:8. -/
def mslCtl_period_h : Fld := ⟨0x6800010, 0x0, 8, 8, 24, [], false⟩
/-- MSL_CTL.range_share, RW, bits 20:16. -/
def mslCtl_range_share : Fld := ⟨0x6800010, 0x0, 16, 5, 2, [], false⟩
/-! MSL_LATE: spec 11_data_integrity_and_ras.md. -/
/-- MSL_LATE.count, W1C, bits 31:0. -/
def mslLate_count : Fld := ⟨0x6800018, 0x0, 0, 32, 0, [], false⟩
/-! MSL_REPAIR_DROP: spec 11_data_integrity_and_ras.md. -/
/-- MSL_REPAIR_DROP.count, W1C, bits 31:0. -/
def mslRepairDrop_count : Fld := ⟨0x680001c, 0x0, 0, 32, 0, [], false⟩
/-! MSL_PASSES: spec 11_data_integrity_and_ras.md. -/
/-- MSL_PASSES.count, RO, bits 63:0. -/
def mslPasses_count : Fld := ⟨0x6800020, 0x0, 0, 64, 0, [], false⟩
/-! MSL_REPAIRED: spec 11_data_integrity_and_ras.md. -/
/-- MSL_REPAIRED.count, RO, bits 63:0. -/
def mslRepaired_count : Fld := ⟨0x6800028, 0x0, 0, 64, 0, [], false⟩
/-! PAR_BLOCK_ID: spec 11_data_integrity_and_ras.md. -/
/-- PAR_BLOCK_ID.family, RO, bits 31:24. -/
def parBlockId_family : Fld := ⟨0x7000000, 0x0, 24, 8, 2, [], false⟩
/-- PAR_BLOCK_ID.instance, RO, bits 23:16. -/
def parBlockId_inst : Fld := ⟨0x7000000, 0x0, 16, 8, 0, [], false⟩
/-- PAR_BLOCK_ID.block_code, RO, bits 11:0. -/
def parBlockId_block_code : Fld := ⟨0x7000000, 0x0, 0, 12, 112, [], false⟩
/-! PAR_BLOCK_REV: spec 11_data_integrity_and_ras.md. -/
/-- PAR_BLOCK_REV.stepping, RO, bits 15:8. -/
def parBlockRev_stepping : Fld := ⟨0x7000004, 0x0, 8, 8, 176, [], false⟩
/-- PAR_BLOCK_REV.block_rev, RO, bits 7:0. -/
def parBlockRev_block_rev : Fld := ⟨0x7000004, 0x0, 0, 8, 2, [], false⟩
/-! PAR_STATUS: spec 11_data_integrity_and_ras.md. -/
/-- PAR_STATUS.state, RO, bits 2:0. -/
def parStatus_state : Fld := ⟨0x7000010, 0x0, 0, 3, 0, [], false⟩
/-- PAR_STATUS.spare_stack, RO, bits 7:4. -/
def parStatus_spare_stack : Fld := ⟨0x7000010, 0x0, 4, 4, 0, [], false⟩
/-- PAR_STATUS.rebuild_stack, RO, bits 11:8. -/
def parStatus_rebuild_stack : Fld := ⟨0x7000010, 0x0, 8, 4, 15, [], false⟩
/-! PAR_CTL: spec 11_data_integrity_and_ras.md. -/
/-- PAR_CTL.rebuild_share, RW, bits 5:0. -/
def parCtl_rebuild_share : Fld := ⟨0x7000018, 0x0, 0, 6, 4, [], false⟩
/-- PAR_CTL.auto_promote, RW, bits 8:8. -/
def parCtl_auto_promote : Fld := ⟨0x7000018, 0x0, 8, 1, 1, [], false⟩
/-- PAR_CTL.ue_retire_en, RW, bits 9:9. -/
def parCtl_ue_retire_en : Fld := ⟨0x7000018, 0x0, 9, 1, 1, [], false⟩
/-! PAR_CMD: spec 11_data_integrity_and_ras.md. -/
/-- PAR_CMD.stack, RW, bits 3:0. -/
def parCmd_stack : Fld := ⟨0x7000020, 0x0, 0, 4, 0, [], false⟩
/-- PAR_CMD.retire, WO, bits 8:8. -/
def parCmd_retire : Fld := ⟨0x7000020, 0x0, 8, 1, 0, [], false⟩
/-- PAR_CMD.result, RO, bits 13:12. -/
def parCmd_result : Fld := ⟨0x7000020, 0x0, 12, 2, 0, [], false⟩
/-! PAR_REBUILD: spec 11_data_integrity_and_ras.md. -/
/-- PAR_REBUILD.frames_done, RO, bits 20:0. -/
def parRebuild_frames_done : Fld := ⟨0x7000028, 0x0, 0, 21, 0, [], false⟩
/-! PAR_RECON: spec 11_data_integrity_and_ras.md. -/
/-- PAR_RECON.count, RO, bits 63:0. -/
def parRecon_count : Fld := ⟨0x7000030, 0x0, 0, 64, 0, [], false⟩
/-! PAR_UNRECOV: spec 11_data_integrity_and_ras.md. -/
/-- PAR_UNRECOV.count, RO, bits 63:0. -/
def parUnrecov_count : Fld := ⟨0x7000038, 0x0, 0, 64, 0, [], false⟩
/-! DIR_BLOCK_ID: spec 12_coherence.md. -/
/-- DIR_BLOCK_ID.family, RO, bits 31:24. -/
def dirBlockId_family : Fld := ⟨0x2800000, 0x0, 24, 8, 2, [], false⟩
/-- DIR_BLOCK_ID.instance, RO, bits 23:16. -/
def dirBlockId_inst : Fld := ⟨0x2800000, 0x0, 16, 8, 0, [], false⟩
/-- DIR_BLOCK_ID.block_code, RO, bits 11:0. -/
def dirBlockId_block_code : Fld := ⟨0x2800000, 0x0, 0, 12, 40, [], false⟩
/-! DIR_BLOCK_REV: spec 12_coherence.md. -/
/-- DIR_BLOCK_REV.stepping, RO, bits 15:8. -/
def dirBlockRev_stepping : Fld := ⟨0x2800004, 0x0, 8, 8, 176, [], false⟩
/-- DIR_BLOCK_REV.block_rev, RO, bits 7:0. -/
def dirBlockRev_block_rev : Fld := ⟨0x2800004, 0x0, 0, 8, 2, [], false⟩
/-! DIR_CTL: spec 12_coherence.md. -/
/-- DIR_CTL.min_hold, RWC, bits 10:0. -/
def dirCtl_min_hold : Fld := ⟨0x2800010, 0x0, 0, 11, 64, [], false⟩
/-- DIR_CTL.snoop_timeout, RWC, bits 20:11. -/
def dirCtl_snoop_timeout : Fld := ⟨0x2800010, 0x0, 11, 10, 100, [], false⟩
/-- DIR_CTL.grant_e, RWC, bits 21:21. -/
def dirCtl_grant_e : Fld := ⟨0x2800010, 0x0, 21, 1, 1, [], false⟩
/-- DIR_CTL.arb_n, RWC, bits 27:22. -/
def dirCtl_arb_n : Fld := ⟨0x2800010, 0x0, 22, 6, 15, [], false⟩
/-! DIR_COMMIT: spec 12_coherence.md. -/
/-- DIR_COMMIT.commit, WO, bits 0:0. -/
def dirCommit_commit : Fld := ⟨0x2800018, 0x0, 0, 1, 0, [], false⟩
/-! DIR_CMD: spec 12_coherence.md. -/
/-- DIR_CMD.op, WO, bits 3:0. -/
def dirCmd_op : Fld := ⟨0x2800020, 0x0, 0, 4, 0, [], false⟩
/-- DIR_CMD.agent, RW, bits 15:8. -/
def dirCmd_agent : Fld := ⟨0x2800020, 0x0, 8, 8, 0, [], false⟩
/-- DIR_CMD.result, RO, bits 59:56. -/
def dirCmd_result : Fld := ⟨0x2800020, 0x0, 56, 4, 0, [], false⟩
/-- DIR_CMD.busy, RO, bits 63:63. -/
def dirCmd_busy : Fld := ⟨0x2800020, 0x0, 63, 1, 0, [], false⟩
/-! DIR_CMD_ARG0: spec 12_coherence.md. -/
/-- DIR_CMD_ARG0.ppa, RW, bits 55:0. -/
def dirCmdArg0_ppa : Fld := ⟨0x2800028, 0x0, 0, 56, 0, [], false⟩
/-! DIR_CMD_ARG1: spec 12_coherence.md. -/
/-- DIR_CMD_ARG1.ells, RW, bits 31:0. -/
def dirCmdArg1_ells : Fld := ⟨0x2800030, 0x0, 0, 32, 0, [], false⟩
/-! DIR_ERR_BASE: spec 12_coherence.md. -/
/-- DIR_ERR_BASE.base, RW, bits 55:0. -/
def dirErrBase_base : Fld := ⟨0x2800100, 0x0, 0, 56, 0, [], false⟩
/-! DIR_ERR_CTL: spec 12_coherence.md. -/
/-- DIR_ERR_CTL.log2_entries, RW, bits 3:0. -/
def dirErrCtl_log2_entries : Fld := ⟨0x2800108, 0x0, 0, 4, 8, [], false⟩
/-- DIR_ERR_CTL.tail, RO, bits 23:16. -/
def dirErrCtl_tail : Fld := ⟨0x2800108, 0x0, 16, 8, 0, [], false⟩
/-- DIR_ERR_CTL.head, RW, bits 31:24. -/
def dirErrCtl_head : Fld := ⟨0x2800108, 0x0, 24, 8, 0, [], false⟩
/-! DIR_ERR_OVF: spec 12_coherence.md. -/
/-- DIR_ERR_OVF.dropped, W1C, bits 31:0. -/
def dirErrOvf_dropped : Fld := ⟨0x2800110, 0x0, 0, 32, 0, [], false⟩
/-! FPT_ERR_BASE: spec 13_fabric_link_layer.md. -/
/-- FPT_ERR_BASE.base, RW, bits 55:0. -/
def fptErrBase_base : Fld := ⟨0xac00000, 0x0, 0, 56, 0, [], false⟩
/-! FPT_ERR_CTL: spec 13_fabric_link_layer.md. -/
/-- FPT_ERR_CTL.log2_entries, RW, bits 3:0. -/
def fptErrCtl_log2_entries : Fld := ⟨0xac00008, 0x0, 0, 4, 8, [], false⟩
/-- FPT_ERR_CTL.tail, RO, bits 23:16. -/
def fptErrCtl_tail : Fld := ⟨0xac00008, 0x0, 16, 8, 0, [], false⟩
/-- FPT_ERR_CTL.head, RW, bits 31:24. -/
def fptErrCtl_head : Fld := ⟨0xac00008, 0x0, 24, 8, 0, [], false⟩
/-! FPT_ERR_OVF: spec 13_fabric_link_layer.md. -/
/-- FPT_ERR_OVF.dropped, W1C, bits 31:0. -/
def fptErrOvf_dropped : Fld := ⟨0xac00010, 0x0, 0, 32, 0, [], false⟩
/-! ROUTER_BLOCK_ID: spec 14_fabric_transport_routing.md. -/
/-- ROUTER_BLOCK_ID.family, RO, bits 31:24. -/
def routerBlockId_family : Fld := ⟨0x9000000, 0x0, 24, 8, 2, [], false⟩
/-- ROUTER_BLOCK_ID.instance, RO, bits 23:16. -/
def routerBlockId_inst : Fld := ⟨0x9000000, 0x0, 16, 8, 0, [], false⟩
/-- ROUTER_BLOCK_ID.block_code, RO, bits 11:0. -/
def routerBlockId_block_code : Fld := ⟨0x9000000, 0x0, 0, 12, 144, [], false⟩
/-! ROUTER_BLOCK_REV: spec 14_fabric_transport_routing.md. -/
/-- ROUTER_BLOCK_REV.stepping, RO, bits 15:8. -/
def routerBlockRev_stepping : Fld := ⟨0x9000004, 0x0, 8, 8, 176, [], false⟩
/-- ROUTER_BLOCK_REV.block_rev, RO, bits 7:0. -/
def routerBlockRev_block_rev : Fld := ⟨0x9000004, 0x0, 0, 8, 2, [], false⟩
/-! ROUTER_CTL: spec 14_fabric_transport_routing.md. -/
/-- ROUTER_CTL.arb_n, RWC, bits 5:0. -/
def routerCtl_arb_n : Fld := ⟨0x9000010, 0x0, 0, 6, 15, [], false⟩
/-- ROUTER_CTL.hop_limit, RW, bits 15:8. -/
def routerCtl_hop_limit : Fld := ⟨0x9000010, 0x0, 8, 8, 0, [], false⟩
/-- ROUTER_CTL.hold_us, RW, bits 31:16. -/
def routerCtl_hold_us : Fld := ⟨0x9000010, 0x0, 16, 16, 100, [], false⟩
/-! ROUTER_COMMIT: spec 14_fabric_transport_routing.md. -/
/-- ROUTER_COMMIT.commit, WO, bits 0:0. -/
def routerCommit_commit : Fld := ⟨0x9000014, 0x0, 0, 1, 0, [], false⟩
/-! ROUTER_EPOCH: spec 14_fabric_transport_routing.md. -/
/-- ROUTER_EPOCH.inject_epoch, RO, bits 0:0. -/
def routerEpoch_inject_epoch : Fld := ⟨0x9000018, 0x0, 0, 1, 0, [], false⟩
/-- ROUTER_EPOCH.half0, RO, bits 2:1. -/
def routerEpoch_half0 : Fld := ⟨0x9000018, 0x0, 1, 2, 1, [], false⟩
/-- ROUTER_EPOCH.half1, RO, bits 4:3. -/
def routerEpoch_half1 : Fld := ⟨0x9000018, 0x0, 3, 2, 0, [], false⟩
/-- ROUTER_EPOCH.tbl_refused, W1C, bits 5:5. -/
def routerEpoch_tbl_refused : Fld := ⟨0x9000018, 0x0, 5, 1, 0, [], false⟩
/-- ROUTER_EPOCH.drain_us, RW, bits 31:16. -/
def routerEpoch_drain_us : Fld := ⟨0x9000018, 0x0, 16, 16, 17000, [], false⟩
/-! ROUTER_TBL_ADDR: spec 14_fabric_transport_routing.md. -/
/-- ROUTER_TBL_ADDR.dest, RW, bits 13:0. -/
def routerTblAddr_dest : Fld := ⟨0x9000020, 0x0, 0, 14, 0, [], false⟩
/-- ROUTER_TBL_ADDR.half, RW, bits 14:14. -/
def routerTblAddr_half : Fld := ⟨0x9000020, 0x0, 14, 1, 0, [], false⟩
/-! ROUTER_TBL_DATA: spec 14_fabric_transport_routing.md. -/
/-- ROUTER_TBL_DATA.entry, RW, bits 31:0. -/
def routerTblData_entry : Fld := ⟨0x9000024, 0x0, 0, 32, 0, [], false⟩
/-! ROUTER_STALE: spec 14_fabric_transport_routing.md. -/
/-- ROUTER_STALE.count, RO, bits 63:0. -/
def routerStale_count : Fld := ⟨0x9000028, 0x0, 0, 64, 0, [], false⟩
/-! NIE_BLOCK_ID: spec 14_fabric_transport_routing.md. -/
/-- NIE_BLOCK_ID.family, RO, bits 31:24. -/
def nieBlockId_family : Fld := ⟨0x8000000, 0x0, 24, 8, 2, [], false⟩
/-- NIE_BLOCK_ID.instance, RO, bits 23:16. -/
def nieBlockId_inst : Fld := ⟨0x8000000, 0x0, 16, 8, 0, [], false⟩
/-- NIE_BLOCK_ID.block_code, RO, bits 11:0. -/
def nieBlockId_block_code : Fld := ⟨0x8000000, 0x0, 0, 12, 128, [], false⟩
/-! NIE_BLOCK_REV: spec 14_fabric_transport_routing.md. -/
/-- NIE_BLOCK_REV.stepping, RO, bits 15:8. -/
def nieBlockRev_stepping : Fld := ⟨0x8000004, 0x0, 8, 8, 176, [], false⟩
/-- NIE_BLOCK_REV.block_rev, RO, bits 7:0. -/
def nieBlockRev_block_rev : Fld := ⟨0x8000004, 0x0, 0, 8, 2, [], false⟩
/-! NIE_CTL: spec 14_fabric_transport_routing.md. -/
/-- NIE_CTL.cto_ms, RW, bits 11:0. -/
def nieCtl_cto_ms : Fld := ⟨0x8000010, 0x0, 0, 12, 50, [], false⟩
/-! NIE_FLOW_BASE: spec 14_fabric_transport_routing.md. -/
/-- NIE_FLOW_BASE.base, RW, bits 55:0. -/
def nieFlowBase_base : Fld := ⟨0x8000018, 0x0, 0, 56, 0, [], false⟩
/-! NIE_FLOW_CMD: spec 14_fabric_transport_routing.md. -/
/-- NIE_FLOW_CMD.flow, RW, bits 15:0. -/
def nieFlowCmd_flow : Fld := ⟨0x8000020, 0x0, 0, 16, 0, [], false⟩
/-- NIE_FLOW_CMD.job, RW, bits 27:16. -/
def nieFlowCmd_job : Fld := ⟨0x8000020, 0x0, 16, 12, 0, [], false⟩
/-- NIE_FLOW_CMD.src_node, RW, bits 41:28. -/
def nieFlowCmd_src_node : Fld := ⟨0x8000020, 0x0, 28, 14, 0, [], false⟩
/-- NIE_FLOW_CMD.op, WO, bits 43:42. -/
def nieFlowCmd_op : Fld := ⟨0x8000020, 0x0, 42, 2, 0, [], false⟩
/-- NIE_FLOW_CMD.result, RO, bits 59:56. -/
def nieFlowCmd_result : Fld := ⟨0x8000020, 0x0, 56, 4, 0, [], false⟩
/-- NIE_FLOW_CMD.busy, RO, bits 63:63. -/
def nieFlowCmd_busy : Fld := ⟨0x8000020, 0x0, 63, 1, 0, [], false⟩
/-! NIE_CNT_BASE: spec 14_fabric_transport_routing.md. -/
/-- NIE_CNT_BASE.base, RW, bits 55:0. -/
def nieCntBase_base : Fld := ⟨0x8000028, 0x0, 0, 56, 0, [], false⟩
/-! NIE_RC_USED: spec 14_fabric_transport_routing.md. -/
/-- NIE_RC_USED.used, RO, bits 14:0. -/
def nieRcUsed_used : Fld := ⟨0x8000030, 0x0, 0, 15, 0, [], false⟩
/-- NIE_RC_USED.refused, W1C, bits 31:16. -/
def nieRcUsed_refused : Fld := ⟨0x8000030, 0x0, 16, 16, 0, [], false⟩
/-! NIE_LATE_RSP: spec 14_fabric_transport_routing.md. -/
/-- NIE_LATE_RSP.count, RO, bits 63:0. -/
def nieLateRsp_count : Fld := ⟨0x8000040, 0x0, 0, 64, 0, [], false⟩
/-! NIE_DUP: spec 14_fabric_transport_routing.md. -/
/-- NIE_DUP.count, RO, bits 63:0. -/
def nieDup_count : Fld := ⟨0x8000048, 0x0, 0, 64, 0, [], false⟩
/-! NIE_SPOOF: spec 14_fabric_transport_routing.md. -/
/-- NIE_SPOOF.count, RO, bits 63:0. -/
def nieSpoof_count : Fld := ⟨0x8000050, 0x0, 0, 64, 0, [], false⟩
/-! ADM_BLOCK_ID: spec 15_admission_and_qos.md. -/
/-- ADM_BLOCK_ID.family, RO, bits 31:24. -/
def admBlockId_family : Fld := ⟨0x1800000, 0x0, 24, 8, 2, [], false⟩
/-- ADM_BLOCK_ID.instance, RO, bits 23:16. -/
def admBlockId_inst : Fld := ⟨0x1800000, 0x0, 16, 8, 0, [], false⟩
/-- ADM_BLOCK_ID.block_code, RO, bits 11:0. -/
def admBlockId_block_code : Fld := ⟨0x1800000, 0x0, 0, 12, 24, [], false⟩
/-! ADM_BLOCK_REV: spec 15_admission_and_qos.md. -/
/-- ADM_BLOCK_REV.stepping, RO, bits 15:8. -/
def admBlockRev_stepping : Fld := ⟨0x1800004, 0x0, 8, 8, 176, [], false⟩
/-- ADM_BLOCK_REV.block_rev, RO, bits 7:0. -/
def admBlockRev_block_rev : Fld := ⟨0x1800004, 0x0, 0, 8, 2, [], false⟩
/-! ADM_CTL: spec 15_admission_and_qos.md. -/
/-- ADM_CTL.enforce, RW, bits 0:0. -/
def admCtl_enforce : Fld := ⟨0x1800010, 0x0, 0, 1, 0, [], false⟩
/-! ADM_HOLD: spec 15_admission_and_qos.md. -/
/-- ADM_HOLD.occupancy, RO, bits 13:0. -/
def admHold_occupancy : Fld := ⟨0x1800014, 0x0, 0, 14, 0, [], false⟩
/-- ADM_HOLD.was_full, W1C, bits 16:16. -/
def admHold_was_full : Fld := ⟨0x1800014, 0x0, 16, 1, 0, [], false⟩
/-! ADM_FATHOM_CTL: spec 15_admission_and_qos.md. -/
/-- ADM_FATHOM_CTL.window_log2, RW, bits 3:0. -/
def admFathomCtl_window_log2 : Fld := ⟨0x1800018, 0x0, 0, 4, 4, [], false⟩
/-- ADM_FATHOM_CTL.u3_pct, RW, bits 7:4. -/
def admFathomCtl_u3_pct : Fld := ⟨0x1800018, 0x0, 4, 4, 1, [], false⟩
/-- ADM_FATHOM_CTL.u2_pct, RW, bits 11:8. -/
def admFathomCtl_u2_pct : Fld := ⟨0x1800018, 0x0, 8, 4, 5, [], false⟩
/-! ADM_FATHOM: spec 15_admission_and_qos.md. -/
/-- ADM_FATHOM.level, RO, bits 3:0. -/
def admFathom_level : Fld := ⟨0x180001c, 0x0, 0, 4, 0, [], false⟩
/-- ADM_FATHOM.mem, RO, bits 7:4. -/
def admFathom_mem : Fld := ⟨0x180001c, 0x0, 4, 4, 0, [], false⟩
/-- ADM_FATHOM.eng, RO, bits 11:8. -/
def admFathom_eng : Fld := ⟨0x180001c, 0x0, 8, 4, 0, [], false⟩
/-- ADM_FATHOM.fab, RO, bits 15:12. -/
def admFathom_fab : Fld := ⟨0x180001c, 0x0, 12, 4, 0, [], false⟩
/-- ADM_FATHOM.adm, RO, bits 19:16. -/
def admFathom_adm : Fld := ⟨0x180001c, 0x0, 16, 4, 0, [], false⟩
/-! ADM_MAP_ADDR: spec 15_admission_and_qos.md. -/
/-- ADM_MAP_ADDR.index, RW, bits 14:0. -/
def admMapAddr_index : Fld := ⟨0x1800020, 0x0, 0, 15, 0, [], false⟩
/-! ADM_MAP_DATA: spec 15_admission_and_qos.md. -/
/-- ADM_MAP_DATA.host, RW, bits 9:0. -/
def admMapData_host : Fld := ⟨0x1800024, 0x0, 0, 10, 0, [], false⟩
/-- ADM_MAP_DATA.valid, RW, bits 15:15. -/
def admMapData_valid : Fld := ⟨0x1800024, 0x0, 15, 1, 0, [], false⟩
/-! ADM_BKT_SEL: spec 15_admission_and_qos.md. -/
/-- ADM_BKT_SEL.bucket, RW, bits 12:0. -/
def admBktSel_bucket : Fld := ⟨0x1800030, 0x0, 0, 13, 0, [], false⟩
/-! ADM_BKT_CMD: spec 15_admission_and_qos.md. -/
/-- ADM_BKT_CMD.op, WO, bits 1:0. -/
def admBktCmd_op : Fld := ⟨0x1800034, 0x0, 0, 2, 0, [], false⟩
/-- ADM_BKT_CMD.result, RO, bits 3:2. -/
def admBktCmd_result : Fld := ⟨0x1800034, 0x0, 2, 2, 0, [], false⟩
/-- ADM_BKT_CMD.busy, RO, bits 31:31. -/
def admBktCmd_busy : Fld := ⟨0x1800034, 0x0, 31, 1, 0, [], false⟩
/-! ADM_BKT_RATE: spec 15_admission_and_qos.md. -/
/-- ADM_BKT_RATE.rate, RW, bits 23:0. -/
def admBktRate_rate : Fld := ⟨0x1800038, 0x0, 0, 24, 0, [], false⟩
/-! ADM_BKT_GUST: spec 15_admission_and_qos.md. -/
/-- ADM_BKT_GUST.gust, RW, bits 19:0. -/
def admBktGust_gust : Fld := ⟨0x180003c, 0x0, 0, 20, 64, [], false⟩
/-! ADM_BKT_CFG: spec 15_admission_and_qos.md. -/
/-- ADM_BKT_CFG.overhead, RW, bits 7:0. -/
def admBktCfg_overhead : Fld := ⟨0x1800040, 0x0, 0, 8, 64, [], false⟩
/-- ADM_BKT_CFG.target_us, RW, bits 23:8. -/
def admBktCfg_target_us : Fld := ⟨0x1800040, 0x0, 8, 16, 20, [], false⟩
/-- ADM_BKT_CFG.limit_us, RW, bits 39:24. -/
def admBktCfg_limit_us : Fld := ⟨0x1800040, 0x0, 24, 16, 200, [], false⟩
/-- ADM_BKT_CFG.reset_mode, RW, bits 40:40. -/
def admBktCfg_reset_mode : Fld := ⟨0x1800040, 0x0, 40, 1, 0, [], false⟩
/-! ADM_BKT_LEVEL: spec 15_admission_and_qos.md. -/
/-- ADM_BKT_LEVEL.level, RO, bits 47:0. -/
def admBktLevel_level : Fld := ⟨0x1800048, 0x0, 0, 48, 0, [], false⟩
/-! ADM_SERVED: spec 15_admission_and_qos.md. -/
/-- ADM_SERVED.count, RO, bits 63:0. -/
def admServed_count : Fld := ⟨0x1800080, 0x0, 0, 64, 0, [], false⟩
/-! ADM_DEFERRED: spec 15_admission_and_qos.md. -/
/-- ADM_DEFERRED.count, RO, bits 63:0. -/
def admDeferred_count : Fld := ⟨0x1800088, 0x0, 0, 64, 0, [], false⟩
/-! ADM_REFUSED: spec 15_admission_and_qos.md. -/
/-- ADM_REFUSED.count, RO, bits 63:0. -/
def admRefused_count : Fld := ⟨0x1800090, 0x0, 0, 64, 0, [], false⟩
/-! HIF_BLOCK_ID: spec 16_host_interface.md. -/
/-- HIF_BLOCK_ID.family, RO, bits 31:24. -/
def hifBlockId_family : Fld := ⟨0x0, 0x0, 24, 8, 2, [], false⟩
/-- HIF_BLOCK_ID.instance, RO, bits 23:16. -/
def hifBlockId_inst : Fld := ⟨0x0, 0x0, 16, 8, 0, [], false⟩
/-- HIF_BLOCK_ID.block_code, RO, bits 11:0. -/
def hifBlockId_block_code : Fld := ⟨0x0, 0x0, 0, 12, 0, [], false⟩
/-! HIF_BLOCK_REV: spec 16_host_interface.md. -/
/-- HIF_BLOCK_REV.stepping, RO, bits 15:8. -/
def hifBlockRev_stepping : Fld := ⟨0x4, 0x0, 8, 8, 176, [], false⟩
/-- HIF_BLOCK_REV.block_rev, RO, bits 7:0. -/
def hifBlockRev_block_rev : Fld := ⟨0x4, 0x0, 0, 8, 2, [], false⟩
/-! HIF_CTL: spec 16_host_interface.md. -/
/-- HIF_CTL.mctp_write_en, RW, bits 0:0. -/
def hifCtl_mctp_write_en : Fld := ⟨0x10, 0x0, 0, 1, 0, [], false⟩
/-! HIF_LINK: spec 16_host_interface.md. -/
/-- HIF_LINK.up, RO, bits 0:0. -/
def hifLink_up : Fld := ⟨0x14, 0x0, 0, 1, 0, [], false⟩
/-- HIF_LINK.speed, RO, bits 3:1. -/
def hifLink_speed : Fld := ⟨0x14, 0x0, 1, 3, 0, [], false⟩
/-- HIF_LINK.width, RO, bits 8:4. -/
def hifLink_width : Fld := ⟨0x14, 0x0, 4, 5, 0, [], false⟩
/-- HIF_LINK.flit, RO, bits 9:9. -/
def hifLink_flit : Fld := ⟨0x14, 0x0, 9, 1, 0, [], false⟩
/-- HIF_LINK.down_count, RO, bits 23:16. -/
def hifLink_down_count : Fld := ⟨0x14, 0x0, 16, 8, 0, [], false⟩
/-! HIF_ACC_ERR: spec 16_host_interface.md. -/
/-- HIF_ACC_ERR.offset, RO, bits 27:0. -/
def hifAccErr_offset : Fld := ⟨0x18, 0x0, 0, 28, 0, [], false⟩
/-- HIF_ACC_ERR.cause, RO, bits 29:28. -/
def hifAccErr_cause : Fld := ⟨0x18, 0x0, 28, 2, 0, [], false⟩
/-- HIF_ACC_ERR.write, RO, bits 30:30. -/
def hifAccErr_write : Fld := ⟨0x18, 0x0, 30, 1, 0, [], false⟩
/-- HIF_ACC_ERR.valid, W1C, bits 63:63. -/
def hifAccErr_valid : Fld := ⟨0x18, 0x0, 63, 1, 0, [], false⟩
/-! HIF_ERR_BASE: spec 16_host_interface.md. -/
/-- HIF_ERR_BASE.base, RW, bits 55:0. -/
def hifErrBase_base : Fld := ⟨0x100, 0x0, 0, 56, 0, [], false⟩
/-! HIF_ERR_CTL: spec 16_host_interface.md. -/
/-- HIF_ERR_CTL.log2_entries, RW, bits 3:0. -/
def hifErrCtl_log2_entries : Fld := ⟨0x108, 0x0, 0, 4, 8, [], false⟩
/-- HIF_ERR_CTL.tail, RO, bits 23:16. -/
def hifErrCtl_tail : Fld := ⟨0x108, 0x0, 16, 8, 0, [], false⟩
/-- HIF_ERR_CTL.head, RW, bits 31:24. -/
def hifErrCtl_head : Fld := ⟨0x108, 0x0, 24, 8, 0, [], false⟩
/-! HIF_ERR_OVF: spec 16_host_interface.md. -/
/-- HIF_ERR_OVF.dropped, W1C, bits 31:0. -/
def hifErrOvf_dropped : Fld := ⟨0x110, 0x0, 0, 32, 0, [], false⟩
/-! HIF_MBX_CTL: spec 16_host_interface.md. -/
/-- HIF_MBX_CTL.rsp_vector, RW, bits 5:0. -/
def hifMbxCtl_rsp_vector : Fld := ⟨0x200, 0x0, 0, 6, 0, [], false⟩
/-- HIF_MBX_CTL.rsp_irq_en, RW, bits 6:6. -/
def hifMbxCtl_rsp_irq_en : Fld := ⟨0x200, 0x0, 6, 1, 0, [], false⟩
/-! HIF_MBX_STATUS: spec 16_host_interface.md. -/
/-- HIF_MBX_STATUS.queued, RO, bits 8:0. -/
def hifMbxStatus_queued : Fld := ⟨0x204, 0x0, 0, 9, 0, [], false⟩
/-- HIF_MBX_STATUS.rsp_count, RO, bits 21:16. -/
def hifMbxStatus_rsp_count : Fld := ⟨0x204, 0x0, 16, 6, 0, [], false⟩
/-- HIF_MBX_STATUS.claim_held, RO, bits 22:22. -/
def hifMbxStatus_claim_held : Fld := ⟨0x204, 0x0, 22, 1, 0, [], false⟩
/-! HIF_MBX_SUBMIT: spec 16_host_interface.md. -/
/-- HIF_MBX_SUBMIT.go, WO, bits 0:0. -/
def hifMbxSubmit_go : Fld := ⟨0x208, 0x0, 0, 1, 0, [], false⟩
/-- HIF_MBX_SUBMIT.result, RO, bits 2:1. -/
def hifMbxSubmit_result : Fld := ⟨0x208, 0x0, 1, 2, 0, [], false⟩
/-! HIF_MBX_POP: spec 16_host_interface.md. -/
/-- HIF_MBX_POP.pop, WO, bits 0:0. -/
def hifMbxPop_pop : Fld := ⟨0x20c, 0x0, 0, 1, 0, [], false⟩
/-! SEC_BLOCK_ID: spec 17_security.md. -/
/-- SEC_BLOCK_ID.family, RO, bits 31:24. -/
def secBlockId_family : Fld := ⟨0x400000, 0x0, 24, 8, 2, [], false⟩
/-- SEC_BLOCK_ID.instance, RO, bits 23:16. -/
def secBlockId_inst : Fld := ⟨0x400000, 0x0, 16, 8, 0, [], false⟩
/-- SEC_BLOCK_ID.block_code, RO, bits 11:0. -/
def secBlockId_block_code : Fld := ⟨0x400000, 0x0, 0, 12, 4, [], false⟩
/-! SEC_BLOCK_REV: spec 17_security.md. -/
/-- SEC_BLOCK_REV.stepping, RO, bits 15:8. -/
def secBlockRev_stepping : Fld := ⟨0x400004, 0x0, 8, 8, 176, [], false⟩
/-- SEC_BLOCK_REV.block_rev, RO, bits 7:0. -/
def secBlockRev_block_rev : Fld := ⟨0x400004, 0x0, 0, 8, 2, [], false⟩
/-! SEC_STATUS: spec 17_security.md. -/
/-- SEC_STATUS.rot_state, RO, bits 1:0. -/
def secStatus_rot_state : Fld := ⟨0x400010, 0x0, 0, 2, 0, [], false⟩
/-- SEC_STATUS.fuse_lock, RO, bits 2:2. -/
def secStatus_fuse_lock : Fld := ⟨0x400010, 0x0, 2, 1, 0, [], false⟩
/-- SEC_STATUS.debug_granted, RO, bits 3:3. -/
def secStatus_debug_granted : Fld := ⟨0x400010, 0x0, 3, 1, 0, [], false⟩
/-- SEC_STATUS.trng_ok, RO, bits 4:4. -/
def secStatus_trng_ok : Fld := ⟨0x400010, 0x0, 4, 1, 0, [], false⟩
/-- SEC_STATUS.session_ok, RO, bits 5:5. -/
def secStatus_session_ok : Fld := ⟨0x400010, 0x0, 5, 1, 0, [], false⟩
/-- SEC_STATUS.identity_ready, RO, bits 6:6. -/
def secStatus_identity_ready : Fld := ⟨0x400010, 0x0, 6, 1, 0, [], false⟩
/-- SEC_STATUS.fleet_valid, RO, bits 7:7. -/
def secStatus_fleet_valid : Fld := ⟨0x400010, 0x0, 7, 1, 0, [], false⟩
/-- SEC_STATUS.verify_cause, RO, bits 10:8. -/
def secStatus_verify_cause : Fld := ⟨0x400010, 0x0, 8, 3, 0, [], false⟩
/-! SEC_CTL: spec 17_security.md. -/
/-- SEC_CTL.mem_enc_en, RW, bits 0:0. -/
def secCtl_mem_enc_en : Fld := ⟨0x400014, 0x0, 0, 1, 0, [], false⟩
/-- SEC_CTL.mem_class, RW, bits 1:1. -/
def secCtl_mem_class : Fld := ⟨0x400014, 0x0, 1, 1, 0, [], false⟩
/-- SEC_CTL.dev_class, RW, bits 2:2. -/
def secCtl_dev_class : Fld := ⟨0x400014, 0x0, 2, 1, 0, [], false⟩
/-- SEC_CTL.link_class, RW, bits 3:3. -/
def secCtl_link_class : Fld := ⟨0x400014, 0x0, 3, 1, 0, [], false⟩
/-! SEC_XMSS: spec 17_security.md. -/
/-- SEC_XMSS.next_index, RO, bits 39:0. -/
def secXmss_next_index : Fld := ⟨0x400018, 0x0, 0, 40, 0, [], false⟩
/-- SEC_XMSS.floor_window, RO, bits 59:48. -/
def secXmss_floor_window : Fld := ⟨0x400018, 0x0, 48, 12, 0, [], false⟩
/-! SEC_LINK_CTL: spec 17_security.md. -/
/-- SEC_LINK_CTL.rekey_ms, RW, bits 15:0. -/
def secLinkCtl_rekey_ms : Fld := ⟨0x400020, 0x0, 0, 16, 1000, [], false⟩
/-! SEC_KCMD: spec 17_security.md. -/
/-- SEC_KCMD.op, WO, bits 3:0. -/
def secKcmd_op : Fld := ⟨0x400040, 0x0, 0, 4, 0, [], false⟩
/-- SEC_KCMD.tenant, RW, bits 19:8. -/
def secKcmd_tenant : Fld := ⟨0x400040, 0x0, 8, 12, 0, [], false⟩
/-- SEC_KCMD.port, RW, bits 23:20. -/
def secKcmd_port : Fld := ⟨0x400040, 0x0, 20, 4, 0, [], false⟩
/-- SEC_KCMD.tag, RW, bits 55:32. -/
def secKcmd_tag : Fld := ⟨0x400040, 0x0, 32, 24, 0, [], false⟩
/-- SEC_KCMD.result, RO, bits 59:56. -/
def secKcmd_result : Fld := ⟨0x400040, 0x0, 56, 4, 0, [], false⟩
/-- SEC_KCMD.busy, RO, bits 63:63. -/
def secKcmd_busy : Fld := ⟨0x400040, 0x0, 63, 1, 0, [], false⟩
/-! SEC_KCMD_ARG0: spec 17_security.md. -/
/-- SEC_KCMD_ARG0.offset, RW, bits 41:0. -/
def secKcmdArg0_offset : Fld := ⟨0x400048, 0x0, 0, 42, 0, [], false⟩
/-! SEC_KCMD_ARG1: spec 17_security.md. -/
/-- SEC_KCMD_ARG1.ells, RW, bits 31:0. -/
def secKcmdArg1_ells : Fld := ⟨0x400050, 0x0, 0, 32, 0, [], false⟩
/-! SEC_CCQ_BASE: spec 17_security.md. -/
/-- SEC_CCQ_BASE.base, RW, bits 55:0. -/
def secCcqBase_base : Fld := ⟨0x400060, 0x0, 0, 56, 0, [], false⟩
/-! SEC_CCQ_CTL: spec 17_security.md. -/
/-- SEC_CCQ_CTL.log2_entries, RW, bits 3:0. -/
def secCcqCtl_log2_entries : Fld := ⟨0x400068, 0x0, 0, 4, 8, [], false⟩
/-- SEC_CCQ_CTL.tail, RO, bits 23:16. -/
def secCcqCtl_tail : Fld := ⟨0x400068, 0x0, 16, 8, 0, [], false⟩
/-- SEC_CCQ_CTL.head, RW, bits 31:24. -/
def secCcqCtl_head : Fld := ⟨0x400068, 0x0, 24, 8, 0, [], false⟩
/-! SEC_ERR_BASE: spec 17_security.md. -/
/-- SEC_ERR_BASE.base, RW, bits 55:0. -/
def secErrBase_base : Fld := ⟨0x400100, 0x0, 0, 56, 0, [], false⟩
/-! SEC_ERR_CTL: spec 17_security.md. -/
/-- SEC_ERR_CTL.log2_entries, RW, bits 3:0. -/
def secErrCtl_log2_entries : Fld := ⟨0x400108, 0x0, 0, 4, 8, [], false⟩
/-- SEC_ERR_CTL.tail, RO, bits 23:16. -/
def secErrCtl_tail : Fld := ⟨0x400108, 0x0, 16, 8, 0, [], false⟩
/-- SEC_ERR_CTL.head, RW, bits 31:24. -/
def secErrCtl_head : Fld := ⟨0x400108, 0x0, 24, 8, 0, [], false⟩
/-! SEC_ERR_OVF: spec 17_security.md. -/
/-- SEC_ERR_OVF.dropped, W1C, bits 31:0. -/
def secErrOvf_dropped : Fld := ⟨0x400110, 0x0, 0, 32, 0, [], false⟩
/-! MGT_BLOCK_ID: spec 18_management_and_failover.md. -/
/-- MGT_BLOCK_ID.family, RO, bits 31:24. -/
def mgtBlockId_family : Fld := ⟨0x300000, 0x0, 24, 8, 2, [], false⟩
/-- MGT_BLOCK_ID.instance, RO, bits 23:16. -/
def mgtBlockId_inst : Fld := ⟨0x300000, 0x0, 16, 8, 0, [], false⟩
/-- MGT_BLOCK_ID.block_code, RO, bits 11:0. -/
def mgtBlockId_block_code : Fld := ⟨0x300000, 0x0, 0, 12, 3, [], false⟩
/-! MGT_BLOCK_REV: spec 18_management_and_failover.md. -/
/-- MGT_BLOCK_REV.stepping, RO, bits 15:8. -/
def mgtBlockRev_stepping : Fld := ⟨0x300004, 0x0, 8, 8, 176, [], false⟩
/-- MGT_BLOCK_REV.block_rev, RO, bits 7:0. -/
def mgtBlockRev_block_rev : Fld := ⟨0x300004, 0x0, 0, 8, 2, [], false⟩
/-! MGT_A_STATUS: spec 18_management_and_failover.md. -/
/-- MGT_A_STATUS.state, RO, bits 2:0. -/
def mgtAStatus_state : Fld := ⟨0x300010, 0x0, 0, 3, 0, [], false⟩
/-- MGT_A_STATUS.new_image, RO, bits 3:3. -/
def mgtAStatus_new_image : Fld := ⟨0x300010, 0x0, 3, 1, 0, [], false⟩
/-- MGT_A_STATUS.diag_cause, RO, bits 11:4. -/
def mgtAStatus_diag_cause : Fld := ⟨0x300010, 0x0, 4, 8, 0, [], false⟩
/-- MGT_A_STATUS.fails, RO, bits 15:12. -/
def mgtAStatus_fails : Fld := ⟨0x300010, 0x0, 12, 4, 0, [], false⟩
/-- MGT_A_STATUS.gated, RO, bits 31:24. -/
def mgtAStatus_gated : Fld := ⟨0x300010, 0x0, 24, 8, 0, [], false⟩
/-! MGT_B_STATUS: spec 18_management_and_failover.md. -/
/-- MGT_B_STATUS.state, RO, bits 2:0. -/
def mgtBStatus_state : Fld := ⟨0x300018, 0x0, 0, 3, 0, [], false⟩
/-- MGT_B_STATUS.new_image, RO, bits 3:3. -/
def mgtBStatus_new_image : Fld := ⟨0x300018, 0x0, 3, 1, 0, [], false⟩
/-- MGT_B_STATUS.diag_cause, RO, bits 11:4. -/
def mgtBStatus_diag_cause : Fld := ⟨0x300018, 0x0, 4, 8, 0, [], false⟩
/-- MGT_B_STATUS.fails, RO, bits 15:12. -/
def mgtBStatus_fails : Fld := ⟨0x300018, 0x0, 12, 4, 0, [], false⟩
/-- MGT_B_STATUS.gated, RO, bits 31:24. -/
def mgtBStatus_gated : Fld := ⟨0x300018, 0x0, 24, 8, 0, [], false⟩
/-! MGT_A_CTL: spec 18_management_and_failover.md. -/
/-- MGT_A_CTL.reset, W1S, bits 0:0. -/
def mgtACtl_reset : Fld := ⟨0x300020, 0x0, 0, 1, 0, [], false⟩
/-- MGT_A_CTL.boot_staged, RW, bits 1:1. -/
def mgtACtl_boot_staged : Fld := ⟨0x300020, 0x0, 1, 1, 0, [], false⟩
/-! MGT_B_CTL: spec 18_management_and_failover.md. -/
/-- MGT_B_CTL.reset, W1S, bits 0:0. -/
def mgtBCtl_reset : Fld := ⟨0x300028, 0x0, 0, 1, 0, [], false⟩
/-- MGT_B_CTL.boot_staged, RW, bits 1:1. -/
def mgtBCtl_boot_staged : Fld := ⟨0x300028, 0x0, 1, 1, 0, [], false⟩
/-! MGT_HANDOFF_BASE: spec 18_management_and_failover.md. -/
/-- MGT_HANDOFF_BASE.base, RW, bits 55:0. -/
def mgtHandoffBase_base : Fld := ⟨0x300030, 0x0, 0, 56, 0, [], false⟩
/-! MGT_ERR_BASE: spec 18_management_and_failover.md. -/
/-- MGT_ERR_BASE.base, RW, bits 55:0. -/
def mgtErrBase_base : Fld := ⟨0x300100, 0x0, 0, 56, 0, [], false⟩
/-! MGT_ERR_CTL: spec 18_management_and_failover.md. -/
/-- MGT_ERR_CTL.log2_entries, RW, bits 3:0. -/
def mgtErrCtl_log2_entries : Fld := ⟨0x300108, 0x0, 0, 4, 8, [], false⟩
/-- MGT_ERR_CTL.tail, RO, bits 23:16. -/
def mgtErrCtl_tail : Fld := ⟨0x300108, 0x0, 16, 8, 0, [], false⟩
/-- MGT_ERR_CTL.head, RW, bits 31:24. -/
def mgtErrCtl_head : Fld := ⟨0x300108, 0x0, 24, 8, 0, [], false⟩
/-! MGT_ERR_OVF: spec 18_management_and_failover.md. -/
/-- MGT_ERR_OVF.dropped, W1C, bits 31:0. -/
def mgtErrOvf_dropped : Fld := ⟨0x300110, 0x0, 0, 32, 0, [], false⟩
/-! PWR_BLOCK_ID: spec 18_management_and_failover.md. -/
/-- PWR_BLOCK_ID.family, RO, bits 31:24. -/
def pwrBlockId_family : Fld := ⟨0x200000, 0x0, 24, 8, 2, [], false⟩
/-- PWR_BLOCK_ID.instance, RO, bits 23:16. -/
def pwrBlockId_inst : Fld := ⟨0x200000, 0x0, 16, 8, 0, [], false⟩
/-- PWR_BLOCK_ID.block_code, RO, bits 11:0. -/
def pwrBlockId_block_code : Fld := ⟨0x200000, 0x0, 0, 12, 2, [], false⟩
/-! PWR_BLOCK_REV: spec 18_management_and_failover.md. -/
/-- PWR_BLOCK_REV.stepping, RO, bits 15:8. -/
def pwrBlockRev_stepping : Fld := ⟨0x200004, 0x0, 8, 8, 176, [], false⟩
/-- PWR_BLOCK_REV.block_rev, RO, bits 7:0. -/
def pwrBlockRev_block_rev : Fld := ⟨0x200004, 0x0, 0, 8, 2, [], false⟩
/-! PWR_CLAIM: spec 18_management_and_failover.md. -/
/-- PWR_CLAIM.claim_a, RO, bits 7:0. -/
def pwrClaim_claim_a : Fld := ⟨0x200010, 0x0, 0, 8, 0, [], false⟩
/-- PWR_CLAIM.claim_b, RO, bits 15:8. -/
def pwrClaim_claim_b : Fld := ⟨0x200010, 0x0, 8, 8, 0, [], false⟩
/-- PWR_CLAIM.winner, RO, bits 17:16. -/
def pwrClaim_winner : Fld := ⟨0x200010, 0x0, 16, 2, 0, [], false⟩
/-- PWR_CLAIM.doldrums, RO, bits 18:18. -/
def pwrClaim_doldrums : Fld := ⟨0x200010, 0x0, 18, 1, 1, [], false⟩
/-- PWR_CLAIM.a_displaced, W1C, bits 19:19. -/
def pwrClaim_a_displaced : Fld := ⟨0x200010, 0x0, 19, 1, 0, [], false⟩
/-- PWR_CLAIM.b_displaced, W1C, bits 20:20. -/
def pwrClaim_b_displaced : Fld := ⟨0x200010, 0x0, 20, 1, 0, [], false⟩
/-! PWR_CLAIM_CFG: spec 18_management_and_failover.md. -/
/-- PWR_CLAIM_CFG.level_a, RO, bits 6:0. -/
def pwrClaimCfg_level_a : Fld := ⟨0x200014, 0x0, 0, 7, 0, [], false⟩
/-- PWR_CLAIM_CFG.level_b, RO, bits 14:8. -/
def pwrClaimCfg_level_b : Fld := ⟨0x200014, 0x0, 8, 7, 0, [], false⟩
/-! PWR_CLAIM_A: spec 18_management_and_failover.md. -/
/-- PWR_CLAIM_A.present, RW, bits 0:0. -/
def pwrClaimA_present : Fld := ⟨0x200018, 0x0, 0, 1, 0, [], false⟩
/-! PWR_CLAIM_B: spec 18_management_and_failover.md. -/
/-- PWR_CLAIM_B.present, RW, bits 0:0. -/
def pwrClaimB_present : Fld := ⟨0x20001c, 0x0, 0, 1, 0, [], false⟩
/-! PWR_HB: spec 18_management_and_failover.md. -/
/-- PWR_HB.beat, WO, bits 3:0. -/
def pwrHb_beat : Fld := ⟨0x200020, 0x0, 0, 4, 0, [], false⟩
/-! PWR_WDOG_CTL: spec 18_management_and_failover.md. -/
/-- PWR_WDOG_CTL.timeout, RW, bits 5:0. -/
def pwrWdogCtl_timeout : Fld := ⟨0x200024, 0x0, 0, 6, 10, [], false⟩
/-- PWR_WDOG_CTL.alert_ms, RW, bits 23:16. -/
def pwrWdogCtl_alert_ms : Fld := ⟨0x200024, 0x0, 16, 8, 10, [], false⟩
/-! PWR_DVFS: spec 18_management_and_failover.md. -/
/-- PWR_DVFS.target, RW, bits 2:0. -/
def pwrDvfs_target : Fld := ⟨0x200030, 0x0, 0, 3, 4, [], false⟩
/-- PWR_DVFS.current, RO, bits 5:3. -/
def pwrDvfs_current : Fld := ⟨0x200030, 0x0, 3, 3, 4, [], false⟩
/-- PWR_DVFS.changing, RO, bits 6:6. -/
def pwrDvfs_changing : Fld := ⟨0x200030, 0x0, 6, 1, 0, [], false⟩
/-- PWR_DVFS.hw_limited, RO, bits 7:7. -/
def pwrDvfs_hw_limited : Fld := ⟨0x200030, 0x0, 7, 1, 0, [], false⟩
/-! PWR_LIMITS: spec 18_management_and_failover.md. -/
/-- PWR_LIMITS.power_cap_w, RW, bits 10:0. -/
def pwrLimits_power_cap_w : Fld := ⟨0x200038, 0x0, 0, 11, 1050, [], false⟩
/-- PWR_LIMITS.icc_limit_a, RW, bits 20:11. -/
def pwrLimits_icc_limit_a : Fld := ⟨0x200038, 0x0, 11, 10, 640, [], false⟩
/-- PWR_LIMITS.throttle_c, RW, bits 27:21. -/
def pwrLimits_throttle_c : Fld := ⟨0x200038, 0x0, 21, 7, 95, [], false⟩
/-! PWR_PKG: spec 18_management_and_failover.md. -/
/-- PWR_PKG.power, RO, bits 15:0. -/
def pwrPkg_power : Fld := ⟨0x200040, 0x0, 0, 16, 0, [], false⟩
/-- PWR_PKG.icc, RO, bits 31:16. -/
def pwrPkg_icc : Fld := ⟨0x200040, 0x0, 16, 16, 0, [], false⟩
/-! PWR_TEMP: spec 18_management_and_failover.md. -/
/-- PWR_TEMP.temp, RO, bits 9:0. -/
def pwrTemp_temp : Fld := ⟨0x200048, 0x0, 0, 10, 0, [], false⟩
/-- PWR_TEMP.die, RO, bits 10:10. -/
def pwrTemp_die : Fld := ⟨0x200048, 0x0, 10, 1, 0, [], false⟩
/-! PWR_PD_CMD: spec 18_management_and_failover.md. -/
/-- PWR_PD_CMD.domain, RW, bits 6:0. -/
def pwrPdCmd_domain : Fld := ⟨0x200050, 0x0, 0, 7, 0, [], false⟩
/-- PWR_PD_CMD.on, RW, bits 7:7. -/
def pwrPdCmd_isOn : Fld := ⟨0x200050, 0x0, 7, 1, 0, [], false⟩
/-- PWR_PD_CMD.go, WO, bits 8:8. -/
def pwrPdCmd_go : Fld := ⟨0x200050, 0x0, 8, 1, 0, [], false⟩
/-- PWR_PD_CMD.result, RO, bits 10:9. -/
def pwrPdCmd_result : Fld := ⟨0x200050, 0x0, 9, 2, 0, [], false⟩
/-- PWR_PD_CMD.busy, RO, bits 31:31. -/
def pwrPdCmd_busy : Fld := ⟨0x200050, 0x0, 31, 1, 0, [], false⟩
/-! PWR_PD_STATE_0: spec 18_management_and_failover.md. -/
/-- PWR_PD_STATE_0.on, RO, bits 63:0. -/
def pwrPdState0_isOn : Fld := ⟨0x200058, 0x0, 0, 64, 0, [], false⟩
/-! PWR_PD_STATE_1: spec 18_management_and_failover.md. -/
/-- PWR_PD_STATE_1.on, RO, bits 7:0. -/
def pwrPdState1_isOn : Fld := ⟨0x200060, 0x0, 0, 8, 0, [], false⟩
/-! PWR_THROTTLE: spec 18_management_and_failover.md. -/
/-- PWR_THROTTLE.count, RO, bits 63:0. -/
def pwrThrottle_count : Fld := ⟨0x200068, 0x0, 0, 64, 0, [], false⟩
/-! CFG_BLOCK_ID: spec 19_startup_and_configuration.md. -/
/-- CFG_BLOCK_ID.family, RO, bits 31:24. -/
def cfgBlockId_family : Fld := ⟨0x100000, 0x0, 24, 8, 2, [], false⟩
/-- CFG_BLOCK_ID.instance, RO, bits 23:16. -/
def cfgBlockId_inst : Fld := ⟨0x100000, 0x0, 16, 8, 0, [], false⟩
/-- CFG_BLOCK_ID.block_code, RO, bits 11:0. -/
def cfgBlockId_block_code : Fld := ⟨0x100000, 0x0, 0, 12, 1, [], false⟩
/-! CFG_BLOCK_REV: spec 19_startup_and_configuration.md. -/
/-- CFG_BLOCK_REV.stepping, RO, bits 15:8. -/
def cfgBlockRev_stepping : Fld := ⟨0x100004, 0x0, 8, 8, 176, [], false⟩
/-- CFG_BLOCK_REV.block_rev, RO, bits 7:0. -/
def cfgBlockRev_block_rev : Fld := ⟨0x100004, 0x0, 0, 8, 2, [], false⟩
/-! CFG_STATUS: spec 19_startup_and_configuration.md. -/
/-- CFG_STATUS.phase, RO, bits 2:0. -/
def cfgStatus_phase : Fld := ⟨0x100010, 0x0, 0, 3, 0, [], false⟩
/-- CFG_STATUS.image_state, RO, bits 4:3. -/
def cfgStatus_image_state : Fld := ⟨0x100010, 0x0, 3, 2, 0, [], false⟩
/-- CFG_STATUS.rot_slot, RO, bits 5:5. -/
def cfgStatus_rot_slot : Fld := ⟨0x100010, 0x0, 5, 1, 0, [], false⟩
/-- CFG_STATUS.rot_fallback, RO, bits 6:6. -/
def cfgStatus_rot_fallback : Fld := ⟨0x100010, 0x0, 6, 1, 0, [], false⟩
/-- CFG_STATUS.mgt_slot, RO, bits 7:7. -/
def cfgStatus_mgt_slot : Fld := ⟨0x100010, 0x0, 7, 1, 0, [], false⟩
/-- CFG_STATUS.mgt_fallback, RO, bits 8:8. -/
def cfgStatus_mgt_fallback : Fld := ⟨0x100010, 0x0, 8, 1, 0, [], false⟩
/-- CFG_STATUS.cfg_slot, RO, bits 9:9. -/
def cfgStatus_cfg_slot : Fld := ⟨0x100010, 0x0, 9, 1, 0, [], false⟩
/-- CFG_STATUS.committed, RO, bits 10:10. -/
def cfgStatus_committed : Fld := ⟨0x100010, 0x0, 10, 1, 0, [], false⟩
/-- CFG_STATUS.failed_stacks, RO, bits 23:12. -/
def cfgStatus_failed_stacks : Fld := ⟨0x100010, 0x0, 12, 12, 0, [], false⟩
/-! CFG_FEAT_CTL: spec 19_startup_and_configuration.md. -/
/-- CFG_FEAT_CTL.commit, WO, bits 0:0. -/
def cfgFeatCtl_commit : Fld := ⟨0x100060, 0x0, 0, 1, 0, [], false⟩
/-- CFG_FEAT_CTL.result, RO, bits 2:1. -/
def cfgFeatCtl_result : Fld := ⟨0x100060, 0x0, 1, 2, 0, [], false⟩
/-! CFG_RPT_ADDR: spec 19_startup_and_configuration.md. -/
/-- CFG_RPT_ADDR.word, RW, bits 11:0. -/
def cfgRptAddr_word : Fld := ⟨0x100080, 0x0, 0, 12, 0, [], false⟩
/-! CFG_RPT_DATA: spec 19_startup_and_configuration.md. -/
/-- CFG_RPT_DATA.data, RO, bits 63:0. -/
def cfgRptData_data : Fld := ⟨0x100088, 0x0, 0, 64, 0, [], false⟩
/-! TEL_BLOCK_ID: spec 20_telemetry.md. -/
/-- TEL_BLOCK_ID.family, RO, bits 31:24. -/
def telBlockId_family : Fld := ⟨0x500000, 0x0, 24, 8, 2, [], false⟩
/-- TEL_BLOCK_ID.instance, RO, bits 23:16. -/
def telBlockId_inst : Fld := ⟨0x500000, 0x0, 16, 8, 0, [], false⟩
/-- TEL_BLOCK_ID.block_code, RO, bits 11:0. -/
def telBlockId_block_code : Fld := ⟨0x500000, 0x0, 0, 12, 5, [], false⟩
/-! TEL_BLOCK_REV: spec 20_telemetry.md. -/
/-- TEL_BLOCK_REV.stepping, RO, bits 15:8. -/
def telBlockRev_stepping : Fld := ⟨0x500004, 0x0, 8, 8, 176, [], false⟩
/-- TEL_BLOCK_REV.block_rev, RO, bits 7:0. -/
def telBlockRev_block_rev : Fld := ⟨0x500004, 0x0, 0, 8, 2, [], false⟩
/-! TEL_COMMIT: spec 20_telemetry.md. -/
/-- TEL_COMMIT.commit, WO, bits 0:0. -/
def telCommit_commit : Fld := ⟨0x500014, 0x0, 0, 1, 0, [], false⟩
/-! TEL_DUMP_BASE: spec 20_telemetry.md. -/
/-- TEL_DUMP_BASE.base, RW, bits 63:0. -/
def telDumpBase_base : Fld := ⟨0x500020, 0x0, 0, 64, 0, [], false⟩
/-! TEL_DUMP_CTL: spec 20_telemetry.md. -/
/-- TEL_DUMP_CTL.en, RW, bits 0:0. -/
def telDumpCtl_en : Fld := ⟨0x500028, 0x0, 0, 1, 0, [], false⟩
/-- TEL_DUMP_CTL.host, RW, bits 1:1. -/
def telDumpCtl_host : Fld := ⟨0x500028, 0x0, 1, 1, 0, [], false⟩
/-- TEL_DUMP_CTL.slot_log2, RW, bits 6:2. -/
def telDumpCtl_slot_log2 : Fld := ⟨0x500028, 0x0, 2, 5, 12, [], false⟩
/-- TEL_DUMP_CTL.log2_slots, RW, bits 10:7. -/
def telDumpCtl_log2_slots : Fld := ⟨0x500028, 0x0, 7, 4, 8, [], false⟩
/-- TEL_DUMP_CTL.period_us, RW, bits 31:16. -/
def telDumpCtl_period_us : Fld := ⟨0x500028, 0x0, 16, 16, 1000, [], false⟩
/-! TEL_DUMP_PTR: spec 20_telemetry.md. -/
/-- TEL_DUMP_PTR.tail, RO, bits 15:0. -/
def telDumpPtr_tail : Fld := ⟨0x50002c, 0x0, 0, 16, 0, [], false⟩
/-- TEL_DUMP_PTR.head, RW, bits 31:16. -/
def telDumpPtr_head : Fld := ⟨0x50002c, 0x0, 16, 16, 0, [], false⟩
/-! TEL_DUMP_OVF: spec 20_telemetry.md. -/
/-- TEL_DUMP_OVF.count, W1C, bits 31:0. -/
def telDumpOvf_count : Fld := ⟨0x500030, 0x0, 0, 32, 0, [], false⟩
/-! TEL_SAMP_BASE: spec 20_telemetry.md. -/
/-- TEL_SAMP_BASE.base, RW, bits 55:0. -/
def telSampBase_base : Fld := ⟨0x500040, 0x0, 0, 56, 0, [], false⟩
/-! TEL_SAMP_CTL: spec 20_telemetry.md. -/
/-- TEL_SAMP_CTL.en, RW, bits 0:0. -/
def telSampCtl_en : Fld := ⟨0x500048, 0x0, 0, 1, 0, [], false⟩
/-- TEL_SAMP_CTL.k, RW, bits 5:1. -/
def telSampCtl_k : Fld := ⟨0x500048, 0x0, 1, 5, 16, [], false⟩
/-- TEL_SAMP_CTL.filter, RW, bits 9:6. -/
def telSampCtl_filter : Fld := ⟨0x500048, 0x0, 6, 4, 0, [], false⟩
/-- TEL_SAMP_CTL.log2_entries, RW, bits 13:10. -/
def telSampCtl_log2_entries : Fld := ⟨0x500048, 0x0, 10, 4, 8, [], false⟩
/-! TEL_SAMP_PTR: spec 20_telemetry.md. -/
/-- TEL_SAMP_PTR.tail, RO, bits 15:0. -/
def telSampPtr_tail : Fld := ⟨0x50004c, 0x0, 0, 16, 0, [], false⟩
/-- TEL_SAMP_PTR.head, RW, bits 31:16. -/
def telSampPtr_head : Fld := ⟨0x50004c, 0x0, 16, 16, 0, [], false⟩
/-! TEL_SAMP_OVF: spec 20_telemetry.md. -/
/-- TEL_SAMP_OVF.count, W1C, bits 31:0. -/
def telSampOvf_count : Fld := ⟨0x500050, 0x0, 0, 32, 0, [], false⟩
/-! TEL_SAMP_SKIP: spec 20_telemetry.md. -/
/-- TEL_SAMP_SKIP.count, W1C, bits 31:0. -/
def telSampSkip_count : Fld := ⟨0x500054, 0x0, 0, 32, 0, [], false⟩
/-! QMG_QSTAGE_n: spec 03_queues_and_commands.md. -/
/-- QMG_QSTAGE_n.data, RW, bits 63:0. -/
def qmgQstage_data : Fld := ⟨0x1000040, 0x8, 0, 64, 0, [], false⟩
/-! QMG_DBPAGE_p: spec 03_queues_and_commands.md. -/
/-- QMG_DBPAGE_p.owner, RW, bits 1:0. -/
def qmgDbpage_owner : Fld := ⟨0x1001000, 0x8, 0, 2, 0, [], false⟩
/-- QMG_DBPAGE_p.vf, RW, bits 7:2. -/
def qmgDbpage_vf : Fld := ⟨0x1001000, 0x8, 2, 6, 0, [], false⟩
/-- QMG_DBPAGE_p.window_slot, RW, bits 11:8. -/
def qmgDbpage_window_slot : Fld := ⟨0x1001000, 0x8, 8, 4, 0, [], false⟩
/-- QMG_DBPAGE_p.tenant, RW, bits 27:16. -/
def qmgDbpage_tenant : Fld := ⟨0x1001000, 0x8, 16, 12, 0, [], false⟩
/-! NME_n_BLOCK_ID: spec 04_near_memory_engines.md. -/
/-- NME_n_BLOCK_ID.family, RO, bits 31:24. -/
def nmeBlockId_family : Fld := ⟨0x3000000, 0x10000, 24, 8, 2, [], false⟩
/-- NME_n_BLOCK_ID.instance, RO, bits 23:16. -/
def nmeBlockId_inst : Fld := ⟨0x3000000, 0x10000, 16, 8, 0, [], true⟩
/-- NME_n_BLOCK_ID.block_code, RO, bits 11:0. -/
def nmeBlockId_block_code : Fld := ⟨0x3000000, 0x10000, 0, 12, 48, [], false⟩
/-! NME_n_BLOCK_REV: spec 04_near_memory_engines.md. -/
/-- NME_n_BLOCK_REV.stepping, RO, bits 15:8. -/
def nmeBlockRev_stepping : Fld := ⟨0x3000004, 0x10000, 8, 8, 176, [], false⟩
/-- NME_n_BLOCK_REV.block_rev, RO, bits 7:0. -/
def nmeBlockRev_block_rev : Fld := ⟨0x3000004, 0x10000, 0, 8, 3, [], false⟩
/-! NME_n_STATUS: spec 04_near_memory_engines.md. -/
/-- NME_n_STATUS.state, RO, bits 1:0. -/
def nmeStatus_state : Fld := ⟨0x3000010, 0x10000, 0, 2, 0, [], false⟩
/-- NME_n_STATUS.phys_slot, RO, bits 11:8. -/
def nmeStatus_phys_slot : Fld := ⟨0x3000010, 0x10000, 8, 4, 0, [], false⟩
/-- NME_n_STATUS.contexts, RO, bits 20:16. -/
def nmeStatus_contexts : Fld := ⟨0x3000010, 0x10000, 16, 5, 0, [], false⟩
/-- NME_n_STATUS.buffers, RO, bits 30:24. -/
def nmeStatus_buffers : Fld := ⟨0x3000010, 0x10000, 24, 7, 0, [], false⟩
/-! NME_n_ERR: spec 04_near_memory_engines.md. -/
/-- NME_n_ERR.sp_corrected, W1C, bits 0:0. -/
def nmeErr_sp_corrected : Fld := ⟨0x3000018, 0x10000, 0, 1, 0, [], false⟩
/-- NME_n_ERR.sp_uncorrected, W1C, bits 1:1. -/
def nmeErr_sp_uncorrected : Fld := ⟨0x3000018, 0x10000, 1, 1, 0, [], false⟩
/-- NME_n_ERR.guard_in, W1C, bits 2:2. -/
def nmeErr_guard_in : Fld := ⟨0x3000018, 0x10000, 2, 1, 0, [], false⟩
/-- NME_n_ERR.poison_in, W1C, bits 3:3. -/
def nmeErr_poison_in : Fld := ⟨0x3000018, 0x10000, 3, 1, 0, [], false⟩
/-- NME_n_ERR.engine_fault, W1C, bits 4:4. -/
def nmeErr_engine_fault : Fld := ⟨0x3000018, 0x10000, 4, 1, 0, [], false⟩
/-- NME_n_ERR.corrected_count, RO, bits 31:16. -/
def nmeErr_corrected_count : Fld := ⟨0x3000018, 0x10000, 16, 16, 0, [], false⟩
/-! NME_n_TILES: spec 04_near_memory_engines.md. -/
/-- NME_n_TILES.count, RO, bits 63:0. -/
def nmeTiles_count : Fld := ⟨0x3000020, 0x10000, 0, 64, 0, [], false⟩
/-! NME_n_RD_BYTES: spec 04_near_memory_engines.md. -/
/-- NME_n_RD_BYTES.count, RO, bits 63:0. -/
def nmeRdBytes_count : Fld := ⟨0x3000028, 0x10000, 0, 64, 0, [], false⟩
/-! NME_n_WR_BYTES: spec 04_near_memory_engines.md. -/
/-- NME_n_WR_BYTES.count, RO, bits 63:0. -/
def nmeWrBytes_count : Fld := ⟨0x3000030, 0x10000, 0, 64, 0, [], false⟩
/-! NME_MAP_s: spec 04_near_memory_engines.md. -/
/-- NME_MAP_s.slot_k, RO, bits 31:0. -/
def nmeMap_slot_k : Fld := ⟨0x3800100, 0x8, 0, 32, 0, [], false⟩
/-- NME_MAP_s.spare_slot, RO, bits 35:32. -/
def nmeMap_spare_slot : Fld := ⟨0x3800100, 0x8, 32, 4, 0, [], false⟩
/-- NME_MAP_s.bad_mask, RO, bits 44:36. -/
def nmeMap_bad_mask : Fld := ⟨0x3800100, 0x8, 36, 9, 0, [], false⟩
/-! XTU_TENANT_t_0: spec 02_pool_model.md. -/
/-- XTU_TENANT_t_0.state, RW, bits 1:0. -/
def xtuTenant0_state : Fld := ⟨0x2100000, 0x20, 0, 2, 0, [], false⟩
/-- XTU_TENANT_t_0.confidential, RW, bits 2:2. -/
def xtuTenant0_confidential : Fld := ⟨0x2100000, 0x20, 2, 1, 0, [], false⟩
/-- XTU_TENANT_t_0.sr1_bus_error, RW, bits 3:3. -/
def xtuTenant0_sr1_bus_error : Fld := ⟨0x2100000, 0x20, 3, 1, 0, [], false⟩
/-! XTU_TENANT_t_4: spec 02_pool_model.md. -/
/-- XTU_TENANT_t_4.ext_capacity, RW, bits 31:0. -/
def xtuTenant4_ext_capacity : Fld := ⟨0x2100004, 0x20, 0, 32, 0, [], false⟩
/-! XTU_TENANT_t_8: spec 02_pool_model.md. -/
/-- XTU_TENANT_t_8.ext_table_ppa, RW, bits 55:0. -/
def xtuTenant8_ext_table_ppa : Fld := ⟨0x2100008, 0x20, 0, 56, 0, [], false⟩
/-! DMA_e_STATUS: spec 09_dma_engines.md. -/
/-- DMA_e_STATUS.active, RO, bits 0:0. -/
def dmaStatus_active : Fld := ⟨0x4010000, 0x100, 0, 1, 0, [], false⟩
/-- DMA_e_STATUS.channel, RO, bits 3:1. -/
def dmaStatus_channel : Fld := ⟨0x4010000, 0x100, 1, 3, 0, [], false⟩
/-- DMA_e_STATUS.suspended, RO, bits 4:4. -/
def dmaStatus_suspended : Fld := ⟨0x4010000, 0x100, 4, 1, 0, [], false⟩
/-- DMA_e_STATUS.queue, RO, bits 31:16. -/
def dmaStatus_queue : Fld := ⟨0x4010000, 0x100, 16, 16, 0, [], false⟩
/-! DMA_e_BYTES: spec 09_dma_engines.md. -/
/-- DMA_e_BYTES.count, RO, bits 63:0. -/
def dmaBytes_count : Fld := ⟨0x4010008, 0x100, 0, 64, 0, [], false⟩
/-! DMA_e_CH_PEND: spec 09_dma_engines.md. -/
/-- DMA_e_CH_PEND.pend_c, RO, bits 31:0. -/
def dmaChPend_pend_c : Fld := ⟨0x4010010, 0x100, 0, 32, 0, [], false⟩
/-! SMC_s_BLOCK_ID: spec 10_memory_system.md. -/
/-- SMC_s_BLOCK_ID.family, RO, bits 31:24. -/
def smcBlockId_family : Fld := ⟨0x5000000, 0x100000, 24, 8, 2, [], false⟩
/-- SMC_s_BLOCK_ID.instance, RO, bits 23:16. -/
def smcBlockId_inst : Fld := ⟨0x5000000, 0x100000, 16, 8, 0, [], true⟩
/-- SMC_s_BLOCK_ID.block_code, RO, bits 11:0. -/
def smcBlockId_block_code : Fld := ⟨0x5000000, 0x100000, 0, 12, 80, [], false⟩
/-! SMC_s_BLOCK_REV: spec 10_memory_system.md. -/
/-- SMC_s_BLOCK_REV.stepping, RO, bits 15:8. -/
def smcBlockRev_stepping : Fld := ⟨0x5000004, 0x100000, 8, 8, 176, [], false⟩
/-- SMC_s_BLOCK_REV.block_rev, RO, bits 7:0. -/
def smcBlockRev_block_rev : Fld := ⟨0x5000004, 0x100000, 0, 8, 2, [], false⟩
/-! SMC_s_STATUS: spec 10_memory_system.md. -/
/-- SMC_s_STATUS.state, RO, bits 1:0. -/
def smcStatus_state : Fld := ⟨0x5000010, 0x100000, 0, 2, 0, [], false⟩
/-- SMC_s_STATUS.channels, RO, bits 13:8. -/
def smcStatus_channels : Fld := ⟨0x5000010, 0x100000, 8, 6, 0, [], false⟩
/-! SMC_s_CH_ONLINE: spec 10_memory_system.md. -/
/-- SMC_s_CH_ONLINE.mask, RO, bits 31:0. -/
def smcChOnline_mask : Fld := ⟨0x5000018, 0x100000, 0, 32, 0, [], false⟩
/-! SMC_s_CTL: spec 10_memory_system.md. -/
/-- SMC_s_CTL.page_override, RW, bits 1:0. -/
def smcCtl_page_override : Fld := ⟨0x5000020, 0x100000, 0, 2, 0, [], false⟩
/-- SMC_s_CTL.open_max, RW, bits 17:8. -/
def smcCtl_open_max : Fld := ⟨0x5000020, 0x100000, 8, 10, 100, [], false⟩
/-- SMC_s_CTL.postpone_max, RW, bits 23:20. -/
def smcCtl_postpone_max : Fld := ⟨0x5000020, 0x100000, 20, 4, 8, [], false⟩
/-! SMC_s_TRAIN: spec 10_memory_system.md. -/
/-- SMC_s_TRAIN.period_ms, RW, bits 9:0. -/
def smcTrain_period_ms : Fld := ⟨0x5000028, 0x100000, 0, 10, 100, [], false⟩
/-- SMC_s_TRAIN.retrain_now, W1S, bits 16:16. -/
def smcTrain_retrain_now : Fld := ⟨0x5000028, 0x100000, 16, 1, 0, [], false⟩
/-! SMC_s_TEMP: spec 10_memory_system.md. -/
/-- SMC_s_TEMP.temp, RO, bits 9:0. -/
def smcTemp_temp : Fld := ⟨0x5000030, 0x100000, 0, 10, 0, [], false⟩
/-! SMC_s_RD_BYTES: spec 10_memory_system.md. -/
/-- SMC_s_RD_BYTES.count, RO, bits 63:0. -/
def smcRdBytes_count : Fld := ⟨0x5000040, 0x100000, 0, 64, 0, [], false⟩
/-! SMC_s_WR_BYTES: spec 10_memory_system.md. -/
/-- SMC_s_WR_BYTES.count, RO, bits 63:0. -/
def smcWrBytes_count : Fld := ⟨0x5000048, 0x100000, 0, 64, 0, [], false⟩
/-! SMC_s_ZREADS: spec 10_memory_system.md. -/
/-- SMC_s_ZREADS.count, RO, bits 63:0. -/
def smcZreads_count : Fld := ⟨0x5000050, 0x100000, 0, 64, 0, [], false⟩
/-! SMC_s_URG3: spec 10_memory_system.md. -/
/-- SMC_s_URG3.count, RO, bits 63:0. -/
def smcUrg3_count : Fld := ⟨0x5000058, 0x100000, 0, 64, 0, [], false⟩
/-! SMC_PROF_n: spec 10_memory_system.md. -/
/-- SMC_PROF_n.grain_log2, RW, bits 4:0. -/
def smcProf_grain_log2 : Fld := ⟨0x5c00000, 0x4, 0, 5, 0, [12, 16, 12, 12], false⟩
/-- SMC_PROF_n.stack_mask, RW, bits 27:16. -/
def smcProf_stack_mask : Fld := ⟨0x5c00000, 0x4, 16, 12, 0, [4095, 4095, 63, 4032], false⟩
/-! XBAR_PORT_CFG_p: spec 10_memory_system.md. -/
/-- XBAR_PORT_CFG_p.rank, RWC, bits 1:0. -/
def xbarPortCfg_rank : Fld := ⟨0x4800100, 0x8, 0, 2, 1, [], false⟩
/-- XBAR_PORT_CFG_p.lat_target, RWC, bits 15:8. -/
def xbarPortCfg_lat_target : Fld := ⟨0x4800100, 0x8, 8, 8, 0, [50, 80, 200, 40, 30, 30, 255, 0, 100, 100, 100, 100, 100, 100, 100, 0, 50, 0, 200, 40, 30, 30, 255, 0, 100, 100, 100, 100, 100, 100, 100, 0], false⟩
/-! RAS_STK_s_CE: spec 11_data_integrity_and_ras.md. -/
/-- RAS_STK_s_CE.count, RO, bits 63:0. -/
def rasStkCe_count : Fld := ⟨0x6000200, 0x10, 0, 64, 0, [], false⟩
/-! RAS_STK_s_UE: spec 11_data_integrity_and_ras.md. -/
/-- RAS_STK_s_UE.count, RO, bits 63:0. -/
def rasStkUe_count : Fld := ⟨0x6000208, 0x10, 0, 64, 0, [], false⟩
/-! RAS_CE_LOG_n_A: spec 11_data_integrity_and_ras.md. -/
/-- RAS_CE_LOG_n_A.stack, RO, bits 3:0. -/
def rasCeLogA_stack : Fld := ⟨0x6001000, 0x10, 0, 4, 0, [], false⟩
/-- RAS_CE_LOG_n_A.channel, RO, bits 8:4. -/
def rasCeLogA_channel : Fld := ⟨0x6001000, 0x10, 4, 5, 0, [], false⟩
/-- RAS_CE_LOG_n_A.pseudo_channel, RO, bits 9:9. -/
def rasCeLogA_pseudo_channel : Fld := ⟨0x6001000, 0x10, 9, 1, 0, [], false⟩
/-- RAS_CE_LOG_n_A.bank, RO, bits 15:10. -/
def rasCeLogA_bank : Fld := ⟨0x6001000, 0x10, 10, 6, 0, [], false⟩
/-- RAS_CE_LOG_n_A.row, RO, bits 30:16. -/
def rasCeLogA_row : Fld := ⟨0x6001000, 0x10, 16, 15, 0, [], false⟩
/-- RAS_CE_LOG_n_A.column, RO, bits 41:32. -/
def rasCeLogA_column : Fld := ⟨0x6001000, 0x10, 32, 10, 0, [], false⟩
/-- RAS_CE_LOG_n_A.symbol, RO, bits 48:42. -/
def rasCeLogA_symbol : Fld := ⟨0x6001000, 0x10, 42, 7, 0, [], false⟩
/-- RAS_CE_LOG_n_A.two_symbol, RO, bits 49:49. -/
def rasCeLogA_two_symbol : Fld := ⟨0x6001000, 0x10, 49, 1, 0, [], false⟩
/-- RAS_CE_LOG_n_A.valid, W1C, bits 63:63. -/
def rasCeLogA_valid : Fld := ⟨0x6001000, 0x10, 63, 1, 0, [], false⟩
/-! RAS_CE_LOG_n_B: spec 11_data_integrity_and_ras.md. -/
/-- RAS_CE_LOG_n_B.count, RO, bits 15:0. -/
def rasCeLogB_count : Fld := ⟨0x6001008, 0x10, 0, 16, 0, [], false⟩
/-- RAS_CE_LOG_n_B.repaired, RO, bits 16:16. -/
def rasCeLogB_repaired : Fld := ⟨0x6001008, 0x10, 16, 1, 0, [], false⟩
/-- RAS_CE_LOG_n_B.last_seen, RO, bits 63:32. -/
def rasCeLogB_last_seen : Fld := ⟨0x6001008, 0x10, 32, 32, 0, [], false⟩
/-! MSL_s_PROGRESS: spec 11_data_integrity_and_ras.md. -/
/-- MSL_s_PROGRESS.frame, RO, bits 20:0. -/
def mslProgress_frame : Fld := ⟨0x6800100, 0x8, 0, 21, 0, [], false⟩
/-! DIR_AGENT_a: spec 12_coherence.md. -/
/-- DIR_AGENT_a.node, RW, bits 13:0. -/
def dirAgent_node : Fld := ⟨0x2801000, 0x4, 0, 14, 0, [], false⟩
/-- DIR_AGENT_a.enable, RW, bits 14:14. -/
def dirAgent_enable : Fld := ⟨0x2801000, 0x4, 14, 1, 0, [], false⟩
/-- DIR_AGENT_a.failed, RO, bits 15:15. -/
def dirAgent_failed : Fld := ⟨0x2801000, 0x4, 15, 1, 0, [], false⟩
/-! DIR_Bb_STATUS: spec 12_coherence.md. -/
/-- DIR_Bb_STATUS.valid, RO, bits 19:0. -/
def dirStatus_valid : Fld := ⟨0x2802000, 0x40, 0, 20, 0, [], false⟩
/-- DIR_Bb_STATUS.open, RO, bits 30:20. -/
def dirStatus_opn : Fld := ⟨0x2802000, 0x40, 20, 11, 0, [], false⟩
/-! DIR_Bb_LOOKUPS: spec 12_coherence.md. -/
/-- DIR_Bb_LOOKUPS.count, RO, bits 63:0. -/
def dirLookups_count : Fld := ⟨0x2802008, 0x40, 0, 64, 0, [], false⟩
/-! DIR_Bb_BINV: spec 12_coherence.md. -/
/-- DIR_Bb_BINV.count, RO, bits 63:0. -/
def dirBinv_count : Fld := ⟨0x2802010, 0x40, 0, 64, 0, [], false⟩
/-! DIR_Bb_RETRY: spec 12_coherence.md. -/
/-- DIR_Bb_RETRY.count, RO, bits 63:0. -/
def dirRetry_count : Fld := ⟨0x2802018, 0x40, 0, 64, 0, [], false⟩
/-! DIR_Bb_STALE_WB: spec 12_coherence.md. -/
/-- DIR_Bb_STALE_WB.count, RO, bits 63:0. -/
def dirStaleWb_count : Fld := ⟨0x2802020, 0x40, 0, 64, 0, [], false⟩
/-! FPT_p_BLOCK_ID: spec 13_fabric_link_layer.md. -/
/-- FPT_p_BLOCK_ID.family, RO, bits 31:24. -/
def fptBlockId_family : Fld := ⟨0xa000000, 0x100000, 24, 8, 2, [], false⟩
/-- FPT_p_BLOCK_ID.instance, RO, bits 23:16. -/
def fptBlockId_inst : Fld := ⟨0xa000000, 0x100000, 16, 8, 0, [], true⟩
/-- FPT_p_BLOCK_ID.block_code, RO, bits 11:0. -/
def fptBlockId_block_code : Fld := ⟨0xa000000, 0x100000, 0, 12, 160, [], false⟩
/-! FPT_p_BLOCK_REV: spec 13_fabric_link_layer.md. -/
/-- FPT_p_BLOCK_REV.stepping, RO, bits 15:8. -/
def fptBlockRev_stepping : Fld := ⟨0xa000004, 0x100000, 8, 8, 176, [], false⟩
/-- FPT_p_BLOCK_REV.block_rev, RO, bits 7:0. -/
def fptBlockRev_block_rev : Fld := ⟨0xa000004, 0x100000, 0, 8, 2, [], false⟩
/-! FPT_p_CTL: spec 13_fabric_link_layer.md. -/
/-- FPT_p_CTL.enable, RW, bits 0:0. -/
def fptCtl_enable : Fld := ⟨0xa000010, 0x100000, 0, 1, 0, [], false⟩
/-- FPT_p_CTL.auto_up, RW, bits 1:1. -/
def fptCtl_auto_up : Fld := ⟨0xa000010, 0x100000, 1, 1, 1, [], false⟩
/-- FPT_p_CTL.allow_x4, RW, bits 2:2. -/
def fptCtl_allow_x4 : Fld := ⟨0xa000010, 0x100000, 2, 1, 1, [], false⟩
/-- FPT_p_CTL.retrain, W1S, bits 3:3. -/
def fptCtl_retrain : Fld := ⟨0xa000010, 0x100000, 3, 1, 0, [], false⟩
/-! FPT_p_STATUS: spec 13_fabric_link_layer.md. -/
/-- FPT_p_STATUS.state, RO, bits 2:0. -/
def fptStatus_state : Fld := ⟨0xa000014, 0x100000, 0, 3, 0, [], false⟩
/-- FPT_p_STATUS.rx_x4, RO, bits 3:3. -/
def fptStatus_rx_x4 : Fld := ⟨0xa000014, 0x100000, 3, 1, 0, [], false⟩
/-- FPT_p_STATUS.tx_x4, RO, bits 4:4. -/
def fptStatus_tx_x4 : Fld := ⟨0xa000014, 0x100000, 4, 1, 0, [], false⟩
/-- FPT_p_STATUS.enc_active, RO, bits 5:5. -/
def fptStatus_enc_active : Fld := ⟨0xa000014, 0x100000, 5, 1, 0, [], false⟩
/-- FPT_p_STATUS.headroom_short, RO, bits 6:6. -/
def fptStatus_headroom_short : Fld := ⟨0xa000014, 0x100000, 6, 1, 0, [], false⟩
/-- FPT_p_STATUS.replaying, RO, bits 7:7. -/
def fptStatus_replaying : Fld := ⟨0xa000014, 0x100000, 7, 1, 0, [], false⟩
/-- FPT_p_STATUS.rx_spare_for, RO, bits 11:8. -/
def fptStatus_rx_spare_for : Fld := ⟨0xa000014, 0x100000, 8, 4, 15, [], false⟩
/-- FPT_p_STATUS.tx_spare_for, RO, bits 15:12. -/
def fptStatus_tx_spare_for : Fld := ⟨0xa000014, 0x100000, 12, 4, 15, [], false⟩
/-- FPT_p_STATUS.down_count, RO, bits 23:16. -/
def fptStatus_down_count : Fld := ⟨0xa000014, 0x100000, 16, 8, 0, [], false⟩
/-! FPT_p_PEER: spec 13_fabric_link_layer.md. -/
/-- FPT_p_PEER.node, RO, bits 13:0. -/
def fptPeer_node : Fld := ⟨0xa000018, 0x100000, 0, 14, 0, [], false⟩
/-- FPT_p_PEER.port, RO, bits 17:14. -/
def fptPeer_port : Fld := ⟨0xa000018, 0x100000, 14, 4, 0, [], false⟩
/-- FPT_p_PEER.sr2, RO, bits 18:18. -/
def fptPeer_sr2 : Fld := ⟨0xa000018, 0x100000, 18, 1, 0, [], false⟩
/-- FPT_p_PEER.enc_capable, RO, bits 19:19. -/
def fptPeer_enc_capable : Fld := ⟨0xa000018, 0x100000, 19, 1, 0, [], false⟩
/-! FPT_p_RTT: spec 13_fabric_link_layer.md. -/
/-- FPT_p_RTT.rtt_ns, RO, bits 15:0. -/
def fptRtt_rtt_ns : Fld := ⟨0xa00001c, 0x100000, 0, 16, 0, [], false⟩
/-! FPT_p_LL_CTL: spec 13_fabric_link_layer.md. -/
/-- FPT_p_LL_CTL.replay_timeout, RW, bits 11:0. -/
def fptLlCtl_replay_timeout : Fld := ⟨0xa000020, 0x100000, 0, 12, 300, [], false⟩
/-- FPT_p_LL_CTL.replay_limit, RW, bits 15:12. -/
def fptLlCtl_replay_limit : Fld := ⟨0xa000020, 0x100000, 12, 4, 4, [], false⟩
/-! FPT_p_LANE_CTL: spec 13_fabric_link_layer.md. -/
/-- FPT_p_LANE_CTL.ser_limit, RW, bits 15:0. -/
def fptLaneCtl_ser_limit : Fld := ⟨0xa000024, 0x100000, 0, 16, 4096, [], false⟩
/-! FPT_p_LANE: spec 13_fabric_link_layer.md. -/
/-- FPT_p_LANE.rx_failed, RO, bits 8:0. -/
def fptLane_rx_failed : Fld := ⟨0xa000028, 0x100000, 0, 9, 0, [], false⟩
/-- FPT_p_LANE.tx_failed, RO, bits 17:9. -/
def fptLane_tx_failed : Fld := ⟨0xa000028, 0x100000, 9, 9, 0, [], false⟩
/-! FPT_p_VC_0: spec 13_fabric_link_layer.md. -/
/-- FPT_p_VC_0.region, RW, bits 14:0. -/
def fptVc0_region : Fld := ⟨0xa000040, 0x100000, 0, 15, 5056, [], false⟩
/-- FPT_p_VC_0.xoff_at, RW, bits 30:16. -/
def fptVc0_xoff_at : Fld := ⟨0xa000040, 0x100000, 16, 15, 1230, [], false⟩
/-- FPT_p_VC_0.xon_at, RW, bits 46:32. -/
def fptVc0_xon_at : Fld := ⟨0xa000040, 0x100000, 32, 15, 1024, [], false⟩
/-! FPT_p_VC_1: spec 13_fabric_link_layer.md. -/
/-- FPT_p_VC_1.region, RW, bits 14:0. -/
def fptVc1_region : Fld := ⟨0xa000048, 0x100000, 0, 15, 5056, [], false⟩
/-- FPT_p_VC_1.xoff_at, RW, bits 30:16. -/
def fptVc1_xoff_at : Fld := ⟨0xa000048, 0x100000, 16, 15, 1230, [], false⟩
/-- FPT_p_VC_1.xon_at, RW, bits 46:32. -/
def fptVc1_xon_at : Fld := ⟨0xa000048, 0x100000, 32, 15, 1024, [], false⟩
/-! FPT_p_VC_2: spec 13_fabric_link_layer.md. -/
/-- FPT_p_VC_2.region, RW, bits 14:0. -/
def fptVc2_region : Fld := ⟨0xa000050, 0x100000, 0, 15, 5056, [], false⟩
/-- FPT_p_VC_2.xoff_at, RW, bits 30:16. -/
def fptVc2_xoff_at : Fld := ⟨0xa000050, 0x100000, 16, 15, 1230, [], false⟩
/-- FPT_p_VC_2.xon_at, RW, bits 46:32. -/
def fptVc2_xon_at : Fld := ⟨0xa000050, 0x100000, 32, 15, 1024, [], false⟩
/-! FPT_p_VC_3: spec 13_fabric_link_layer.md. -/
/-- FPT_p_VC_3.region, RW, bits 14:0. -/
def fptVc3_region : Fld := ⟨0xa000058, 0x100000, 0, 15, 5056, [], false⟩
/-- FPT_p_VC_3.xoff_at, RW, bits 30:16. -/
def fptVc3_xoff_at : Fld := ⟨0xa000058, 0x100000, 16, 15, 1230, [], false⟩
/-- FPT_p_VC_3.xon_at, RW, bits 46:32. -/
def fptVc3_xon_at : Fld := ⟨0xa000058, 0x100000, 32, 15, 1024, [], false⟩
/-! FPT_p_ENC: spec 13_fabric_link_layer.md. -/
/-- FPT_p_ENC.enc_en, RW, bits 0:0. -/
def fptEnc_enc_en : Fld := ⟨0xa000060, 0x100000, 0, 1, 0, [], false⟩
/-- FPT_p_ENC.enc_required, RW, bits 1:1. -/
def fptEnc_enc_required : Fld := ⟨0xa000060, 0x100000, 1, 1, 0, [], false⟩
/-- FPT_p_ENC.key_phase, RO, bits 2:2. -/
def fptEnc_key_phase : Fld := ⟨0xa000060, 0x100000, 2, 1, 0, [], false⟩
/-! FPT_p_TX_FRAMES: spec 13_fabric_link_layer.md. -/
/-- FPT_p_TX_FRAMES.count, RO, bits 63:0. -/
def fptTxFrames_count : Fld := ⟨0xa000080, 0x100000, 0, 64, 0, [], false⟩
/-! FPT_p_RX_FRAMES: spec 13_fabric_link_layer.md. -/
/-- FPT_p_RX_FRAMES.count, RO, bits 63:0. -/
def fptRxFrames_count : Fld := ⟨0xa000088, 0x100000, 0, 64, 0, [], false⟩
/-! FPT_p_CRC_ERR: spec 13_fabric_link_layer.md. -/
/-- FPT_p_CRC_ERR.count, RO, bits 63:0. -/
def fptCrcErr_count : Fld := ⟨0xa000090, 0x100000, 0, 64, 0, [], false⟩
/-! FPT_p_REPLAYS: spec 13_fabric_link_layer.md. -/
/-- FPT_p_REPLAYS.count, RO, bits 63:0. -/
def fptReplays_count : Fld := ⟨0xa000098, 0x100000, 0, 64, 0, [], false⟩
/-! FPT_p_SEQ_DISCARD: spec 13_fabric_link_layer.md. -/
/-- FPT_p_SEQ_DISCARD.count, RO, bits 63:0. -/
def fptSeqDiscard_count : Fld := ⟨0xa0000a0, 0x100000, 0, 64, 0, [], false⟩
/-! FPT_p_ACK_DISCARD: spec 13_fabric_link_layer.md. -/
/-- FPT_p_ACK_DISCARD.count, RO, bits 63:0. -/
def fptAckDiscard_count : Fld := ⟨0xa0000a8, 0x100000, 0, 64, 0, [], false⟩
/-! FPT_p_OVERRUN: spec 13_fabric_link_layer.md. -/
/-- FPT_p_OVERRUN.count, RO, bits 63:0. -/
def fptOverrun_count : Fld := ⟨0xa0000b0, 0x100000, 0, 64, 0, [], false⟩
/-! FPT_p_TAG_FAIL: spec 13_fabric_link_layer.md. -/
/-- FPT_p_TAG_FAIL.count, RO, bits 63:0. -/
def fptTagFail_count : Fld := ⟨0xa0000b8, 0x100000, 0, 64, 0, [], false⟩
/-! FPT_p_FEC_CORR: spec 13_fabric_link_layer.md. -/
/-- FPT_p_FEC_CORR.count, RO, bits 63:0. -/
def fptFecCorr_count : Fld := ⟨0xa0000c0, 0x100000, 0, 64, 0, [], false⟩
/-! FPT_p_FEC_UNCORR: spec 13_fabric_link_layer.md. -/
/-- FPT_p_FEC_UNCORR.count, RO, bits 63:0. -/
def fptFecUncorr_count : Fld := ⟨0xa0000c8, 0x100000, 0, 64, 0, [], false⟩
/-! FPT_p_ABORTED: spec 13_fabric_link_layer.md. -/
/-- FPT_p_ABORTED.count, RO, bits 63:0. -/
def fptAborted_count : Fld := ⟨0xa0000d0, 0x100000, 0, 64, 0, [], false⟩
/-! ROUTER_P_p_CFG: spec 14_fabric_transport_routing.md. -/
/-- ROUTER_P_p_CFG.dim, RW, bits 1:0. -/
def routerPCfg_dim : Fld := ⟨0x9001000, 0x40, 0, 2, 0, [], false⟩
/-- ROUTER_P_p_CFG.dateline, RW, bits 2:2. -/
def routerPCfg_dateline : Fld := ⟨0x9001000, 0x40, 2, 1, 0, [], false⟩
/-! ROUTER_P_p_OLD: spec 14_fabric_transport_routing.md. -/
/-- ROUTER_P_p_OLD.count, RO, bits 15:0. -/
def routerPOld_count : Fld := ⟨0x9001004, 0x40, 0, 16, 0, [], false⟩
/-! ROUTER_P_p_FLITS: spec 14_fabric_transport_routing.md. -/
/-- ROUTER_P_p_FLITS.count, RO, bits 63:0. -/
def routerPFlits_count : Fld := ⟨0x9001008, 0x40, 0, 64, 0, [], false⟩
/-! ROUTER_P_p_STALL: spec 14_fabric_transport_routing.md. -/
/-- ROUTER_P_p_STALL.count, RO, bits 63:0. -/
def routerPStall_count : Fld := ⟨0x9001010, 0x40, 0, 64, 0, [], false⟩
/-! ROUTER_P_p_DROP: spec 14_fabric_transport_routing.md. -/
/-- ROUTER_P_p_DROP.count, RO, bits 63:0. -/
def routerPDrop_count : Fld := ⟨0x9001018, 0x40, 0, 64, 0, [], false⟩
/-! ROUTER_P_p_DEPTH: spec 14_fabric_transport_routing.md. -/
/-- ROUTER_P_p_DEPTH.vc_n, RO, bits 59:0. -/
def routerPDepth_vc_n : Fld := ⟨0x9001020, 0x40, 0, 60, 0, [], false⟩
/-! NIE_JOB_j_0: spec 14_fabric_transport_routing.md. -/
/-- NIE_JOB_j_0.valid, RW, bits 0:0. -/
def nieJob0_valid : Fld := ⟨0x8100000, 0x10, 0, 1, 0, [], false⟩
/-- NIE_JOB_j_0.tenant, RW, bits 27:16. -/
def nieJob0_tenant : Fld := ⟨0x8100000, 0x10, 16, 12, 0, [], false⟩
/-! NIE_JOB_j_4: spec 14_fabric_transport_routing.md. -/
/-- NIE_JOB_j_4.rank_count, RW, bits 14:0. -/
def nieJob4_rank_count : Fld := ⟨0x8100004, 0x10, 0, 15, 0, [], false⟩
/-! NIE_JOB_j_8: spec 14_fabric_transport_routing.md. -/
/-- NIE_JOB_j_8.rank_ppa, RW, bits 55:0. -/
def nieJob8_rank_ppa : Fld := ⟨0x8100008, 0x10, 0, 56, 0, [], false⟩
/-! HIF_MBX_REQ_n: spec 16_host_interface.md. -/
/-- HIF_MBX_REQ_n.data, RW, bits 63:0. -/
def hifMbxReq_data : Fld := ⟨0x400, 0x8, 0, 64, 0, [], false⟩
/-! HIF_MBX_RSP_n: spec 16_host_interface.md. -/
/-- HIF_MBX_RSP_n.data, RO, bits 63:0. -/
def hifMbxRsp_data : Fld := ⟨0x500, 0x8, 0, 64, 0, [], false⟩
/-! SEC_PAIR_n: spec 17_security.md. -/
/-- SEC_PAIR_n.secret, WO, bits 63:0. -/
def secPair_secret : Fld := ⟨0x400200, 0x8, 0, 64, 0, [], false⟩
/-! SEC_LINK_p: spec 17_security.md. -/
/-- SEC_LINK_p.class, RO, bits 0:0. -/
def secLink_cls : Fld := ⟨0x400300, 0x8, 0, 1, 0, [], false⟩
/-- SEC_LINK_p.pair_set, RO, bits 1:1. -/
def secLink_pair_set : Fld := ⟨0x400300, 0x8, 1, 1, 0, [], false⟩
/-- SEC_LINK_p.keys_live, RO, bits 2:2. -/
def secLink_keys_live : Fld := ⟨0x400300, 0x8, 2, 1, 0, [], false⟩
/-- SEC_LINK_p.key_phase, RO, bits 3:3. -/
def secLink_key_phase : Fld := ⟨0x400300, 0x8, 3, 1, 0, [], false⟩
/-- SEC_LINK_p.generation, RO, bits 19:4. -/
def secLink_generation : Fld := ⟨0x400300, 0x8, 4, 16, 0, [], false⟩
/-! SEC_SLOT_t: spec 17_security.md. -/
/-- SEC_SLOT_t.state, RO, bits 1:0. -/
def secSlot_state : Fld := ⟨0x401000, 0x4, 0, 2, 0, [], false⟩
/-- SEC_SLOT_t.class, RO, bits 2:2. -/
def secSlot_cls : Fld := ⟨0x401000, 0x4, 2, 1, 0, [], false⟩
/-- SEC_SLOT_t.generation, RO, bits 19:4. -/
def secSlot_generation : Fld := ⟨0x401000, 0x4, 4, 16, 0, [], false⟩
/-- SEC_SLOT_t.wrapped, RO, bits 20:20. -/
def secSlot_wrapped : Fld := ⟨0x401000, 0x4, 20, 1, 0, [], false⟩
/-! CFG_FEAT_OFFER_n: spec 19_startup_and_configuration.md. -/
/-- CFG_FEAT_OFFER_n.offer, RO, bits 63:0. -/
def cfgFeatOffer_offer : Fld := ⟨0x100020, 0x8, 0, 64, 0, [], false⟩
/-! CFG_FEAT_ACCEPT_n: spec 19_startup_and_configuration.md. -/
/-- CFG_FEAT_ACCEPT_n.accept, RW, bits 63:0. -/
def cfgFeatAccept_accept : Fld := ⟨0x100040, 0x8, 0, 64, 0, [], false⟩
/-! TEL_FLT_f_CTL: spec 20_telemetry.md. -/
/-- TEL_FLT_f_CTL.priv_mask, RW, bits 2:0. -/
def telFltCtl_priv_mask : Fld := ⟨0x501000, 0x20, 0, 3, 7, [], false⟩
/-- TEL_FLT_f_CTL.master_mask, RW, bits 10:3. -/
def telFltCtl_master_mask : Fld := ⟨0x501000, 0x20, 3, 8, 255, [], false⟩
/-- TEL_FLT_f_CTL.class_mask, RW, bits 16:11. -/
def telFltCtl_class_mask : Fld := ⟨0x501000, 0x20, 11, 6, 63, [], false⟩
/-- TEL_FLT_f_CTL.tenant_en, RW, bits 17:17. -/
def telFltCtl_tenant_en : Fld := ⟨0x501000, 0x20, 17, 1, 0, [], false⟩
/-- TEL_FLT_f_CTL.tenant, RW, bits 29:18. -/
def telFltCtl_tenant : Fld := ⟨0x501000, 0x20, 18, 12, 0, [], false⟩
/-! TEL_FLT_f_LO: spec 20_telemetry.md. -/
/-- TEL_FLT_f_LO.lo, RW, bits 55:0. -/
def telFltLo_lo : Fld := ⟨0x501008, 0x20, 0, 56, 0, [], false⟩
/-! TEL_FLT_f_HI: spec 20_telemetry.md. -/
/-- TEL_FLT_f_HI.hi, RW, bits 55:0. -/
def telFltHi_hi : Fld := ⟨0x501010, 0x20, 0, 56, 0, [], false⟩
/-! TEL_SEL_n: spec 20_telemetry.md. -/
/-- TEL_SEL_n.event, RWC, bits 7:0. -/
def telSel_event : Fld := ⟨0x510000, 0x4, 0, 8, 0, [], false⟩
/-- TEL_SEL_n.instance, RWC, bits 15:8. -/
def telSel_inst : Fld := ⟨0x510000, 0x4, 8, 8, 255, [], true⟩
/-- TEL_SEL_n.filter, RWC, bits 19:16. -/
def telSel_filter : Fld := ⟨0x510000, 0x4, 16, 4, 0, [], false⟩
/-- TEL_SEL_n.enable, RWC, bits 20:20. -/
def telSel_enable : Fld := ⟨0x510000, 0x4, 20, 1, 0, [], false⟩
/-- TEL_SEL_n.dump, RWC, bits 21:21. -/
def telSel_dump : Fld := ⟨0x510000, 0x4, 21, 1, 0, [], false⟩
/-! TEL_CNT_n: spec 20_telemetry.md. -/
/-- TEL_CNT_n.value, RO, bits 47:0. -/
def telCnt_value : Fld := ⟨0x520000, 0x8, 0, 48, 0, [], false⟩
/-- TEL_CNT_n.overflow, RO, bits 48:48. -/
def telCnt_overflow : Fld := ⟨0x520000, 0x8, 48, 1, 0, [], false⟩
/-- TEL_CNT_n.bad_sel, RO, bits 49:49. -/
def telCnt_bad_sel : Fld := ⟨0x520000, 0x8, 49, 1, 0, [], false⟩
/-- TEL_CNT_n.clear, WO, bits 62:62. -/
def telCnt_clear : Fld := ⟨0x520000, 0x8, 62, 1, 0, [], false⟩

/-- The registers of QMG. -/
def tableQmg : List RegDesc := [
  ⟨"QMG_BLOCK_ID", 0x1000000, 32, 0x0, 1, 0x10, [(.ro, qmgBlockId_family), (.ro, qmgBlockId_inst), (.ro, qmgBlockId_block_code)]⟩,
  ⟨"QMG_BLOCK_REV", 0x1000004, 32, 0x0, 1, 0x10, [(.ro, qmgBlockRev_stepping), (.ro, qmgBlockRev_block_rev)]⟩,
  ⟨"QMG_QCTX_BASE", 0x1000010, 64, 0x0, 1, 0x10, [(.rw, qmgQctxBase_base)]⟩,
  ⟨"QMG_QCMD", 0x1000020, 32, 0x0, 1, 0x10, [(.rw, qmgQcmd_queue), (.wo, qmgQcmd_op), (.ro, qmgQcmd_result), (.ro, qmgQcmd_busy)]⟩,
  ⟨"QMG_ERR_BASE", 0x1000100, 64, 0x0, 1, 0x10, [(.rw, qmgErrBase_base)]⟩,
  ⟨"QMG_ERR_CTL", 0x1000108, 32, 0x0, 1, 0x10, [(.rw, qmgErrCtl_log2_entries), (.ro, qmgErrCtl_tail), (.rw, qmgErrCtl_head)]⟩,
  ⟨"QMG_ERR_OVF", 0x1000110, 32, 0x0, 1, 0x10, [(.w1c, qmgErrOvf_dropped)]⟩,
  ⟨"QMG_DB_DROP", 0x1000114, 32, 0x0, 1, 0x10, [(.w1c, qmgDbDrop_count)]⟩,
  ⟨"QMG_QSTAGE_n", 0x1000040, 64, 0x8, 8, 0x10, [(.rw, qmgQstage_data)]⟩,
  ⟨"QMG_DBPAGE_p", 0x1001000, 64, 0x8, 1024, 0x10, [(.rw, qmgDbpage_owner), (.rw, qmgDbpage_vf), (.rw, qmgDbpage_window_slot), (.rw, qmgDbpage_tenant)]⟩]

/-- The registers of NME. -/
def tableNme : List RegDesc := [
  ⟨"NME_CAPS", 0x3800000, 32, 0x0, 1, 0x30, [(.ro, nmeCaps_enabled), (.ro, nmeCaps_spares_ready)]⟩,
  ⟨"NME_DISP_CTL", 0x3800010, 32, 0x0, 1, 0x30, [(.rwc, nmeDispCtl_ctx_per_tenant), (.rwc, nmeDispCtl_spill_en), (.rwc, nmeDispCtl_spill_depth)]⟩,
  ⟨"NME_COMMIT", 0x3800018, 32, 0x0, 1, 0x30, [(.wo, nmeCommit_commit)]⟩,
  ⟨"NME_RETIRE", 0x3800020, 32, 0x0, 1, 0x30, [(.rw, nmeRetire_engine), (.wo, nmeRetire_retire), (.ro, nmeRetire_result), (.ro, nmeRetire_busy)]⟩,
  ⟨"NME_ERR_BASE", 0x3800200, 64, 0x0, 1, 0x30, [(.rw, nmeErrBase_base)]⟩,
  ⟨"NME_ERR_CTL", 0x3800208, 32, 0x0, 1, 0x30, [(.rw, nmeErrCtl_log2_entries), (.ro, nmeErrCtl_tail), (.rw, nmeErrCtl_head)]⟩,
  ⟨"NME_ERR_OVF", 0x3800210, 32, 0x0, 1, 0x30, [(.w1c, nmeErrOvf_dropped)]⟩,
  ⟨"NME_n_BLOCK_ID", 0x3000000, 32, 0x10000, 96, 0x30, [(.ro, nmeBlockId_family), (.ro, nmeBlockId_inst), (.ro, nmeBlockId_block_code)]⟩,
  ⟨"NME_n_BLOCK_REV", 0x3000004, 32, 0x10000, 96, 0x30, [(.ro, nmeBlockRev_stepping), (.ro, nmeBlockRev_block_rev)]⟩,
  ⟨"NME_n_STATUS", 0x3000010, 32, 0x10000, 96, 0x30, [(.ro, nmeStatus_state), (.ro, nmeStatus_phys_slot), (.ro, nmeStatus_contexts), (.ro, nmeStatus_buffers)]⟩,
  ⟨"NME_n_ERR", 0x3000018, 32, 0x10000, 96, 0x30, [(.w1c, nmeErr_sp_corrected), (.w1c, nmeErr_sp_uncorrected), (.w1c, nmeErr_guard_in), (.w1c, nmeErr_poison_in), (.w1c, nmeErr_engine_fault), (.ro, nmeErr_corrected_count)]⟩,
  ⟨"NME_n_TILES", 0x3000020, 64, 0x10000, 96, 0x30, [(.ro, nmeTiles_count)]⟩,
  ⟨"NME_n_RD_BYTES", 0x3000028, 64, 0x10000, 96, 0x30, [(.ro, nmeRdBytes_count)]⟩,
  ⟨"NME_n_WR_BYTES", 0x3000030, 64, 0x10000, 96, 0x30, [(.ro, nmeWrBytes_count)]⟩,
  ⟨"NME_MAP_s", 0x3800100, 64, 0x8, 12, 0x30, [(.ro, nmeMap_slot_k), (.ro, nmeMap_spare_slot), (.ro, nmeMap_bad_mask)]⟩]

/-- The registers of XTU. -/
def tableXtu : List RegDesc := [
  ⟨"XTU_BLOCK_ID", 0x2000000, 32, 0x0, 1, 0x20, [(.ro, xtuBlockId_family), (.ro, xtuBlockId_inst), (.ro, xtuBlockId_block_code)]⟩,
  ⟨"XTU_BLOCK_REV", 0x2000004, 32, 0x0, 1, 0x20, [(.ro, xtuBlockRev_stepping), (.ro, xtuBlockRev_block_rev)]⟩,
  ⟨"XTU_CTL", 0x2000010, 32, 0x0, 1, 0x20, [(.rw, xtuCtl_late_drain), (.rw, xtuCtl_mig_en), (.rw, xtuCtl_pri_timeout_ms)]⟩,
  ⟨"XTU_RGN_BASE", 0x2000020, 64, 0x0, 1, 0x20, [(.rw, xtuRgnBase_base)]⟩,
  ⟨"XTU_RGN_COUNT", 0x2000028, 32, 0x0, 1, 0x20, [(.rw, xtuRgnCount_count)]⟩,
  ⟨"XTU_RESMAP_BASE", 0x2000030, 64, 0x0, 1, 0x20, [(.rw, xtuResmapBase_base)]⟩,
  ⟨"XTU_RCMD", 0x2000040, 64, 0x0, 1, 0x20, [(.wo, xtuRcmd_op), (.rw, xtuRcmd_tenant), (.rw, xtuRcmd_tag), (.ro, xtuRcmd_result), (.ro, xtuRcmd_busy)]⟩,
  ⟨"XTU_RCMD_ARG0", 0x2000048, 64, 0x0, 1, 0x20, [(.rw, xtuRcmdArg0_addr)]⟩,
  ⟨"XTU_RCMD_ARG1", 0x2000050, 64, 0x0, 1, 0x20, [(.rw, xtuRcmdArg1_count)]⟩,
  ⟨"XTU_CCQ_BASE", 0x2000060, 64, 0x0, 1, 0x20, [(.rw, xtuCcqBase_base)]⟩,
  ⟨"XTU_CCQ_CTL", 0x2000068, 32, 0x0, 1, 0x20, [(.rw, xtuCcqCtl_log2_entries), (.ro, xtuCcqCtl_tail), (.rw, xtuCcqCtl_head)]⟩,
  ⟨"XTU_MIG_BASE", 0x2000080, 64, 0x0, 1, 0x20, [(.rw, xtuMigBase_base)]⟩,
  ⟨"XTU_MIG_CTL", 0x2000088, 32, 0x0, 1, 0x20, [(.ro, xtuMigCtl_tail), (.rw, xtuMigCtl_head)]⟩,
  ⟨"XTU_MIG_DONE", 0x2000090, 64, 0x0, 1, 0x20, [(.wo, xtuMigDone_index), (.wo, xtuMigDone_outcome)]⟩,
  ⟨"XTU_ERR_BASE", 0x2000100, 64, 0x0, 1, 0x20, [(.rw, xtuErrBase_base)]⟩,
  ⟨"XTU_ERR_CTL", 0x2000108, 32, 0x0, 1, 0x20, [(.rw, xtuErrCtl_log2_entries), (.ro, xtuErrCtl_tail), (.rw, xtuErrCtl_head)]⟩,
  ⟨"XTU_ERR_OVF", 0x2000110, 32, 0x0, 1, 0x20, [(.w1c, xtuErrOvf_dropped)]⟩,
  ⟨"XTU_HITS", 0x2000120, 64, 0x0, 1, 0x20, [(.ro, xtuHits_count)]⟩,
  ⟨"XTU_MISSES", 0x2000128, 64, 0x0, 1, 0x20, [(.ro, xtuMisses_count)]⟩,
  ⟨"XTU_TENANT_t_0", 0x2100000, 32, 0x20, 4096, 0x20, [(.rw, xtuTenant0_state), (.rw, xtuTenant0_confidential), (.rw, xtuTenant0_sr1_bus_error)]⟩,
  ⟨"XTU_TENANT_t_4", 0x2100004, 32, 0x20, 4096, 0x20, [(.rw, xtuTenant4_ext_capacity)]⟩,
  ⟨"XTU_TENANT_t_8", 0x2100008, 64, 0x20, 4096, 0x20, [(.rw, xtuTenant8_ext_table_ppa)]⟩]

/-- The registers of DMA. -/
def tableDma : List RegDesc := [
  ⟨"DMA_BLOCK_ID", 0x4000000, 32, 0x0, 1, 0x40, [(.ro, dmaBlockId_family), (.ro, dmaBlockId_inst), (.ro, dmaBlockId_block_code)]⟩,
  ⟨"DMA_BLOCK_REV", 0x4000004, 32, 0x0, 1, 0x40, [(.ro, dmaBlockRev_stepping), (.ro, dmaBlockRev_block_rev)]⟩,
  ⟨"DMA_CTL", 0x4000010, 32, 0x0, 1, 0x40, [(.rw, dmaCtl_host_ro), (.rw, dmaCtl_rd_window)]⟩,
  ⟨"DMA_ERR_BASE", 0x4000100, 64, 0x0, 1, 0x40, [(.rw, dmaErrBase_base)]⟩,
  ⟨"DMA_ERR_CTL", 0x4000108, 32, 0x0, 1, 0x40, [(.rw, dmaErrCtl_log2_entries), (.ro, dmaErrCtl_tail), (.rw, dmaErrCtl_head)]⟩,
  ⟨"DMA_ERR_OVF", 0x4000110, 32, 0x0, 1, 0x40, [(.w1c, dmaErrOvf_dropped)]⟩,
  ⟨"DMA_MIG_CMD0", 0x4000200, 64, 0x0, 1, 0x40, [(.rw, dmaMigCmd0_ppa)]⟩,
  ⟨"DMA_MIG_CMD1", 0x4000208, 64, 0x0, 1, 0x40, [(.rw, dmaMigCmd1_iova)]⟩,
  ⟨"DMA_MIG_CMD2", 0x4000210, 64, 0x0, 1, 0x40, [(.rw, dmaMigCmd2_pasid), (.rw, dmaMigCmd2_index), (.wo, dmaMigCmd2_go), (.ro, dmaMigCmd2_result)]⟩,
  ⟨"DMA_MIG_RESULT", 0x4000220, 32, 0x0, 1, 0x40, [(.ro, dmaMigResult_index), (.ro, dmaMigResult_outcome), (.ro, dmaMigResult_valid)]⟩,
  ⟨"DMA_MIG_POP", 0x4000224, 32, 0x0, 1, 0x40, [(.wo, dmaMigPop_pop)]⟩,
  ⟨"DMA_e_STATUS", 0x4010000, 32, 0x100, 32, 0x40, [(.ro, dmaStatus_active), (.ro, dmaStatus_channel), (.ro, dmaStatus_suspended), (.ro, dmaStatus_queue)]⟩,
  ⟨"DMA_e_BYTES", 0x4010008, 64, 0x100, 32, 0x40, [(.ro, dmaBytes_count)]⟩,
  ⟨"DMA_e_CH_PEND", 0x4010010, 32, 0x100, 32, 0x40, [(.ro, dmaChPend_pend_c)]⟩]

/-- The registers of SMC. -/
def tableSmc : List RegDesc := [
  ⟨"SMC_RSV", 0x5c00040, 32, 0x0, 1, 0x50, [(.rw, smcRsv_frames)]⟩,
  ⟨"SMC_LOCK", 0x5c00048, 32, 0x0, 1, 0x50, [(.w1s, smcLock_locked), (.ro, smcLock_zmap_ready)]⟩,
  ⟨"SMC_ENG_LAT", 0x5c00060, 32, 0x0, 1, 0x50, [(.rwc, smcEngLat_rank), (.rwc, smcEngLat_lat_target)]⟩,
  ⟨"SMC_COMMIT", 0x5c00068, 32, 0x0, 1, 0x50, [(.wo, smcCommit_commit)]⟩,
  ⟨"SMC_s_BLOCK_ID", 0x5000000, 32, 0x100000, 12, 0x50, [(.ro, smcBlockId_family), (.ro, smcBlockId_inst), (.ro, smcBlockId_block_code)]⟩,
  ⟨"SMC_s_BLOCK_REV", 0x5000004, 32, 0x100000, 12, 0x50, [(.ro, smcBlockRev_stepping), (.ro, smcBlockRev_block_rev)]⟩,
  ⟨"SMC_s_STATUS", 0x5000010, 32, 0x100000, 12, 0x50, [(.ro, smcStatus_state), (.ro, smcStatus_channels)]⟩,
  ⟨"SMC_s_CH_ONLINE", 0x5000018, 32, 0x100000, 12, 0x50, [(.ro, smcChOnline_mask)]⟩,
  ⟨"SMC_s_CTL", 0x5000020, 32, 0x100000, 12, 0x50, [(.rw, smcCtl_page_override), (.rw, smcCtl_open_max), (.rw, smcCtl_postpone_max)]⟩,
  ⟨"SMC_s_TRAIN", 0x5000028, 32, 0x100000, 12, 0x50, [(.rw, smcTrain_period_ms), (.w1s, smcTrain_retrain_now)]⟩,
  ⟨"SMC_s_TEMP", 0x5000030, 32, 0x100000, 12, 0x50, [(.ro, smcTemp_temp)]⟩,
  ⟨"SMC_s_RD_BYTES", 0x5000040, 64, 0x100000, 12, 0x50, [(.ro, smcRdBytes_count)]⟩,
  ⟨"SMC_s_WR_BYTES", 0x5000048, 64, 0x100000, 12, 0x50, [(.ro, smcWrBytes_count)]⟩,
  ⟨"SMC_s_ZREADS", 0x5000050, 64, 0x100000, 12, 0x50, [(.ro, smcZreads_count)]⟩,
  ⟨"SMC_s_URG3", 0x5000058, 64, 0x100000, 12, 0x50, [(.ro, smcUrg3_count)]⟩,
  ⟨"SMC_PROF_n", 0x5c00000, 32, 0x4, 4, 0x50, [(.rw, smcProf_grain_log2), (.rw, smcProf_stack_mask)]⟩]

/-- The registers of XBAR. -/
def tableXbar : List RegDesc := [
  ⟨"XBAR_BLOCK_ID", 0x4800000, 32, 0x0, 1, 0x48, [(.ro, xbarBlockId_family), (.ro, xbarBlockId_inst), (.ro, xbarBlockId_block_code)]⟩,
  ⟨"XBAR_BLOCK_REV", 0x4800004, 32, 0x0, 1, 0x48, [(.ro, xbarBlockRev_stepping), (.ro, xbarBlockRev_block_rev)]⟩,
  ⟨"XBAR_ARB_CTL", 0x4800010, 64, 0x0, 1, 0x48, [(.rwc, xbarArbCtl_n_xbar), (.rwc, xbarArbCtl_n_smc), (.rwc, xbarArbCtl_n_qmg), (.rwc, xbarArbCtl_n_nme), (.rwc, xbarArbCtl_n_dma), (.rwc, xbarArbCtl_n_home), (.rwc, xbarArbCtl_n_adm)]⟩,
  ⟨"XBAR_COMMIT", 0x4800018, 32, 0x0, 1, 0x48, [(.wo, xbarCommit_commit)]⟩,
  ⟨"XBAR_BRIDGE_WE_BYTES", 0x4800200, 64, 0x0, 1, 0x48, [(.ro, xbarBridgeWeBytes_count)]⟩,
  ⟨"XBAR_BRIDGE_EW_BYTES", 0x4800208, 64, 0x0, 1, 0x48, [(.ro, xbarBridgeEwBytes_count)]⟩,
  ⟨"XBAR_BRIDGE_STALL", 0x4800210, 64, 0x0, 1, 0x48, [(.ro, xbarBridgeStall_count)]⟩,
  ⟨"XBAR_PORT_CFG_p", 0x4800100, 32, 0x8, 32, 0x48, [(.rwc, xbarPortCfg_rank), (.rwc, xbarPortCfg_lat_target)]⟩]

/-- The registers of RAS. -/
def tableRas : List RegDesc := [
  ⟨"RAS_BLOCK_ID", 0x6000000, 32, 0x0, 1, 0x60, [(.ro, rasBlockId_family), (.ro, rasBlockId_inst), (.ro, rasBlockId_block_code)]⟩,
  ⟨"RAS_BLOCK_REV", 0x6000004, 32, 0x0, 1, 0x60, [(.ro, rasBlockRev_stepping), (.ro, rasBlockRev_block_rev)]⟩,
  ⟨"RAS_CTL", 0x6000010, 32, 0x0, 1, 0x60, [(.rw, rasCtl_row_ce_limit), (.rw, rasCtl_ue_limit), (.rw, rasCtl_repair_en)]⟩,
  ⟨"RAS_CE_EVICT", 0x6000018, 32, 0x0, 1, 0x60, [(.w1c, rasCeEvict_count)]⟩,
  ⟨"RAS_ERR_BASE", 0x6000100, 64, 0x0, 1, 0x60, [(.rw, rasErrBase_base)]⟩,
  ⟨"RAS_ERR_CTL", 0x6000108, 32, 0x0, 1, 0x60, [(.rw, rasErrCtl_log2_entries), (.ro, rasErrCtl_tail), (.rw, rasErrCtl_head)]⟩,
  ⟨"RAS_ERR_OVF", 0x6000110, 32, 0x0, 1, 0x60, [(.w1c, rasErrOvf_dropped)]⟩,
  ⟨"RAS_STK_s_CE", 0x6000200, 64, 0x10, 12, 0x60, [(.ro, rasStkCe_count)]⟩,
  ⟨"RAS_STK_s_UE", 0x6000208, 64, 0x10, 12, 0x60, [(.ro, rasStkUe_count)]⟩,
  ⟨"RAS_CE_LOG_n_A", 0x6001000, 64, 0x10, 64, 0x60, [(.ro, rasCeLogA_stack), (.ro, rasCeLogA_channel), (.ro, rasCeLogA_pseudo_channel), (.ro, rasCeLogA_bank), (.ro, rasCeLogA_row), (.ro, rasCeLogA_column), (.ro, rasCeLogA_symbol), (.ro, rasCeLogA_two_symbol), (.w1c, rasCeLogA_valid)]⟩,
  ⟨"RAS_CE_LOG_n_B", 0x6001008, 64, 0x10, 64, 0x60, [(.ro, rasCeLogB_count), (.ro, rasCeLogB_repaired), (.ro, rasCeLogB_last_seen)]⟩]

/-- The registers of MSL. -/
def tableMsl : List RegDesc := [
  ⟨"MSL_BLOCK_ID", 0x6800000, 32, 0x0, 1, 0x68, [(.ro, mslBlockId_family), (.ro, mslBlockId_inst), (.ro, mslBlockId_block_code)]⟩,
  ⟨"MSL_BLOCK_REV", 0x6800004, 32, 0x0, 1, 0x68, [(.ro, mslBlockRev_stepping), (.ro, mslBlockRev_block_rev)]⟩,
  ⟨"MSL_CTL", 0x6800010, 32, 0x0, 1, 0x68, [(.rw, mslCtl_bg_en), (.rw, mslCtl_period_h), (.rw, mslCtl_range_share)]⟩,
  ⟨"MSL_LATE", 0x6800018, 32, 0x0, 1, 0x68, [(.w1c, mslLate_count)]⟩,
  ⟨"MSL_REPAIR_DROP", 0x680001c, 32, 0x0, 1, 0x68, [(.w1c, mslRepairDrop_count)]⟩,
  ⟨"MSL_PASSES", 0x6800020, 64, 0x0, 1, 0x68, [(.ro, mslPasses_count)]⟩,
  ⟨"MSL_REPAIRED", 0x6800028, 64, 0x0, 1, 0x68, [(.ro, mslRepaired_count)]⟩,
  ⟨"MSL_s_PROGRESS", 0x6800100, 32, 0x8, 12, 0x68, [(.ro, mslProgress_frame)]⟩]

/-- The registers of PAR. -/
def tablePar : List RegDesc := [
  ⟨"PAR_BLOCK_ID", 0x7000000, 32, 0x0, 1, 0x70, [(.ro, parBlockId_family), (.ro, parBlockId_inst), (.ro, parBlockId_block_code)]⟩,
  ⟨"PAR_BLOCK_REV", 0x7000004, 32, 0x0, 1, 0x70, [(.ro, parBlockRev_stepping), (.ro, parBlockRev_block_rev)]⟩,
  ⟨"PAR_STATUS", 0x7000010, 32, 0x0, 1, 0x70, [(.ro, parStatus_state), (.ro, parStatus_spare_stack), (.ro, parStatus_rebuild_stack)]⟩,
  ⟨"PAR_CTL", 0x7000018, 32, 0x0, 1, 0x70, [(.rw, parCtl_rebuild_share), (.rw, parCtl_auto_promote), (.rw, parCtl_ue_retire_en)]⟩,
  ⟨"PAR_CMD", 0x7000020, 32, 0x0, 1, 0x70, [(.rw, parCmd_stack), (.wo, parCmd_retire), (.ro, parCmd_result)]⟩,
  ⟨"PAR_REBUILD", 0x7000028, 32, 0x0, 1, 0x70, [(.ro, parRebuild_frames_done)]⟩,
  ⟨"PAR_RECON", 0x7000030, 64, 0x0, 1, 0x70, [(.ro, parRecon_count)]⟩,
  ⟨"PAR_UNRECOV", 0x7000038, 64, 0x0, 1, 0x70, [(.ro, parUnrecov_count)]⟩]

/-- The registers of DIR. -/
def tableDir : List RegDesc := [
  ⟨"DIR_BLOCK_ID", 0x2800000, 32, 0x0, 1, 0x28, [(.ro, dirBlockId_family), (.ro, dirBlockId_inst), (.ro, dirBlockId_block_code)]⟩,
  ⟨"DIR_BLOCK_REV", 0x2800004, 32, 0x0, 1, 0x28, [(.ro, dirBlockRev_stepping), (.ro, dirBlockRev_block_rev)]⟩,
  ⟨"DIR_CTL", 0x2800010, 32, 0x0, 1, 0x28, [(.rwc, dirCtl_min_hold), (.rwc, dirCtl_snoop_timeout), (.rwc, dirCtl_grant_e), (.rwc, dirCtl_arb_n)]⟩,
  ⟨"DIR_COMMIT", 0x2800018, 32, 0x0, 1, 0x28, [(.wo, dirCommit_commit)]⟩,
  ⟨"DIR_CMD", 0x2800020, 64, 0x0, 1, 0x28, [(.wo, dirCmd_op), (.rw, dirCmd_agent), (.ro, dirCmd_result), (.ro, dirCmd_busy)]⟩,
  ⟨"DIR_CMD_ARG0", 0x2800028, 64, 0x0, 1, 0x28, [(.rw, dirCmdArg0_ppa)]⟩,
  ⟨"DIR_CMD_ARG1", 0x2800030, 64, 0x0, 1, 0x28, [(.rw, dirCmdArg1_ells)]⟩,
  ⟨"DIR_ERR_BASE", 0x2800100, 64, 0x0, 1, 0x28, [(.rw, dirErrBase_base)]⟩,
  ⟨"DIR_ERR_CTL", 0x2800108, 32, 0x0, 1, 0x28, [(.rw, dirErrCtl_log2_entries), (.ro, dirErrCtl_tail), (.rw, dirErrCtl_head)]⟩,
  ⟨"DIR_ERR_OVF", 0x2800110, 32, 0x0, 1, 0x28, [(.w1c, dirErrOvf_dropped)]⟩,
  ⟨"DIR_AGENT_a", 0x2801000, 32, 0x4, 256, 0x28, [(.rw, dirAgent_node), (.rw, dirAgent_enable), (.ro, dirAgent_failed)]⟩,
  ⟨"DIR_Bb_STATUS", 0x2802000, 32, 0x40, 8, 0x28, [(.ro, dirStatus_valid), (.ro, dirStatus_opn)]⟩,
  ⟨"DIR_Bb_LOOKUPS", 0x2802008, 64, 0x40, 8, 0x28, [(.ro, dirLookups_count)]⟩,
  ⟨"DIR_Bb_BINV", 0x2802010, 64, 0x40, 8, 0x28, [(.ro, dirBinv_count)]⟩,
  ⟨"DIR_Bb_RETRY", 0x2802018, 64, 0x40, 8, 0x28, [(.ro, dirRetry_count)]⟩,
  ⟨"DIR_Bb_STALE_WB", 0x2802020, 64, 0x40, 8, 0x28, [(.ro, dirStaleWb_count)]⟩]

/-- The registers of FPT. -/
def tableFpt : List RegDesc := [
  ⟨"FPT_ERR_BASE", 0xac00000, 64, 0x0, 1, 0xa0, [(.rw, fptErrBase_base)]⟩,
  ⟨"FPT_ERR_CTL", 0xac00008, 32, 0x0, 1, 0xa0, [(.rw, fptErrCtl_log2_entries), (.ro, fptErrCtl_tail), (.rw, fptErrCtl_head)]⟩,
  ⟨"FPT_ERR_OVF", 0xac00010, 32, 0x0, 1, 0xa0, [(.w1c, fptErrOvf_dropped)]⟩,
  ⟨"FPT_p_BLOCK_ID", 0xa000000, 32, 0x100000, 12, 0xa0, [(.ro, fptBlockId_family), (.ro, fptBlockId_inst), (.ro, fptBlockId_block_code)]⟩,
  ⟨"FPT_p_BLOCK_REV", 0xa000004, 32, 0x100000, 12, 0xa0, [(.ro, fptBlockRev_stepping), (.ro, fptBlockRev_block_rev)]⟩,
  ⟨"FPT_p_CTL", 0xa000010, 32, 0x100000, 12, 0xa0, [(.rw, fptCtl_enable), (.rw, fptCtl_auto_up), (.rw, fptCtl_allow_x4), (.w1s, fptCtl_retrain)]⟩,
  ⟨"FPT_p_STATUS", 0xa000014, 32, 0x100000, 12, 0xa0, [(.ro, fptStatus_state), (.ro, fptStatus_rx_x4), (.ro, fptStatus_tx_x4), (.ro, fptStatus_enc_active), (.ro, fptStatus_headroom_short), (.ro, fptStatus_replaying), (.ro, fptStatus_rx_spare_for), (.ro, fptStatus_tx_spare_for), (.ro, fptStatus_down_count)]⟩,
  ⟨"FPT_p_PEER", 0xa000018, 32, 0x100000, 12, 0xa0, [(.ro, fptPeer_node), (.ro, fptPeer_port), (.ro, fptPeer_sr2), (.ro, fptPeer_enc_capable)]⟩,
  ⟨"FPT_p_RTT", 0xa00001c, 32, 0x100000, 12, 0xa0, [(.ro, fptRtt_rtt_ns)]⟩,
  ⟨"FPT_p_LL_CTL", 0xa000020, 32, 0x100000, 12, 0xa0, [(.rw, fptLlCtl_replay_timeout), (.rw, fptLlCtl_replay_limit)]⟩,
  ⟨"FPT_p_LANE_CTL", 0xa000024, 32, 0x100000, 12, 0xa0, [(.rw, fptLaneCtl_ser_limit)]⟩,
  ⟨"FPT_p_LANE", 0xa000028, 32, 0x100000, 12, 0xa0, [(.ro, fptLane_rx_failed), (.ro, fptLane_tx_failed)]⟩,
  ⟨"FPT_p_VC_0", 0xa000040, 64, 0x100000, 12, 0xa0, [(.rw, fptVc0_region), (.rw, fptVc0_xoff_at), (.rw, fptVc0_xon_at)]⟩,
  ⟨"FPT_p_VC_1", 0xa000048, 64, 0x100000, 12, 0xa0, [(.rw, fptVc1_region), (.rw, fptVc1_xoff_at), (.rw, fptVc1_xon_at)]⟩,
  ⟨"FPT_p_VC_2", 0xa000050, 64, 0x100000, 12, 0xa0, [(.rw, fptVc2_region), (.rw, fptVc2_xoff_at), (.rw, fptVc2_xon_at)]⟩,
  ⟨"FPT_p_VC_3", 0xa000058, 64, 0x100000, 12, 0xa0, [(.rw, fptVc3_region), (.rw, fptVc3_xoff_at), (.rw, fptVc3_xon_at)]⟩,
  ⟨"FPT_p_ENC", 0xa000060, 32, 0x100000, 12, 0xa0, [(.rw, fptEnc_enc_en), (.rw, fptEnc_enc_required), (.ro, fptEnc_key_phase)]⟩,
  ⟨"FPT_p_TX_FRAMES", 0xa000080, 64, 0x100000, 12, 0xa0, [(.ro, fptTxFrames_count)]⟩,
  ⟨"FPT_p_RX_FRAMES", 0xa000088, 64, 0x100000, 12, 0xa0, [(.ro, fptRxFrames_count)]⟩,
  ⟨"FPT_p_CRC_ERR", 0xa000090, 64, 0x100000, 12, 0xa0, [(.ro, fptCrcErr_count)]⟩,
  ⟨"FPT_p_REPLAYS", 0xa000098, 64, 0x100000, 12, 0xa0, [(.ro, fptReplays_count)]⟩,
  ⟨"FPT_p_SEQ_DISCARD", 0xa0000a0, 64, 0x100000, 12, 0xa0, [(.ro, fptSeqDiscard_count)]⟩,
  ⟨"FPT_p_ACK_DISCARD", 0xa0000a8, 64, 0x100000, 12, 0xa0, [(.ro, fptAckDiscard_count)]⟩,
  ⟨"FPT_p_OVERRUN", 0xa0000b0, 64, 0x100000, 12, 0xa0, [(.ro, fptOverrun_count)]⟩,
  ⟨"FPT_p_TAG_FAIL", 0xa0000b8, 64, 0x100000, 12, 0xa0, [(.ro, fptTagFail_count)]⟩,
  ⟨"FPT_p_FEC_CORR", 0xa0000c0, 64, 0x100000, 12, 0xa0, [(.ro, fptFecCorr_count)]⟩,
  ⟨"FPT_p_FEC_UNCORR", 0xa0000c8, 64, 0x100000, 12, 0xa0, [(.ro, fptFecUncorr_count)]⟩,
  ⟨"FPT_p_ABORTED", 0xa0000d0, 64, 0x100000, 12, 0xa0, [(.ro, fptAborted_count)]⟩]

/-- The registers of ROUTER. -/
def tableRouter : List RegDesc := [
  ⟨"ROUTER_BLOCK_ID", 0x9000000, 32, 0x0, 1, 0x90, [(.ro, routerBlockId_family), (.ro, routerBlockId_inst), (.ro, routerBlockId_block_code)]⟩,
  ⟨"ROUTER_BLOCK_REV", 0x9000004, 32, 0x0, 1, 0x90, [(.ro, routerBlockRev_stepping), (.ro, routerBlockRev_block_rev)]⟩,
  ⟨"ROUTER_CTL", 0x9000010, 32, 0x0, 1, 0x90, [(.rwc, routerCtl_arb_n), (.rw, routerCtl_hop_limit), (.rw, routerCtl_hold_us)]⟩,
  ⟨"ROUTER_COMMIT", 0x9000014, 32, 0x0, 1, 0x90, [(.wo, routerCommit_commit)]⟩,
  ⟨"ROUTER_EPOCH", 0x9000018, 32, 0x0, 1, 0x90, [(.ro, routerEpoch_inject_epoch), (.ro, routerEpoch_half0), (.ro, routerEpoch_half1), (.w1c, routerEpoch_tbl_refused), (.rw, routerEpoch_drain_us)]⟩,
  ⟨"ROUTER_TBL_ADDR", 0x9000020, 32, 0x0, 1, 0x90, [(.rw, routerTblAddr_dest), (.rw, routerTblAddr_half)]⟩,
  ⟨"ROUTER_TBL_DATA", 0x9000024, 32, 0x0, 1, 0x90, [(.rw, routerTblData_entry)]⟩,
  ⟨"ROUTER_STALE", 0x9000028, 64, 0x0, 1, 0x90, [(.ro, routerStale_count)]⟩,
  ⟨"ROUTER_P_p_CFG", 0x9001000, 32, 0x40, 14, 0x90, [(.rw, routerPCfg_dim), (.rw, routerPCfg_dateline)]⟩,
  ⟨"ROUTER_P_p_OLD", 0x9001004, 32, 0x40, 14, 0x90, [(.ro, routerPOld_count)]⟩,
  ⟨"ROUTER_P_p_FLITS", 0x9001008, 64, 0x40, 14, 0x90, [(.ro, routerPFlits_count)]⟩,
  ⟨"ROUTER_P_p_STALL", 0x9001010, 64, 0x40, 14, 0x90, [(.ro, routerPStall_count)]⟩,
  ⟨"ROUTER_P_p_DROP", 0x9001018, 64, 0x40, 14, 0x90, [(.ro, routerPDrop_count)]⟩,
  ⟨"ROUTER_P_p_DEPTH", 0x9001020, 64, 0x40, 14, 0x90, [(.ro, routerPDepth_vc_n)]⟩]

/-- The registers of NIE. -/
def tableNie : List RegDesc := [
  ⟨"NIE_BLOCK_ID", 0x8000000, 32, 0x0, 1, 0x80, [(.ro, nieBlockId_family), (.ro, nieBlockId_inst), (.ro, nieBlockId_block_code)]⟩,
  ⟨"NIE_BLOCK_REV", 0x8000004, 32, 0x0, 1, 0x80, [(.ro, nieBlockRev_stepping), (.ro, nieBlockRev_block_rev)]⟩,
  ⟨"NIE_CTL", 0x8000010, 32, 0x0, 1, 0x80, [(.rw, nieCtl_cto_ms)]⟩,
  ⟨"NIE_FLOW_BASE", 0x8000018, 64, 0x0, 1, 0x80, [(.rw, nieFlowBase_base)]⟩,
  ⟨"NIE_FLOW_CMD", 0x8000020, 64, 0x0, 1, 0x80, [(.rw, nieFlowCmd_flow), (.rw, nieFlowCmd_job), (.rw, nieFlowCmd_src_node), (.wo, nieFlowCmd_op), (.ro, nieFlowCmd_result), (.ro, nieFlowCmd_busy)]⟩,
  ⟨"NIE_CNT_BASE", 0x8000028, 64, 0x0, 1, 0x80, [(.rw, nieCntBase_base)]⟩,
  ⟨"NIE_RC_USED", 0x8000030, 32, 0x0, 1, 0x80, [(.ro, nieRcUsed_used), (.w1c, nieRcUsed_refused)]⟩,
  ⟨"NIE_LATE_RSP", 0x8000040, 64, 0x0, 1, 0x80, [(.ro, nieLateRsp_count)]⟩,
  ⟨"NIE_DUP", 0x8000048, 64, 0x0, 1, 0x80, [(.ro, nieDup_count)]⟩,
  ⟨"NIE_SPOOF", 0x8000050, 64, 0x0, 1, 0x80, [(.ro, nieSpoof_count)]⟩,
  ⟨"NIE_JOB_j_0", 0x8100000, 32, 0x10, 4096, 0x80, [(.rw, nieJob0_valid), (.rw, nieJob0_tenant)]⟩,
  ⟨"NIE_JOB_j_4", 0x8100004, 32, 0x10, 4096, 0x80, [(.rw, nieJob4_rank_count)]⟩,
  ⟨"NIE_JOB_j_8", 0x8100008, 64, 0x10, 4096, 0x80, [(.rw, nieJob8_rank_ppa)]⟩]

/-- The registers of ADM. -/
def tableAdm : List RegDesc := [
  ⟨"ADM_BLOCK_ID", 0x1800000, 32, 0x0, 1, 0x18, [(.ro, admBlockId_family), (.ro, admBlockId_inst), (.ro, admBlockId_block_code)]⟩,
  ⟨"ADM_BLOCK_REV", 0x1800004, 32, 0x0, 1, 0x18, [(.ro, admBlockRev_stepping), (.ro, admBlockRev_block_rev)]⟩,
  ⟨"ADM_CTL", 0x1800010, 32, 0x0, 1, 0x18, [(.rw, admCtl_enforce)]⟩,
  ⟨"ADM_HOLD", 0x1800014, 32, 0x0, 1, 0x18, [(.ro, admHold_occupancy), (.w1c, admHold_was_full)]⟩,
  ⟨"ADM_FATHOM_CTL", 0x1800018, 32, 0x0, 1, 0x18, [(.rw, admFathomCtl_window_log2), (.rw, admFathomCtl_u3_pct), (.rw, admFathomCtl_u2_pct)]⟩,
  ⟨"ADM_FATHOM", 0x180001c, 32, 0x0, 1, 0x18, [(.ro, admFathom_level), (.ro, admFathom_mem), (.ro, admFathom_eng), (.ro, admFathom_fab), (.ro, admFathom_adm)]⟩,
  ⟨"ADM_MAP_ADDR", 0x1800020, 32, 0x0, 1, 0x18, [(.rw, admMapAddr_index)]⟩,
  ⟨"ADM_MAP_DATA", 0x1800024, 32, 0x0, 1, 0x18, [(.rw, admMapData_host), (.rw, admMapData_valid)]⟩,
  ⟨"ADM_BKT_SEL", 0x1800030, 32, 0x0, 1, 0x18, [(.rw, admBktSel_bucket)]⟩,
  ⟨"ADM_BKT_CMD", 0x1800034, 32, 0x0, 1, 0x18, [(.wo, admBktCmd_op), (.ro, admBktCmd_result), (.ro, admBktCmd_busy)]⟩,
  ⟨"ADM_BKT_RATE", 0x1800038, 32, 0x0, 1, 0x18, [(.rw, admBktRate_rate)]⟩,
  ⟨"ADM_BKT_GUST", 0x180003c, 32, 0x0, 1, 0x18, [(.rw, admBktGust_gust)]⟩,
  ⟨"ADM_BKT_CFG", 0x1800040, 64, 0x0, 1, 0x18, [(.rw, admBktCfg_overhead), (.rw, admBktCfg_target_us), (.rw, admBktCfg_limit_us), (.rw, admBktCfg_reset_mode)]⟩,
  ⟨"ADM_BKT_LEVEL", 0x1800048, 64, 0x0, 1, 0x18, [(.ro, admBktLevel_level)]⟩,
  ⟨"ADM_SERVED", 0x1800080, 64, 0x0, 1, 0x18, [(.ro, admServed_count)]⟩,
  ⟨"ADM_DEFERRED", 0x1800088, 64, 0x0, 1, 0x18, [(.ro, admDeferred_count)]⟩,
  ⟨"ADM_REFUSED", 0x1800090, 64, 0x0, 1, 0x18, [(.ro, admRefused_count)]⟩]

/-- The registers of HIF. -/
def tableHif : List RegDesc := [
  ⟨"HIF_BLOCK_ID", 0x0, 32, 0x0, 1, 0x0, [(.ro, hifBlockId_family), (.ro, hifBlockId_inst), (.ro, hifBlockId_block_code)]⟩,
  ⟨"HIF_BLOCK_REV", 0x4, 32, 0x0, 1, 0x0, [(.ro, hifBlockRev_stepping), (.ro, hifBlockRev_block_rev)]⟩,
  ⟨"HIF_CTL", 0x10, 32, 0x0, 1, 0x0, [(.rw, hifCtl_mctp_write_en)]⟩,
  ⟨"HIF_LINK", 0x14, 32, 0x0, 1, 0x0, [(.ro, hifLink_up), (.ro, hifLink_speed), (.ro, hifLink_width), (.ro, hifLink_flit), (.ro, hifLink_down_count)]⟩,
  ⟨"HIF_ACC_ERR", 0x18, 64, 0x0, 1, 0x0, [(.ro, hifAccErr_offset), (.ro, hifAccErr_cause), (.ro, hifAccErr_write), (.w1c, hifAccErr_valid)]⟩,
  ⟨"HIF_ERR_BASE", 0x100, 64, 0x0, 1, 0x0, [(.rw, hifErrBase_base)]⟩,
  ⟨"HIF_ERR_CTL", 0x108, 32, 0x0, 1, 0x0, [(.rw, hifErrCtl_log2_entries), (.ro, hifErrCtl_tail), (.rw, hifErrCtl_head)]⟩,
  ⟨"HIF_ERR_OVF", 0x110, 32, 0x0, 1, 0x0, [(.w1c, hifErrOvf_dropped)]⟩,
  ⟨"HIF_MBX_CTL", 0x200, 32, 0x0, 1, 0x0, [(.rw, hifMbxCtl_rsp_vector), (.rw, hifMbxCtl_rsp_irq_en)]⟩,
  ⟨"HIF_MBX_STATUS", 0x204, 32, 0x0, 1, 0x0, [(.ro, hifMbxStatus_queued), (.ro, hifMbxStatus_rsp_count), (.ro, hifMbxStatus_claim_held)]⟩,
  ⟨"HIF_MBX_SUBMIT", 0x208, 32, 0x0, 1, 0x0, [(.wo, hifMbxSubmit_go), (.ro, hifMbxSubmit_result)]⟩,
  ⟨"HIF_MBX_POP", 0x20c, 32, 0x0, 1, 0x0, [(.wo, hifMbxPop_pop)]⟩,
  ⟨"HIF_MBX_REQ_n", 0x400, 64, 0x8, 32, 0x0, [(.rw, hifMbxReq_data)]⟩,
  ⟨"HIF_MBX_RSP_n", 0x500, 64, 0x8, 32, 0x0, [(.ro, hifMbxRsp_data)]⟩]

/-- The registers of SEC. -/
def tableSec : List RegDesc := [
  ⟨"SEC_BLOCK_ID", 0x400000, 32, 0x0, 1, 0x4, [(.ro, secBlockId_family), (.ro, secBlockId_inst), (.ro, secBlockId_block_code)]⟩,
  ⟨"SEC_BLOCK_REV", 0x400004, 32, 0x0, 1, 0x4, [(.ro, secBlockRev_stepping), (.ro, secBlockRev_block_rev)]⟩,
  ⟨"SEC_STATUS", 0x400010, 32, 0x0, 1, 0x4, [(.ro, secStatus_rot_state), (.ro, secStatus_fuse_lock), (.ro, secStatus_debug_granted), (.ro, secStatus_trng_ok), (.ro, secStatus_session_ok), (.ro, secStatus_identity_ready), (.ro, secStatus_fleet_valid), (.ro, secStatus_verify_cause)]⟩,
  ⟨"SEC_CTL", 0x400014, 32, 0x0, 1, 0x4, [(.rw, secCtl_mem_enc_en), (.rw, secCtl_mem_class), (.rw, secCtl_dev_class), (.rw, secCtl_link_class)]⟩,
  ⟨"SEC_XMSS", 0x400018, 64, 0x0, 1, 0x4, [(.ro, secXmss_next_index), (.ro, secXmss_floor_window)]⟩,
  ⟨"SEC_LINK_CTL", 0x400020, 32, 0x0, 1, 0x4, [(.rw, secLinkCtl_rekey_ms)]⟩,
  ⟨"SEC_KCMD", 0x400040, 64, 0x0, 1, 0x4, [(.wo, secKcmd_op), (.rw, secKcmd_tenant), (.rw, secKcmd_port), (.rw, secKcmd_tag), (.ro, secKcmd_result), (.ro, secKcmd_busy)]⟩,
  ⟨"SEC_KCMD_ARG0", 0x400048, 64, 0x0, 1, 0x4, [(.rw, secKcmdArg0_offset)]⟩,
  ⟨"SEC_KCMD_ARG1", 0x400050, 64, 0x0, 1, 0x4, [(.rw, secKcmdArg1_ells)]⟩,
  ⟨"SEC_CCQ_BASE", 0x400060, 64, 0x0, 1, 0x4, [(.rw, secCcqBase_base)]⟩,
  ⟨"SEC_CCQ_CTL", 0x400068, 32, 0x0, 1, 0x4, [(.rw, secCcqCtl_log2_entries), (.ro, secCcqCtl_tail), (.rw, secCcqCtl_head)]⟩,
  ⟨"SEC_ERR_BASE", 0x400100, 64, 0x0, 1, 0x4, [(.rw, secErrBase_base)]⟩,
  ⟨"SEC_ERR_CTL", 0x400108, 32, 0x0, 1, 0x4, [(.rw, secErrCtl_log2_entries), (.ro, secErrCtl_tail), (.rw, secErrCtl_head)]⟩,
  ⟨"SEC_ERR_OVF", 0x400110, 32, 0x0, 1, 0x4, [(.w1c, secErrOvf_dropped)]⟩,
  ⟨"SEC_PAIR_n", 0x400200, 64, 0x8, 4, 0x4, [(.wo, secPair_secret)]⟩,
  ⟨"SEC_LINK_p", 0x400300, 32, 0x8, 12, 0x4, [(.ro, secLink_cls), (.ro, secLink_pair_set), (.ro, secLink_keys_live), (.ro, secLink_key_phase), (.ro, secLink_generation)]⟩,
  ⟨"SEC_SLOT_t", 0x401000, 32, 0x4, 4097, 0x4, [(.ro, secSlot_state), (.ro, secSlot_cls), (.ro, secSlot_generation), (.ro, secSlot_wrapped)]⟩]

/-- The registers of MGT. -/
def tableMgt : List RegDesc := [
  ⟨"MGT_BLOCK_ID", 0x300000, 32, 0x0, 1, 0x3, [(.ro, mgtBlockId_family), (.ro, mgtBlockId_inst), (.ro, mgtBlockId_block_code)]⟩,
  ⟨"MGT_BLOCK_REV", 0x300004, 32, 0x0, 1, 0x3, [(.ro, mgtBlockRev_stepping), (.ro, mgtBlockRev_block_rev)]⟩,
  ⟨"MGT_A_STATUS", 0x300010, 32, 0x0, 1, 0x3, [(.ro, mgtAStatus_state), (.ro, mgtAStatus_new_image), (.ro, mgtAStatus_diag_cause), (.ro, mgtAStatus_fails), (.ro, mgtAStatus_gated)]⟩,
  ⟨"MGT_B_STATUS", 0x300018, 32, 0x0, 1, 0x3, [(.ro, mgtBStatus_state), (.ro, mgtBStatus_new_image), (.ro, mgtBStatus_diag_cause), (.ro, mgtBStatus_fails), (.ro, mgtBStatus_gated)]⟩,
  ⟨"MGT_A_CTL", 0x300020, 32, 0x0, 1, 0x3, [(.w1s, mgtACtl_reset), (.rw, mgtACtl_boot_staged)]⟩,
  ⟨"MGT_B_CTL", 0x300028, 32, 0x0, 1, 0x3, [(.w1s, mgtBCtl_reset), (.rw, mgtBCtl_boot_staged)]⟩,
  ⟨"MGT_HANDOFF_BASE", 0x300030, 64, 0x0, 1, 0x3, [(.rw, mgtHandoffBase_base)]⟩,
  ⟨"MGT_ERR_BASE", 0x300100, 64, 0x0, 1, 0x3, [(.rw, mgtErrBase_base)]⟩,
  ⟨"MGT_ERR_CTL", 0x300108, 32, 0x0, 1, 0x3, [(.rw, mgtErrCtl_log2_entries), (.ro, mgtErrCtl_tail), (.rw, mgtErrCtl_head)]⟩,
  ⟨"MGT_ERR_OVF", 0x300110, 32, 0x0, 1, 0x3, [(.w1c, mgtErrOvf_dropped)]⟩]

/-- The registers of PWR. -/
def tablePwr : List RegDesc := [
  ⟨"PWR_BLOCK_ID", 0x200000, 32, 0x0, 1, 0x2, [(.ro, pwrBlockId_family), (.ro, pwrBlockId_inst), (.ro, pwrBlockId_block_code)]⟩,
  ⟨"PWR_BLOCK_REV", 0x200004, 32, 0x0, 1, 0x2, [(.ro, pwrBlockRev_stepping), (.ro, pwrBlockRev_block_rev)]⟩,
  ⟨"PWR_CLAIM", 0x200010, 32, 0x0, 1, 0x2, [(.ro, pwrClaim_claim_a), (.ro, pwrClaim_claim_b), (.ro, pwrClaim_winner), (.ro, pwrClaim_doldrums), (.w1c, pwrClaim_a_displaced), (.w1c, pwrClaim_b_displaced)]⟩,
  ⟨"PWR_CLAIM_CFG", 0x200014, 32, 0x0, 1, 0x2, [(.ro, pwrClaimCfg_level_a), (.ro, pwrClaimCfg_level_b)]⟩,
  ⟨"PWR_CLAIM_A", 0x200018, 32, 0x0, 1, 0x2, [(.rw, pwrClaimA_present)]⟩,
  ⟨"PWR_CLAIM_B", 0x20001c, 32, 0x0, 1, 0x2, [(.rw, pwrClaimB_present)]⟩,
  ⟨"PWR_HB", 0x200020, 32, 0x0, 1, 0x2, [(.wo, pwrHb_beat)]⟩,
  ⟨"PWR_WDOG_CTL", 0x200024, 32, 0x0, 1, 0x2, [(.rw, pwrWdogCtl_timeout), (.rw, pwrWdogCtl_alert_ms)]⟩,
  ⟨"PWR_DVFS", 0x200030, 32, 0x0, 1, 0x2, [(.rw, pwrDvfs_target), (.ro, pwrDvfs_current), (.ro, pwrDvfs_changing), (.ro, pwrDvfs_hw_limited)]⟩,
  ⟨"PWR_LIMITS", 0x200038, 32, 0x0, 1, 0x2, [(.rw, pwrLimits_power_cap_w), (.rw, pwrLimits_icc_limit_a), (.rw, pwrLimits_throttle_c)]⟩,
  ⟨"PWR_PKG", 0x200040, 32, 0x0, 1, 0x2, [(.ro, pwrPkg_power), (.ro, pwrPkg_icc)]⟩,
  ⟨"PWR_TEMP", 0x200048, 32, 0x0, 1, 0x2, [(.ro, pwrTemp_temp), (.ro, pwrTemp_die)]⟩,
  ⟨"PWR_PD_CMD", 0x200050, 32, 0x0, 1, 0x2, [(.rw, pwrPdCmd_domain), (.rw, pwrPdCmd_isOn), (.wo, pwrPdCmd_go), (.ro, pwrPdCmd_result), (.ro, pwrPdCmd_busy)]⟩,
  ⟨"PWR_PD_STATE_0", 0x200058, 64, 0x0, 1, 0x2, [(.ro, pwrPdState0_isOn)]⟩,
  ⟨"PWR_PD_STATE_1", 0x200060, 64, 0x0, 1, 0x2, [(.ro, pwrPdState1_isOn)]⟩,
  ⟨"PWR_THROTTLE", 0x200068, 64, 0x0, 1, 0x2, [(.ro, pwrThrottle_count)]⟩]

/-- The registers of CFG. -/
def tableCfg : List RegDesc := [
  ⟨"CFG_BLOCK_ID", 0x100000, 32, 0x0, 1, 0x1, [(.ro, cfgBlockId_family), (.ro, cfgBlockId_inst), (.ro, cfgBlockId_block_code)]⟩,
  ⟨"CFG_BLOCK_REV", 0x100004, 32, 0x0, 1, 0x1, [(.ro, cfgBlockRev_stepping), (.ro, cfgBlockRev_block_rev)]⟩,
  ⟨"CFG_STATUS", 0x100010, 32, 0x0, 1, 0x1, [(.ro, cfgStatus_phase), (.ro, cfgStatus_image_state), (.ro, cfgStatus_rot_slot), (.ro, cfgStatus_rot_fallback), (.ro, cfgStatus_mgt_slot), (.ro, cfgStatus_mgt_fallback), (.ro, cfgStatus_cfg_slot), (.ro, cfgStatus_committed), (.ro, cfgStatus_failed_stacks)]⟩,
  ⟨"CFG_FEAT_CTL", 0x100060, 32, 0x0, 1, 0x1, [(.wo, cfgFeatCtl_commit), (.ro, cfgFeatCtl_result)]⟩,
  ⟨"CFG_RPT_ADDR", 0x100080, 32, 0x0, 1, 0x1, [(.rw, cfgRptAddr_word)]⟩,
  ⟨"CFG_RPT_DATA", 0x100088, 64, 0x0, 1, 0x1, [(.ro, cfgRptData_data)]⟩,
  ⟨"CFG_FEAT_OFFER_n", 0x100020, 64, 0x8, 4, 0x1, [(.ro, cfgFeatOffer_offer)]⟩,
  ⟨"CFG_FEAT_ACCEPT_n", 0x100040, 64, 0x8, 4, 0x1, [(.rw, cfgFeatAccept_accept)]⟩]

/-- The registers of TEL. -/
def tableTel : List RegDesc := [
  ⟨"TEL_BLOCK_ID", 0x500000, 32, 0x0, 1, 0x5, [(.ro, telBlockId_family), (.ro, telBlockId_inst), (.ro, telBlockId_block_code)]⟩,
  ⟨"TEL_BLOCK_REV", 0x500004, 32, 0x0, 1, 0x5, [(.ro, telBlockRev_stepping), (.ro, telBlockRev_block_rev)]⟩,
  ⟨"TEL_COMMIT", 0x500014, 32, 0x0, 1, 0x5, [(.wo, telCommit_commit)]⟩,
  ⟨"TEL_DUMP_BASE", 0x500020, 64, 0x0, 1, 0x5, [(.rw, telDumpBase_base)]⟩,
  ⟨"TEL_DUMP_CTL", 0x500028, 32, 0x0, 1, 0x5, [(.rw, telDumpCtl_en), (.rw, telDumpCtl_host), (.rw, telDumpCtl_slot_log2), (.rw, telDumpCtl_log2_slots), (.rw, telDumpCtl_period_us)]⟩,
  ⟨"TEL_DUMP_PTR", 0x50002c, 32, 0x0, 1, 0x5, [(.ro, telDumpPtr_tail), (.rw, telDumpPtr_head)]⟩,
  ⟨"TEL_DUMP_OVF", 0x500030, 32, 0x0, 1, 0x5, [(.w1c, telDumpOvf_count)]⟩,
  ⟨"TEL_SAMP_BASE", 0x500040, 64, 0x0, 1, 0x5, [(.rw, telSampBase_base)]⟩,
  ⟨"TEL_SAMP_CTL", 0x500048, 32, 0x0, 1, 0x5, [(.rw, telSampCtl_en), (.rw, telSampCtl_k), (.rw, telSampCtl_filter), (.rw, telSampCtl_log2_entries)]⟩,
  ⟨"TEL_SAMP_PTR", 0x50004c, 32, 0x0, 1, 0x5, [(.ro, telSampPtr_tail), (.rw, telSampPtr_head)]⟩,
  ⟨"TEL_SAMP_OVF", 0x500050, 32, 0x0, 1, 0x5, [(.w1c, telSampOvf_count)]⟩,
  ⟨"TEL_SAMP_SKIP", 0x500054, 32, 0x0, 1, 0x5, [(.w1c, telSampSkip_count)]⟩,
  ⟨"TEL_FLT_f_CTL", 0x501000, 32, 0x20, 16, 0x5, [(.rw, telFltCtl_priv_mask), (.rw, telFltCtl_master_mask), (.rw, telFltCtl_class_mask), (.rw, telFltCtl_tenant_en), (.rw, telFltCtl_tenant)]⟩,
  ⟨"TEL_FLT_f_LO", 0x501008, 64, 0x20, 16, 0x5, [(.rw, telFltLo_lo)]⟩,
  ⟨"TEL_FLT_f_HI", 0x501010, 64, 0x20, 16, 0x5, [(.rw, telFltHi_hi)]⟩,
  ⟨"TEL_SEL_n", 0x510000, 32, 0x4, 4096, 0x5, [(.rwc, telSel_event), (.rwc, telSel_inst), (.rwc, telSel_filter), (.rwc, telSel_enable), (.rwc, telSel_dump)]⟩,
  ⟨"TEL_CNT_n", 0x520000, 64, 0x8, 4096, 0x5, [(.ro, telCnt_value), (.ro, telCnt_overflow), (.ro, telCnt_bad_sel), (.wo, telCnt_clear)]⟩]

/-- Every register of PF0 BAR0. -/
def table : List RegDesc :=
  tableQmg ++ tableNme ++ tableXtu ++ tableDma ++ tableSmc ++ tableXbar ++ tableRas ++ tableMsl ++ tablePar ++ tableDir ++ tableFpt ++ tableRouter ++ tableNie ++ tableAdm ++ tableHif ++ tableSec ++ tableMgt ++ tablePwr ++ tableCfg ++ tableTel

end Reg

end Sys2Proof.Machine
end

