-- ==== Sys2Proof/Machine/State.lean ====
section
/-!
DEFINITION. Machine/State.lean: the state of the block as plain data, the reasons a step can stop, and the state after reset.
-/
namespace Sys2Proof.Machine

/-- Status codes of a completion (spec 03, R64). -/
inductive Status where
  | done
  | part
  | busy
  | revoked
  | tenantGone
  | versionConflict
  | unmapped
  | accessDenied
  | poisoned
  | guardMismatch
  | timeout
  | badDescriptor
  | busError
  | replayed
  | fatal
  | numeric
deriving DecidableEq, Repr

/-- Kind of a faulting address (spec 03, R61 table): none, PVA, PPA, region ID, host IOVA. -/
inductive FaultKind where
  | none
  | pva
  | ppa
  | region
  | iova
deriving DecidableEq, Repr

/-- How a request, tile or descriptor ended: status, faulting address, its kind and the hint (spec 03, R64). -/
structure Fin where
  st : Status
  addr : Nat
  kind : FaultKind
  hint : Nat
deriving DecidableEq, Repr

/-- A memory key as loaded: the slot and the number of loads the slot had seen (spec 17, R356: no load repeats a key). -/
structure MemKey where
  slot : Nat
  serial : Nat
deriving DecidableEq, Repr

/-- What a stored codeword holds beside its 64 plaintext bytes (spec 11, R235): poison, the key it was written under
(`enc` is set exactly when there is one), the difference of its guard from the guard of its bytes, the symbols in error, and the flag of
the zero codeword. The format byte and the check symbols follow from these. -/
structure GranMeta where
  poison : Bool
  key : Option MemKey
  gxor : Nat
  errs : SymErr
  zero : Bool := false
deriving DecidableEq, Repr

/-- A parity delta not yet applied (spec 11, R253): the physical granule written and the acknowledgement that waits. -/
structure Delta where
  gran : Nat
  ackId : Nat
deriving DecidableEq, Repr

/-- Pool memory (spec 10, 11): bytes by physical address, codeword metadata by physical granule, zero-map bits by block,
map granules lost under R256 (`zlost`), groups of 512 blocks whose unlisted granules are poisoned and whose unlisted bits are
clear (`pdef`; elsewhere an unlisted bit is set), the lines of the two zero-map cache slices by slice × 1024 + set, most recently used
first, each with its dirty mark (R230), pending parity deltas, the capacity mode with the stack set aside as hot spare, and lost
channels (stack × 32 + channel). -/
structure MemState where
  bytes : NMap Byte
  gran : NMap GranMeta
  zmap : NMap Bool
  zlost : NMap Bool
  zcache : NMap (List (Nat × Bool))
  deltas : List Delta
  prot : Bool
  spare : Nat
  lostCh : NMap Bool
  pdef : NMap Bool
deriving DecidableEq, Repr

/-- One arbiter instance (spec 10, R226 to R228): rotating pointer, grant counter, the waits of present requesters, and the wait hints
that the last decision gave its losers. -/
structure ArbState where
  ptr : Nat
  cnt : Nat
  waits : NMap Nat
  hints : NMap Nat := []
deriving DecidableEq, Repr

/-- An extent record (spec 02, R32); `rsv` tells that a reserved bit was set. -/
structure ExtRec where
  pvaStart : Nat
  length : Nat
  valid : Bool
  ppaEll : Nat
  rd : Bool
  wr : Bool
  rmw : Bool
  coherent : Bool
  zeroFill : Bool
  hostBacked : Bool
  place : Place
  regionRef : Bool
  keyTenant : Nat
  revEpoch : Nat
  hostEll : Nat
  pasid : Nat
  rsv : Bool
deriving DecidableEq, Repr

/-- A translated byte: its PPA, placement, key_tenant, coherent and zero_fill attributes, the tenant's own record and its
PPA (the extent that counts the work in flight). -/
structure Xl where
  ppa : Nat
  place : Place
  keyTenant : Nat
  coherent : Bool
  zeroFill : Bool
  ext : ExtRec
  recPpa : Nat
deriving DecidableEq, Repr

/-- A region record (spec 02, R38). -/
structure RgnRec where
  opn : Bool
  owner : Nat
  version : Nat
  setPpa : Nat
  setCount : Nat
  length : Nat
deriving DecidableEq, Repr

/-- A queue context (spec 03, R51). -/
structure QCtx where
  state : Nat
  sqHost : Bool
  cqHost : Bool
  sqLog2 : Nat
  cqLog2 : Nat
  tenant : Nat
  qprio : Nat
  predCount : Nat
  predBase : Nat
  sqBase : Nat
  cqBase : Nat
  pasid : Nat
  intMode : Nat
  intVector : Nat
  modCount : Nat
  modTime : Nat
  notifyNode : Nat
  sqTail : Nat
  sqHead : Nat
  cqTail : Nat
  cqHead : Nat
  inflight : Nat
  errCause : Nat
  rsv : Bool
deriving DecidableEq, Repr

/-- A predicate slot (spec 03, R67): value, pending mark, and the status of a failed producer. -/
structure PredSlot where
  value : Nat
  pending : Bool
  failed : Option Status
deriving DecidableEq, Repr

/-- Where a fetched descriptor stands. -/
inductive DPhase where
  /-- waits for its predicate slot (R68) -/
  | waitPred
  /-- a MOE_COMBINE that waits for its recorded slots (R144) -/
  | waitSlots
  /-- in the admission holding queue before it starts (R326) -/
  | admHold
  /-- may execute -/
  | ready
  /-- in the NME wait list, or waiting for a DMA channel with room (R88, R194) -/
  | waitList
  /-- queued on a DMA channel (R194) -/
  | dmaQueued
  /-- tiles, pieces or remote work outstanding -/
  | running
  /-- suspended in translation (R184, R42, R357) -/
  | held
  /-- data written, waits for acknowledgements or the flush read (R60, R204) -/
  | draining
deriving DecidableEq, Repr

/-- A version of a region that a descriptor or request is bound to (spec 02, R42). -/
structure Bind where
  region : Nat
  version : Nat
deriving DecidableEq, Repr

/-- What the pre-pass of an operator read (spec 05 R105, spec 06 R123): its entries and its second array. -/
structure Pre where
  xs : List Nat
  ys : List Nat
deriving DecidableEq, Repr

/-- A partial state that a tile sends to its accumulating engine (spec 04, spec 05 R115, spec 06 R129, R134): tile, unit of
output, count, values as FP32 or element bits with their poison marks, the flags raised, and whether all of it is poisoned, so that the
unit's whole output is (R95). -/
structure Part where
  tile : Nat
  unit : Nat
  cnt : Nat
  vals : List (Nat × Bool)
  fl : Nat
  bad : Bool := false
deriving DecidableEq, Repr

/-- A descriptor from fetch to its final record (spec 03): `pre` the pre-pass, the tiles where some were split further under R80 (number, number before
the split, path of halves; empty where none was), tiles
outstanding, tiles that loaded and contributed, the lowest tile that carries the status, flags and acknowledgements, the granules it has
written in part (PVA ÷ 64), and whether a tile of it has gone to another node. -/
structure Desc where
  uid : Nat
  queue : Nat
  raw : Nat
  opcode : Nat
  tenant : Nat
  reqId : Nat
  phase : DPhase
  bytesDone : Nat
  fin : Fin
  cls : Nat
  fathom : Nat
  halfDone : Bool
  resv : Nat
  slots : List Nat
  waits : List Nat
  binds : List Bind
  pre : Pre
  leaves : List (Nat × Nat × Nat)
  nextTile : Nat
  tilesOut : List Nat
  tilesOk : List Nat
  faultTile : Nat
  touched : List Nat
  spread : Bool
  stopping : Bool
  numFlags : Nat
  acksOut : Nat
  parts : List Part
  failedWaits : List (Nat × Status)
  charged : Bool
deriving DecidableEq, Repr

/-- A completion record whose CQ slot in host memory is not translated yet (spec 08 R181): queue, function, PASID, address, bytes, and
whether it interrupts at once. -/
structure CqOut where
  queue : Nat
  fn : Nat
  pasid : Nat
  addr : Nat
  data : List Byte
  irq : Bool
deriving DecidableEq, Repr

/-- QMG (spec 03): descriptors in progress, reservations and moderation by queue, predicate slots,
the queues that are not DISABLED, the tenant of every context that QMG has written, contexts that could not be read and stand in QMG
alone (R72, R73), records that wait for a host translation, in order, the fetch arbiter. -/
structure QmgState where
  descs : List Desc
  nextUid : Nat
  cqResv : NMap Nat
  modCnt : NMap Nat
  modOldest : NMap Nat
  slots : NMap PredSlot
  live : List Nat
  tenantOf : NMap Nat
  lost : NMap QCtx
  cqOut : List CqOut
  arb : ArbState
deriving DecidableEq, Repr

/-- An extent-cache entry (spec 08, R172). -/
structure CacheEnt where
  tenant : Nat
  coarse : Bool
  span : Nat
  ext : ExtRec
  index : Nat
  recPpa : Nat
deriving DecidableEq, Repr

/-- A holder of leases or of work under a translation: an engine, a DMA channel (engine × 8 + channel), or a request of this
node (spec 08, R177, R189; spec 09). -/
inductive Holder where
  | engine (n : Nat)
  | dma (c : Nat)
  | request (id : Nat)
deriving DecidableEq, Repr

/-- A lease (spec 08, R177; spec 04, R90): holder, the descriptors not yet over whose work has used it, tenant, record, the record's table
address, the node's epoch at the grant, stale mark. -/
structure Lease where
  holder : Holder
  uids : List Nat
  tenant : Nat
  ext : ExtRec
  recPpa : Nat
  epoch : Nat
  stale : Bool
deriving DecidableEq, Repr

/-- Work counted in an extent's in-flight count (spec 08, R189). -/
structure Flight where
  tenant : Nat
  start : Nat
  holder : Holder
  uid : Nat
  tile : Nat
  fwdWrite : Bool
deriving DecidableEq, Repr

/-- An invalidation in progress (spec 08, R178). -/
structure Inval where
  tag : Nat
  tenant : Nat
  lo : Nat
  count : Nat
  epoch : Nat
  toNotify : List Holder
  waiting : List Holder
  stopped : Nat
  reqs : List Nat
  ats : Option (Nat × Nat)
deriving DecidableEq, Repr

/-- Who waits for a REVOKE: a command tag or a descriptor. -/
inductive RevWaiter where
  | tag (t : Nat)
  | desc (uid : Nat)
deriving DecidableEq, Repr

/-- A REVOKE in progress (spec 08, R189). -/
structure Revoke where
  tenant : Nat
  recPpa : Nat
  pvaStart : Nat
  length : Nat
  startNs : Nat
  waiters : List RevWaiter
  aborted : Nat
  fwdWrite : Bool
deriving DecidableEq, Repr

/-- A fault on a host-backed ell that is not resident (R184): local ell, host IOVA, tenant, PVA ell, record, PASID, backing ell, its
placement and key_tenant. -/
structure MigFault where
  ell : Nat
  iova : Nat
  tenant : Nat
  pvaEll : Nat
  recPpa : Nat
  pasid : Nat
  ppaEll : Nat
  place : Place
  key : Nat
deriving DecidableEq, Repr

/-- Why an item waits in translation. -/
inductive HeldWhy where
  /-- a host-backed ell is not resident (R184) -/
  | migrate (m : MigFault)
  /-- the set of a region is being learned from its home: a bound version's, or the current one (R42) -/
  | set (region : Nat) (version : Option Nat)
  /-- the tenant's key slot is being loaded (R357) -/
  | key (tenant : Nat)
  /-- the zero map is not ready (R254) -/
  | zmap
  /-- the flight table has no slot (R189) -/
  | slot
deriving DecidableEq, Repr

/-- What waits: a request, a descriptor, or a tile. -/
inductive HeldItem where
  | req (id : Nat)
  | desc (uid : Nat)
  | tile (uid num : Nat)
deriving DecidableEq, Repr

/-- A held item, with all it waits for: it goes on once nothing is left. -/
structure Held where
  whys : List HeldWhy
  item : HeldItem
deriving DecidableEq, Repr

/-- One entry of the region set cache (spec 02, R42; spec 08, R174): `count` records make the set whole, and a withdrawn entry
binds nothing new. -/
structure SetEnt where
  region : Nat
  version : Nat
  length : Nat
  count : Nat
  recs : List ExtRec
  withdrawn : Bool
deriving DecidableEq, Repr

/-- A PUBLISH whose swap is done and whose withdrawals or drain go on (spec 02, R43). -/
structure Publish where
  region : Nat
  replaced : Nat
  newVersion : Nat
  waiting : List Nat
  drain : Bool
  uid : Option Nat
  reply : Option Pkt
deriving DecidableEq, Repr

/-- A PUBLISH that waits for another of its region (spec 02, R43): a descriptor of this node, or a CMD_FWD; `port` is its arbiter
position (spec 10, R226). -/
structure PubWait where
  region : Nat
  raw : Nat
  tenant : Nat
  port : Nat
  uid : Option Nat
  reply : Option Pkt
deriving DecidableEq, Repr

/-- A replaced version of a region at its home to which work may still be bound (spec 02, R43), with its set; `far` are the other nodes
that learned it and are not yet known to have drained (log 47). -/
structure LiveVer where
  region : Nat
  version : Nat
  setPpa : Nat
  setCount : Nat
  length : Nat
  far : List Nat
deriving DecidableEq, Repr

/-- A forwarded write that timed out (spec 08, R178 step 5): its tenant, ell and the end of late_drain. -/
structure LateWrite where
  tenant : Nat
  ell : Nat
  untilNs : Nat
deriving DecidableEq, Repr

/-- XTU (spec 02, 08): extent cache, invalidation epoch, leases, flights, invalidations and revokes in progress, held items,
migration-ring entries by index, region set cache with
sets still arriving and versions replaced while a set was asked for, publishes in progress and waiting, the arbiter of each region's
PUBLISH order at its home (R226), live older versions, nodes that learned a region's set, tenants
whose table is lost, timed-out writes, and the command ring's reserved entries. -/
structure XtuState where
  cache : List CacheEnt
  epoch : Nat
  leases : List Lease
  flights : List Flight
  invals : List Inval
  revokes : List Revoke
  held : List Held
  migEnts : NMap MigFault
  sets : List SetEnt
  setPart : List SetEnt
  replacedTo : NMap Nat
  publishes : List Publish
  pubQ : List PubWait
  pubArbs : NMap ArbState
  live : List LiveVer
  nodesOf : List (Nat × Nat)
  tblLost : NMap Bool
  late : List LateWrite
  ccqResv : Nat
  ccqTail : Nat
  ccqHead : Nat
deriving DecidableEq, Repr

/-- Hardware counts of a ring the SR2 writes (spec 01, R441): 24-bit write and read counts. -/
structure RingCnt where
  wr : Nat
  rd : Nat
deriving DecidableEq, Repr

/-- What a channel scheduler answers a request it has carried out: the acknowledgement, the granules read, and the status with which the
requester goes on (spec 10; spec 01 R15). -/
structure MemAck where
  ackId : Nat
  grans : List Gran
  st : Status
deriving DecidableEq, Repr

/-- A stack's controller and a channel's scheduler (spec 10, R220 to R229): arbiters by stack × 32 + channel, open rows
by bank of a channel, postponed refreshes and the last refresh by bank, failed retrainings by channel, temperature and time of the last
training by channel, the last acknowledgement of each channel, the arbiters of the bridge (0 west to east, 1 east to west) and of the
XBAR links into stacks (2 + stack), and the arbiter of granule updates (R107). -/
structure SmcState where
  arbs : NMap ArbState
  openRow : NMap (Nat × Nat)
  owed : NMap Nat
  lastRefresh : NMap Nat
  trainFails : NMap Nat
  trainTemp : NMap Nat
  trainAt : NMap Nat
  out : NMap MemAck
  xbar : NMap ArbState
  granArb : ArbState
deriving DecidableEq, Repr

/-- RAS, MSL and PAR (spec 11): log age, repair queues by stack, repair tables by channel, walk positions, the window of
ue_limit by stack, the field repair list, the failed member being reconstructed, whether the spare
was promoted for it, its rebuild pointers by channel, members lost for good, and the number that the spare took at a
start (R398). -/
structure RasState where
  logAge : List Nat
  repairQ : NMap (List Nat)
  repairTab : NMap (List Nat)
  walk : NMap Nat
  walkStart : NMap Nat
  ueWindow : NMap (Nat × Nat)
  repairList : List Nat
  failedMember : Option Nat
  promoted : Bool
  rebuilt : NMap Nat
  lostMember : Option Nat
  startFor : Option Nat
deriving DecidableEq, Repr

/-- An erase in progress (spec 17, R373): tag, first local offset, ells, and the placement under which its ells lie. -/
structure Erase where
  tag : Nat
  offset : Nat
  ells : Nat
  place : Place
deriving DecidableEq, Repr

/-- A tenant's removal in progress (spec 17, R372): stopped descriptors. -/
structure Removal where
  tenant : Nat
  stopped : Nat
deriving DecidableEq, Repr

/-- Link keys of one direction of a port (spec 17, R361): the secret, both nonces, nodes and generation, or none. -/
structure LinkKey where
  secret : Nat
  nonceTx : Nat
  nonceRx : Nat
  tx : Nat
  rx : Nat
  gen : Nat
deriving DecidableEq, Repr

/-- A reservation record of the identity key (spec 17, R364): whether it is valid, its index and its sequence number. -/
structure XmssRec where
  valid : Bool
  reserved : Nat
  seq : Nat
deriving DecidableEq, Repr

/-- SEC (spec 17): loads seen by each slot, pairing secrets by port, transmit and receive keys by port, erases, removals,
the identity key's reserved and next index and its records A and B, SEC commands
outstanding, slots whose load waits, and the image slot the root of trust runs. -/
structure SecState where
  serial : NMap Nat
  pair : NMap Nat
  txKey : NMap LinkKey
  rxKey : NMap LinkKey
  erases : List Erase
  removals : List Removal
  reservedTo : Nat
  nextIdx : Nat
  recA : XmssRec
  recB : XmssRec
  cmds : Nat
  pendingLoad : List Nat
  rotSlot : Nat
deriving DecidableEq, Repr

/-- A flow record (spec 14, R316). -/
structure Flow where
  job : Nat
  src : Nat
  next : Nat
  bitmap : Nat
deriving DecidableEq, Repr

/-- A sent request that waits for its response (spec 14, R318): key, type, deadline, and the work it serves. -/
structure Outst where
  dst : Nat
  tenant : Nat
  reqId : Nat
  ptype : Nat
  deadlineNs : Nat
  ppa : Nat
  isWrite : Bool
  /-- the request of this node that was forwarded -/
  client : Option Nat
  uid : Option Nat
  part : Nat
  /-- the ell that a forwarded write of a tile or piece was translated through -/
  ell : Option Nat := none
deriving DecidableEq, Repr

/-- An entry of the recent-completions cache (spec 14, R319), with the fault address of the original record (R64). -/
structure RcEnt where
  tenant : Nat
  reqId : Nat
  ptype : Nat
  src : Nat
  st : Nat
  hint : Nat
  bytesDone : Nat
  value : Nat
  addr : Nat
  kind : FaultKind
  writtenNs : Nat
deriving DecidableEq, Repr

/-- A part of a request that one node serves (spec 14, R446): its PVA, its bytes and its translation. -/
structure Piece where
  pva : Nat
  len : Nat
  xl : Xl
deriving DecidableEq, Repr

/-- A request that has passed the NIE and is not yet answered (spec 01 R18, spec 14 R445, R446): input port, packet, class and
wait in microseconds, versions bound, pieces left, and what the served pieces came to, with the highest Fathom level of the nodes that
served them. -/
structure ReqRun where
  id : Nat
  port : Nat
  pkt : Pkt
  cls : Nat
  waitUs : Nat
  binds : List Bind
  pieces : List Piece
  served : List Piece
  fin : Fin
  bytes : Nat
  data : List Gran
  value : Nat
  stored : Bool
  fathom : Nat
deriving DecidableEq, Repr

/-- NIE (spec 14, R313 to R320). -/
structure NieState where
  flows : NMap Flow
  reorder : List (Nat × Pkt)
  outst : List Outst
  rc : List RcEnt
  reqs : List ReqRun
  nextId : Nat
deriving DecidableEq, Repr

/-- A packet at the router (spec 14, R305 to R309): number, packet with the DATA flits that have arrived, the output channel it is routed
to, flits already sent, the port it came in by, whether its rest is ABORT flits, when its header arrived, and how long its output
port was in RETRAIN meanwhile. -/
structure RtrPkt where
  id : Nat
  pkt : Pkt
  out : Option Nat
  sent : Nat
  inPort : Nat
  abort : Bool
  sinceNs : Nat
  retrainNs : Nat
deriving DecidableEq, Repr

/-- The ROUTER (spec 14, R305 to R311): table halves, packets in each input region by port × 8 + channel, packets that hold or wait for the
flits of an output channel likewise, the drain deadline with the sender of the flip, arbiters by output channel and by output port,
the next packet number. -/
structure RtrState where
  half0 : NMap Nat
  half1 : NMap Nat
  inq : NMap (List RtrPkt)
  outq : NMap (List RtrPkt)
  drain : Option (Nat × Nat)
  chanArbs : NMap ArbState
  flitArbs : NMap ArbState
  nextId : Nat
deriving DecidableEq, Repr

/-- Device-wide state (spec 19, 17, 21): the node's fabric address, engine slots that MGT recorded as failed
(stack × 9 + slot, spec 04 R95), T0 of the last start on the model's clock, and the address straps sampled then, GPIO_1 above GPIO_0
(spec 21, R434). -/
structure DevState where
  node : Nat
  badSlots : List Nat
  t0 : Nat
  straps : Nat
deriving DecidableEq, Repr

/-- A token bucket (spec 15, R322): parameters and the level in units of 2^-20 byte as it stood at time `asOf`. -/
structure Bkt where
  rate : Nat
  gust : Nat
  ovh : Nat
  target : Nat
  limit : Nat
  resetMode : Bool
  level : Int
  asOf : Nat
deriving DecidableEq, Repr

/-- What waits at admission (spec 15, R326, R327): a request, a doorbell, a descriptor, a tile, a DMA piece
of an engine. -/
inductive AdmItem where
  | req (id : Nat)
  | door (p : Pkt)
  | desc (uid : Nat)
  | tile (uid num : Nat)
  | piece (engine : Nat)
deriving DecidableEq, Repr

/-- An entry of the holding queue, or of the items that are decided afresh: its time, tenant, class and wait in microseconds. -/
structure HoldEnt where
  pos : Nat
  atNs : Nat
  tenant : Nat
  cls : Nat
  waitUs : Nat
  host : Nat
  charge : Nat
  item : AdmItem
deriving DecidableEq, Repr

/-- ADM (spec 15): buckets, the host map by entry, the holding queue, items decided afresh, samples newest first. -/
structure AdmState where
  bkts : NMap Bkt
  map : NMap Nat
  hold : List HoldEnt
  redo : List HoldEnt
  samples : List UtilSample
  arb : ArbState
deriving DecidableEq, Repr

/-- A tile (spec 04 R80): number, anchor PVA, the ranges it reads, the ranges it reads of its own destination, the ranges it
writes, its result bytes, its anchor length and the operator's own arguments. `phase` is 1, or 2 for work that starts when every
phase-1 tile has retired. -/
structure Tile where
  num : Nat
  anchor : Nat
  reads : List (Nat × Nat)
  selfReads : List (Nat × Nat)
  writes : List (Nat × Nat)
  bytes : Nat
  alen : Nat
  arg : List Nat
  phase : Nat
deriving DecidableEq, Repr

/-- A granule write that a tile issues in step 5: granule-aligned PVA, its translation, the granule as formed in step 4, and, where only a
part of it is written (R102), that part by offset with the poison it derives from. -/
structure GWrite where
  pva : Nat
  xl : Xl
  gran : Gran
  parts : List (Nat × List Byte) := []
  poison : Bool := false
deriving DecidableEq, Repr

/-- A tile placed on an engine (spec 04 R81, R82): its descriptor, engine, step (0 queued, 2 translated, 3 loaded, 5 writing),
translations by ell, what it reads beside its own ranges once its first operands are known, loaded granules, the first poisoned input,
writes not yet issued, partial states not yet combined, result bytes, and when the step began. -/
structure TileRec where
  uid : Nat
  tile : Tile
  engine : Nat
  step : Nat
  xl : NMap Xl
  more : List (Nat × Nat)
  view : NMap Gran
  poisonAt : Option Nat
  pend : List GWrite
  parts : List Part
  bytes : Nat
  since : Nat
deriving DecidableEq, Repr

/-- Tiles sent to another node as one batch (spec 04 R83). -/
structure Batch where
  uid : Nat
  node : Nat
  reqId : Nat
  tiles : List Nat
  sent : Bool
deriving DecidableEq, Repr

/-- NME (spec 04): placed tiles, batches waiting for room or response, the wait list in arrival order, the class whose turn
comes next, each engine's arbiter, contexts by engine × 16 + slot, the spare slots that are
activating with their engine, the next request ID of this node's own, the request packets of batches run for other nodes (R83), and the
tenant for whose context each engine's generator was last seeded (R152). -/
structure NmeState where
  tiles : List TileRec
  batches : List Batch
  waitQ : List Nat
  rr : Nat
  arbs : NMap ArbState
  ctxs : NMap Nat
  activating : NMap Nat
  nextReq : Nat
  remote : NMap Pkt
  seeded : NMap Nat
deriving DecidableEq, Repr

/-- A migration command on a DMA engine's channel 7 (spec 09, R208). -/
structure Mig where
  engine : Nat
  index : Nat
  ppa : Nat
  iova : Nat
  pasid : Nat
deriving DecidableEq, Repr

/-- A transfer on the management channel (spec 09 R193): its engine, host IOVA and bytes, and whether it is a TEL dump. -/
structure MgtXfer where
  engine : Nat
  addr : Nat
  data : List Byte
  dump : Bool
deriving DecidableEq, Repr

/-- A half point passed with barrier set (spec 09 R205): the bytes done then, the pieces done then, and the flush read that confirms them
for a host destination. -/
structure DmaHalf where
  bytes : Nat
  pieces : Nat
  flush : Option Nat
deriving DecidableEq, Repr

/-- What a DMA engine runs: a descriptor or a migration command, with its next piece to write and the next to translate and read
(R198: a channel reads ahead), whether the latter has been charged, translations of the pieces in between, the piece that fails
with its error-ring cause and end, and a progress record that waits for confirmation. -/
structure DmaRun where
  ch : Nat
  uid : Nat
  piece : Nat
  ahead : Nat
  mig : Option Mig
  suspended : Bool
  charged : Bool
  half : Option DmaHalf
  xl : NMap (NMap Xl)
  fail : Option (Nat × Nat × Fin)
deriving DecidableEq, Repr

/-- An outstanding host read (spec 09 R204, R206): tag, DMA engine (32 + engine for its migration), piece, address, length, whether it is
a flush read, and the bytes that have arrived with the poisoned-TLP mark. -/
structure HostRead where
  tag : Nat
  engine : Nat
  piece : Nat
  addr : Nat
  len : Nat
  flush : Bool
  got : Option (List Byte × Bool)
deriving DecidableEq, Repr

/-- DMA (spec 09): pending descriptors by engine × 8 + channel, what each engine runs (its migration command at 32 + engine), pending
migrations, pending transfers of the management channels, the result FIFO, descriptors waiting for channel room, host reads, each
engine's arbiter. -/
structure DmaState where
  chans : NMap (List Nat)
  run : NMap DmaRun
  migs : List Mig
  mgts : List MgtXfer
  results : List (Nat × Nat)
  waiting : List Nat
  reads : List HostRead
  nextTag : Nat
  arbs : NMap ArbState
deriving DecidableEq, Repr

/-- A cached ATS translation (spec 08 R181): function, PASID, host page, rights. -/
structure AtsEnt where
  fn : Nat
  pasid : Nat
  page : Nat
  rd : Bool
  wr : Bool
deriving DecidableEq, Repr

/-- Who waits for a host translation (spec 08 R180, R181): a DMA engine's transfer or its migration, or the SQ or CQ of a queue. -/
inductive AtsWho where
  | dma (engine : Nat)
  | mig (engine : Nat)
  | sq (queue : Nat)
  | cq (queue : Nat)
deriving DecidableEq, Repr

/-- A host translation that is awaited: function, PASID, host page, whether it is to be written, and who waits. -/
structure AtsWait where
  fn : Nat
  pasid : Nat
  page : Nat
  wr : Bool
  who : AtsWho
  /-- the page request sent for it: index and deadline -/
  pri : Option (Nat × Nat)
deriving DecidableEq, Repr

/-- What HIF reports through AER (spec 16, R346), of the events that reach the model as commands. -/
inductive AerErr where
  | poisonedTlp
  | completionTimeout
  | unsupportedRequest
deriving DecidableEq, Repr

/-- HIF (spec 16): AER errors logged by function (R346), ready after start, link up, the Revision ID of PF0 and PF1 (R9), what the host has configured (Max Payload Size, Max
Read Request Size, Relaxed Ordering enabled, ATS and PRI enabled; R49, R203, R334), virtual functions that exist, functions in D3hot,
queues whose host writes are discarded after a function reset (R341), the ATS cache, translations awaited. -/
structure HifState where
  aer : List (Nat × AerErr)
  ready : Bool
  linkUp : Bool
  revId : Nat
  mps : Nat
  mrrs : Nat
  roEn : Bool
  atsPri : Bool
  vfs : Nat
  d3 : List Nat
  mute : List Nat
  ats : List AtsEnt
  waits : List AtsWait
  nextPri : Nat
deriving DecidableEq, Repr

/-- A directory entry that is not I (spec 12, R260): state 1 SH or 2 EXC, coarse format, F pointer valid, agents (pointer 0
first), coarse groups, key_tenant and placement of the grant. -/
structure DirEnt where
  st : Nat
  coarse : Bool
  fValid : Bool
  ptrs : List Nat
  groups : Nat
  key : Nat
  place : Place
deriving DecidableEq, Repr

/-- A request at the directory (spec 12, R267, R268, R278): a caching request 0x40 to 0x42 of an agent, a plain read or write
request, or a back-invalidation for the range command (`op` 0, 1 plain read, 2 plain write). -/
structure DirReq where
  line : Nat
  op : Nat
  agent : Nat
  req : Option Nat
  pkt : Option Pkt
  key : Nat
  place : Place
  /-- the extent and the ell that this node translated a caching request through -/
  via : Option (Nat × Nat) := none
  /-- the arbiter position by which it reached its bank: a ROUTER input port, or 14 for this node's own units (spec 10, R226) -/
  port : Nat := 14
deriving DecidableEq, Repr

/-- What a transaction does once its snoop responses are in. -/
inductive DirNext where
  /-- read memory and send GRANT_DATA or GRANT in this state to the requester -/
  | grant (state : Nat) (withData : Bool)
  /-- the data was forwarded; only COMP_ACK is left -/
  | forwarded
  /-- the line becomes I -/
  | toI
  /-- serve the plain request -/
  | serve
deriving DecidableEq, Repr

/-- An open transaction (spec 12, R267): agents whose snoop response is missing, agents whose writeback is awaited, whether
COMP_ACK is missing, its opening time, the state granted, what follows, the entry as it stood, and agents whose writeback came
before their response. -/
structure DirTxn where
  req : DirReq
  snp : List Nat
  wb : List Nat
  comp : Bool
  startNs : Nat
  granted : Nat
  next : DirNext
  old : Option DirEnt
  wbGot : List Nat
  compNs : Nat
deriving DecidableEq, Repr

/-- A set being flushed (spec 12, R277): bank × 32,768 + set, the agents that have not answered or whose counted writebacks are not
all in, the writebacks received from each agent, and the wb_count of each SNP_RSP. -/
structure DirFlush where
  set : Nat
  waiting : List Nat
  got : NMap Nat
  due : NMap Nat
deriving DecidableEq, Repr

/-- DIR (spec 12): entries by line (local offset ÷ 64), recency by set (most recent first), transactions, held lines with
the end of their hold, waiting requests in order, reservations as (set, agent, line), flushes, the range command's range, and the arbiter of each bank. -/
structure DirState where
  ents : NMap DirEnt
  lru : NMap (List Nat)
  txns : List DirTxn
  holds : NMap Nat
  queue : List DirReq
  resv : List (Nat × Nat × Nat)
  flushes : List DirFlush
  binv : Option (Nat × Nat)
  arbs : NMap ArbState
deriving DecidableEq, Repr

/-- What the block says to the host through HIF (spec 16): requests, interrupts, messages and answers, in order. -/
inductive HostMsg where
  | memWrite (fn pasid addr : Nat) (data : List Byte) (poisoned ro : Bool)
  | memRead (fn pasid addr len tag : Nat)
  | flushRead (fn pasid addr tag : Nat)
  | msix (fn vector : Nat)
  | translationRequest (fn pasid addr : Nat)
  | pageRequest (fn pasid addr index : Nat)
  | invalCompletion (tag : Nat)
  | unsupported (off : Nat)
  | readData (off value : Nat)
  | mctp (source : Nat) (msg : List Byte)
  | spdmVersion (v : Nat)
  | spdmCapabilities (measurements signatures : Bool)
  | spdmAlgorithms (sha3bits : Nat)
  | spdmMeasurements (blocks : List (Nat × List Byte))
  | spdmBusy
  | readyDrs
  | interruptPairs
deriving DecidableEq, Repr

/-- A sensor's or another part's attribution of an event (spec 20, R421, R422): privilege 0 tenant, 1 fabric manager, 2 the SR2 itself;
master and class by the bit of their mask; tenant; PPA; and whether a confidential tenant hides it. -/
structure TelAttr where
  priv : Nat
  master : Nat
  cls : Nat
  tenant : Nat
  ppa : Option Nat
  hidden : Bool
deriving DecidableEq, Repr

/-- A tagged item in flight (spec 20, R427): a descriptor or a request by number, its attribution, what its record says, stamp 0 and the
stamps reached since. -/
structure TelTag where
  desc : Bool
  id : Nat
  attr : TelAttr
  job : Nat
  kind : Nat
  reqId : Nat
  addr : Nat
  fwd : Bool
  source : Nat
  t0 : Nat
  stamps : NMap Nat
deriving DecidableEq, Repr

/-- TEL (spec 20): enabled counters, the attribution of the work in hand, the fraction of an engine cycle
counted, the next dump's number, periods skipped, and tagged items. -/
structure TelState where
  live : List Nat
  attr : TelAttr
  frac : Nat
  seq : Nat
  skipped : Nat
  tags : List TelTag
deriving DecidableEq, Repr

/-- A mailbox entry (spec 16, R348, R349): number, source, message, the pair that took it (0 none, 1 A, 2 B, 3 the root of trust), and
its response once answered. -/
structure MbxEnt where
  id : Nat
  source : Nat
  msg : List Byte
  taken : Nat
  rsp : Option (List Byte)
deriving DecidableEq, Repr

/-- The management mailbox (spec 16): entries in queue order, PF0's response FIFO by entry number, the next number. -/
structure MbxState where
  queue : List MbxEnt
  fifo : List Nat
  nextId : Nat
deriving DecidableEq, Repr

/-- CFG (spec 19): the flash (an unlisted byte reads 0xFF), records read, build identifier, report entries, entries dropped, the
fields that have no register, by field × 256 + instance, and the flash sectors that RECOVERY_WRITE has erased. -/
structure CfgState where
  flash : NMap Byte
  records : Nat
  build : Nat
  entries : List (Nat × Nat)
  dropped : Nat
  fields : NMap Nat
  erased : List Nat
deriving DecidableEq, Repr

/-- The fuses that change or that a rule reads (spec 17, R352; spec 04, R93): svn bits burned, fuse option L, the highest
burned xmss_floor bit, fleet_valid, and engine slots that failed manufacturing test (stack × 9 + slot). -/
structure FuseState where
  svn : Nat
  lock : Bool
  floor : Nat
  fleet : Bool
  slots : List Nat
deriving DecidableEq, Repr

/-- PWR (spec 18, 21): heartbeats of this period, since when there is no winner, the two status outputs, whether the hardware
thermal throttle holds point 5, the lowest point hardware steps have left in force and the point held after an AVSBus failure,
the step in progress, power-loop runs in a row with the average low, the domain being switched, and the levels that GPIO_2 to GPIO_15 are
driven to, each in its pin's bit (R434; none: inputs with a pull-down, as after reset). -/
structure PwrState where
  hb : Nat
  dolSince : Option Nat
  alert : Bool
  trip : Bool
  thermalHold : Bool
  hwPoint : Nat
  avsHold : Option Nat
  step : Option Nat
  lowRuns : Nat
  pd : Option (Nat × Bool)
  gpio : Option Nat
deriving DecidableEq, Repr

/-- MGT (spec 18): the highest point allowed, the sequence of the last handoff record written and of the last that each pair has seen,
a handover in progress (whether pair B gives up control), whether the thermal loop forbids a rise, the image slot each pair booted, and
the slot that counts as active. -/
structure MgtState where
  ceiling : Nat
  seqLast : Nat
  seqA : Nat
  seqB : Nat
  handover : Option Bool
  hot : Bool
  imgA : Nat
  imgB : Nat
  active : Nat
deriving DecidableEq, Repr

/-- One fabric port's link (spec 13): next number to assign, unacknowledged frames (oldest first), the replay in progress as (number it
began at, next number to resend), when the last progress was, replays without progress; expected number, last number received in
order, whether REPLAY_REQ for the expected number is out and since when; LCTL flits to send as (code, value); the peer's and this
end's xoff bits; flit slots since the last VZ flit; the last measurements; the open transmit segment (flits placed, frames, additional
data, plaintext), segment counters, a key change in progress; the receive segment's frames, the start and count of tag failures;
the packets being received by channel; when the present state was entered; a CONFIG that waits for a random value; this end's and
the peer's nonce; the last frame sent; since when the key has been in use. -/
structure PortState where
  txNext : Nat
  replay : List Frame
  rpt : Option (Nat × Nat)
  progressNs : Nat
  runs : Nat
  exp : Nat
  ackNum : Option Nat
  asked : Option Nat
  lctl : List (Nat × Nat)
  xoffIn : Nat
  xoffOut : Nat
  vzGap : Nat
  rtts : List Nat
  segFlits : Nat
  segFrames : Nat
  segAad : List Byte
  segText : List Byte
  txCnt : Nat
  rekey : Bool
  segRx : List Frame
  rxCnt : Nat
  rxPhase : Bool
  tagStart : Nat
  tagFails : Nat
  rxIn : NMap Nat
  sinceNs : Nat
  cfgWait : Option CfgInfo
  nonce : Nat
  peerNonce : Nat
  lastTx : Option Frame
  keyNs : Nat
deriving DecidableEq, Repr

/-- The whole machine. -/
structure State where
  pending : List Instr
  nowNs : Nat
  free : Nat
  regs : NMap Nat
  shadow : NMap Nat
  rings : NMap RingCnt
  dev : DevState
  mem : MemState
  smc : SmcState
  ras : RasState
  xtu : XtuState
  qmg : QmgState
  adm : AdmState
  nme : NmeState
  dma : DmaState
  hif : HifState
  dir : DirState
  sec : SecState
  nie : NieState
  rtr : RtrState
  ports : NMap PortState
  mbx : MbxState
  cfg : CfgState
  fuse : FuseState
  pwr : PwrState
  mgt : MgtState
  tel : TelState
  toHost : List HostMsg
deriving DecidableEq, Repr

/-- Why a command stops the machine. -/
inductive Fault where
  /-- DEVICE_START while a sensor reads below 0 °C: R439 says that start is not supported there, and gives no effect. Raised by DEVICE_START
  alone; safe, since the model stops where the hardware may go on. -/
  | startBelowZero
deriving DecidableEq, Repr

/-- Why a command has no meaning. -/
inductive Refusal where
  /-- a command of the table that has no meaning yet; raised by no command; safe -/
  | notModelled (mnemonic : String)
deriving DecidableEq, Repr

/-- An arbiter that has granted nothing. -/
def State.arbReset : ArbState := { ptr := 0, cnt := 0, waits := [] }

/-- The state under a device reset (R393, R212): every register at its reset value, every queue and table empty, the fuses and the flash
of a part that nothing has written (DESIGN CHOICE, log 64). -/
def State.reset : State where
  pending := []
  nowNs := 0
  free := 0
  regs := []
  shadow := []
  rings := []
  dev := ⟨0, [], 0, 0⟩
  mem := { bytes := [], gran := [], zmap := [], zlost := [], zcache := [], deltas := [], prot := false, spare := 11, lostCh := [], pdef := [] }
  smc := { arbs := [], openRow := [], owed := [], lastRefresh := [], trainFails := [], trainTemp := [], trainAt := [], out := [],
           xbar := [], granArb := State.arbReset }
  ras := { logAge := [], repairQ := [], repairTab := [], walk := [], walkStart := [], ueWindow := [], repairList := [], failedMember := none,
           promoted := false, rebuilt := [], lostMember := none, startFor := none }
  xtu := { cache := [], epoch := 0, leases := [], flights := [], invals := [], revokes := [], held := [], migEnts := [], sets := [],
           setPart := [], replacedTo := [], publishes := [], pubQ := [], pubArbs := [], live := [], nodesOf := [], tblLost := [], late := [],
           ccqResv := 0, ccqTail := 0, ccqHead := 0 }
  qmg := { descs := [], nextUid := 0, cqResv := [], modCnt := [], modOldest := [], slots := [], live := [], tenantOf := [],
           lost := [], cqOut := [], arb := State.arbReset }
  adm := { bkts := [], map := [], hold := [], redo := [], samples := [], arb := State.arbReset }
  nme := { tiles := [], batches := [], waitQ := [], rr := 0, arbs := [], ctxs := [], activating := [], nextReq := 0, remote := [], seeded := [] }
  dma := { chans := [], run := [], migs := [], mgts := [], results := [], waiting := [], reads := [], nextTag := 0, arbs := [] }
  hif := { aer := [], ready := false, linkUp := false, revId := 0x10, mps := 128, mrrs := 512, roEn := true, atsPri := false, vfs := 0, d3 := [], mute := [], ats := [], waits := [], nextPri := 0 }
  dir := { ents := [], lru := [], txns := [], holds := [], queue := [], resv := [], flushes := [], binv := none, arbs := [] }
  sec := { serial := [], pair := [], txKey := [], rxKey := [], erases := [], removals := [], reservedTo := 0, nextIdx := 0,
           recA := ⟨false, 0, 0⟩, recB := ⟨false, 0, 0⟩, cmds := 0, pendingLoad := [], rotSlot := 0 }
  nie := { flows := [], reorder := [], outst := [], rc := [], reqs := [], nextId := 0 }
  rtr := { half0 := [], half1 := [], inq := [], outq := [], drain := none, chanArbs := [], flitArbs := [], nextId := 0 }
  ports := []
  mbx := { queue := [], fifo := [], nextId := 0 }
  cfg := { flash := [], records := 0, build := 0, entries := [], dropped := 0, fields := [], erased := [] }
  fuse := { svn := 0, lock := false, floor := 0, fleet := false, slots := [] }
  pwr := { hb := 0, dolSince := none, alert := false, trip := false, thermalHold := false, hwPoint := 0, avsHold := none, step := none,
           lowRuns := 0, pd := none, gpio := none }
  mgt := { ceiling := 0, seqLast := 0, seqA := 0, seqB := 0, handover := none, hot := false, imgA := 0, imgB := 0, active := 0 }
  tel := { live := [], attr := ⟨2, 0, 5, 0, none, false⟩, frac := 0, seq := 0, skipped := 0, tags := [] }
  toHost := []

end Sys2Proof.Machine
end

