-- ==== Sys2Proof/Machine/Ops.lean ====
section
/-!
DEFINITION. Machine/Ops.lean: the named operations over registers, free values, rings and host messages that every
family shares.
-/
namespace Sys2Proof.Machine
open Sys2Proof

/-- Outcome of a meaning. -/
abbrev Out := Host.Outcome State Fault Refusal

/-! Registers -/

/-- The reset value of copy n of a field (R3). -/
def fldReset (f : Fld) (n : Nat) : Nat :=
  if f.byIndex then n % 2 ^ f.width else if f.each = [] then f.reset else f.each.getD n f.reset

/-- The key of copy n of a field: its bit address in PF0 BAR0. -/
def fldKey (f : Fld) (n : Nat) : Nat := (f.off + f.stride * n) * 8 + f.lo

/-- The value in force of copy n of a field. -/
def getF (s : State) (f : Fld) (n : Nat := 0) : Nat := ngetD (fldReset f n) s.regs (fldKey f n)

/-- A one-bit field as a Bool. -/
def getB (s : State) (f : Fld) (n : Nat := 0) : Bool := getF s f n == 1

/-- Set copy n of a field to the low bits of v. -/
def setF (s : State) (f : Fld) (v : Nat) (n : Nat := 0) : State :=
  { s with regs := nset (fldReset f n) s.regs (fldKey f n) (v % 2 ^ f.width) }

/-- Set a one-bit field. -/
def setB (s : State) (f : Fld) (b : Bool) (n : Nat := 0) : State := setF s f (b2n b) n

/-! TEL's view of the counters (spec 20 R416 to R422) -/

/-- The event that a counting register shows to TEL, with the units that one count of the event is worth (R420). -/
def telOf (f : Fld) : Option (Nat × Nat) :=
  if f = Reg.smcRdBytes_count then some (0x10, 64)
  else if f = Reg.smcWrBytes_count then some (0x11, 64)
  else if f = Reg.smcZreads_count then some (0x12, 1)
  else if f = Reg.smcUrg3_count then some (0x13, 1)
  else if f = Reg.nmeTiles_count then some (0x20, 1)
  else if f = Reg.xtuHits_count then some (0x30, 1)
  else if f = Reg.xtuMisses_count then some (0x31, 1)
  else if f = Reg.routerPFlits_count then some (0x60, 1)
  else if f = Reg.routerPDrop_count then some (0x63, 1)
  else if f = Reg.fptReplays_count then some (0x70, 1)
  else if f = Reg.fptCrcErr_count then some (0x71, 1)
  else if f = Reg.dmaBytes_count then some (0x80, 1)
  else if f = Reg.admServed_count then some (0x40, 1)
  else if f = Reg.admDeferred_count then some (0x41, 1)
  else if f = Reg.admRefused_count then some (0x42, 1)
  else if f = Reg.dirLookups_count then some (0x50, 1)
  else if f = Reg.dirRetry_count then some (0x51, 1)
  else if f = Reg.dirBinv_count then some (0x52, 1)
  else if f = Reg.rasStkCe_count then some (0xA0, 1)
  else if f = Reg.rasStkUe_count then some (0xA1, 1)
  else none

/-- Instances of an event, 0 for a reserved code; an event without instances has one (R419, R420). -/
def telInsts (code : Nat) : Nat :=
  if code = 0x01 ∨ code = 0x02 ∨ code = 0x23 ∨ code = 0x30 ∨ code = 0x31 ∨ code = 0x32 ∨ (0x40 ≤ code ∧ code ≤ 0x43)
    ∨ code = 0x90 ∨ code = 0x91 then 1
  else if (0x10 ≤ code ∧ code ≤ 0x15) ∨ code = 0xA0 ∨ code = 0xA1 then 12
  else if 0x20 ≤ code ∧ code ≤ 0x22 then 96
  else if 0x50 ≤ code ∧ code ≤ 0x52 then 8
  else if code = 0x60 ∨ code = 0x61 ∨ code = 0x63 then 14
  else if code = 0x62 then 70
  else if code = 0x70 ∨ code = 0x71 then 12
  else if code = 0x80 then 32
  else 0

/-- An event is attributed to a request or descriptor (kind R of R420). -/
def telAttributed (code : Nat) : Bool :=
  (0x10 ≤ code && code ≤ 0x13) || code == 0x20 || code == 0x22 || code == 0x23 || (0x30 ≤ code && code ≤ 0x32)
    || (0x40 ≤ code && code ≤ 0x42) || code == 0x50 || code == 0x51 || code == 0x80 || code == 0x90 || code == 0x91

/-- An attribution matches filter set f (R421). -/
def telMatches (s : State) (f : Nat) (a : TelAttr) : Bool :=
  f == 0 ||
    (bitOf (getF s Reg.telFltCtl_priv_mask f) a.priv && bitOf (getF s Reg.telFltCtl_master_mask f) a.master
      && bitOf (getF s Reg.telFltCtl_class_mask f) a.cls
      && (!getB s Reg.telFltCtl_tenant_en f || getF s Reg.telFltCtl_tenant f == a.tenant)
      && (getF s Reg.telFltHi_hi f == 0 ||
        (match a.ppa with
         | some p => decide (getF s Reg.telFltLo_lo f ≤ p) && decide (p < getF s Reg.telFltHi_hi f)
         | none => false)))

/-- Add n to counter k: 48 bits, and overflow when it wraps (R416). -/
def telAdd (s : State) (k n : Nat) : State :=
  let v := getF s Reg.telCnt_value k + n
  let s := if v < 2 ^ 48 then s else setF s Reg.telCnt_overflow 1 k
  setF s Reg.telCnt_value v k

/-- Count n of an event at an instance in every enabled counter that selects it (R416, R419, R421, R422). -/
def telEvent (s : State) (code inst n : Nat) : State :=
  s.tel.live.foldl (fun s k =>
    if getF s Reg.telSel_event k = code ∧ (getF s Reg.telSel_inst k = 0xFF ∨ getF s Reg.telSel_inst k = inst)
        ∧ (!telAttributed code || (!s.tel.attr.hidden && telMatches s (getF s Reg.telSel_filter k) s.tel.attr)) then telAdd s k n
    else s) s

/-- The work in hand belongs to a tenant's request or descriptor: master and class by the bit of their masks (R421); a confidential
tenant hides it (R422). -/
def attrib (s : State) (master cls tenant : Nat) : State :=
  { s with tel := { s.tel with attr := ⟨0, master, cls, tenant, none, getB s Reg.xtuTenant0_confidential tenant⟩ } }

/-- The work in hand is the SR2's own (R421). -/
def attribOwn (s : State) (master : Nat) : State :=
  { s with tel := { s.tel with attr := ⟨2, master, 5, 0, none, false⟩ } }

/-- The work in hand has come to a PPA (R421). -/
def attribPpa (s : State) (ppa : Nat) : State :=
  { s with tel := { s.tel with attr := { s.tel.attr with ppa := some ppa } } }

/-! Time -/

/-- A port's link before any instance. -/
def port0 : PortState :=
  { txNext := 0, replay := [], rpt := none, progressNs := 0, runs := 0, exp := 0, ackNum := none, asked := none, lctl := [], xoffIn := 0,
    xoffOut := 0, vzGap := 16, rtts := [], segFlits := 0, segFrames := 0, segAad := [], segText := [], txCnt := 0, rekey := false,
    segRx := [], rxCnt := 0, rxPhase := false, tagStart := 0, tagFails := 0, rxIn := [], sinceNs := 0, cfgWait := none, nonce := 0,
    peerNonce := 0, lastTx := none, keyNs := 0 }

/-- The link of port p. -/
def portAt (s : State) (p : Nat) : PortState := ngetD port0 s.ports p

/-- Packets in the input region of a port and channel. -/
def inAt (s : State) (k : Nat) : List RtrPkt := ngetD [] s.rtr.inq k

/-- Flits that a port holds for a channel: its input region, and frames whose segment is not yet verified (R289, R301). -/
def heldFlits (s : State) (p vc : Nat) : Nat :=
  ((inAt s (p * 8 + vc)).map (fun r => 1 + r.pkt.data.length)).sum
  + (((portAt s p).segRx.flatMap (·.flits)).filter (fun f => decide (1 ≤ f.ty ∧ f.ty ≤ 3) && f.vc == vc)).length

/-- Engine clock in MHz at an operating point (spec 18, R385). -/
def pointMHz (p : Nat) : Nat := [1800, 1700, 1600, 1400, 1200, 1000].getD p 1000

/-- The engine clock now. -/
def engMHz (s : State) : Nat := pointMHz (getF s Reg.pwrDvfs_current)

/-- Time events of TEL over d nanoseconds in which nothing else changes (R420): nanoseconds and engine cycles, the holding queue's depth,
engines with a tile in steps 3 to 5, and the flits held at the router's inputs. -/
def countTime (s : State) (d : Nat) : State :=
  if s.tel.live = [] then s
  else
    let all := d * engMHz s + s.tel.frac
    let cyc := all / 1000
    let s := telEvent (telEvent { s with tel := { s.tel with frac := all % 1000 } } 0x01 0 d) 0x02 0 cyc
    let s := telEvent s 0x43 0 (s.adm.hold.length * cyc)
    let s := ((List.range 96).filter (fun e => s.nme.tiles.any (fun t => t.engine == e && decide (2 ≤ t.step)))).foldl
      (fun s e => telEvent s 0x21 e cyc) s
    ((List.range 14).flatMap (fun p => (List.range 4).map (fun vc => (p, vc)))).foldl
      (fun s x => telEvent s 0x62 (5 * x.1 + x.2) (heldFlits s x.1 x.2 * cyc)) s

/-- The model's clock comes to t; it never goes back. -/
def advance (s : State) (t : Nat) : State :=
  if t ≤ s.nowNs then s else { countTime s (t - s.nowNs) with nowNs := t }

/-! Counting -/

/-- Add d to a field that wraps at its width; TEL counts the event it stands for. -/
def bump (s : State) (f : Fld) (d : Nat := 1) (n : Nat := 0) : State :=
  let s := match telOf f with
    | some (code, per) => telEvent s code n (d / per)
    | none => s
  setF s f (getF s f n + d) n

/-- Add d to a field that saturates at its width. -/
def bumpSat (s : State) (f : Fld) (d : Nat := 1) (n : Nat := 0) : State := setF s f (satAdd f.width (getF s f n) d) n

/-- The pending-value field of a table whose copy n has bit address k, with n (R5). -/
def rwcAt (tbl : List RegDesc) (k : Nat) : Option (Fld × Nat) :=
  tbl.findSome? (fun r => r.fields.findSome? (fun e =>
    if e.1 = .rwc ∧ e.2.off * 8 + e.2.lo ≤ k then
      let d := k - (e.2.off * 8 + e.2.lo)
      let n := if e.2.stride = 0 then 0 else d / (e.2.stride * 8)
      if fldKey e.2 n = k ∧ n < r.count then some (e.2, n) else none
    else none))

/-- Apply every pending value of a block's table (R5). -/
def commitTable (s : State) (tbl : List RegDesc) : State :=
  s.shadow.foldl (fun s e =>
    match rwcAt tbl e.1 with
    | some (f, n) => { setF s f e.2 n with shadow := ndel s.shadow e.1 }
    | none => s) s

/-! Free values -/

/-- One free number (log 2). -/
def fresh (s : State) : Nat × State := (Config.freeNat s.free, { s with free := s.free + 1 })

/-- n free bytes (log 2). -/
def freshBytes : Nat → State → List Byte × State
  | 0, s => ([], s)
  | n + 1, s =>
    let r := freshBytes n { s with free := s.free + 1 }
    (Config.freeByte s.free :: r.1, r.2)

/-! Host messages -/

/-- Say one thing to the host. -/
def emit (s : State) (m : HostMsg) : State := { s with toHost := s.toHost ++ [m] }

/-! Statuses -/

/-- The code of a status (spec 03, R64). -/
def Status.code : Status → Nat
  | .done => 0 | .part => 1 | .busy => 2 | .revoked => 3 | .tenantGone => 4 | .versionConflict => 5
  | .unmapped => 6 | .accessDenied => 7 | .poisoned => 8 | .guardMismatch => 9 | .timeout => 10
  | .badDescriptor => 11 | .busError => 12 | .replayed => 13 | .fatal => 14 | .numeric => 15

/-- The status of a code; a reserved code is read as failed, here as FATAL (R8: never posted). -/
def Status.ofCode : Nat → Status
  | 0 => .done | 1 => .part | 2 => .busy | 3 => .revoked | 4 => .tenantGone | 5 => .versionConflict
  | 6 => .unmapped | 7 => .accessDenied | 8 => .poisoned | 9 => .guardMismatch | 10 => .timeout
  | 11 => .badDescriptor | 12 => .busError | 13 => .replayed | 15 => .numeric | _ => .fatal

/-- The place of a status in the order of R65; DONE, VERSION_CONFLICT and REPLAYED stand outside it. -/
def Status.rank : Status → Nat
  | .fatal => 1 | .badDescriptor => 2 | .tenantGone => 3 | .accessDenied => 4 | .revoked => 5 | .unmapped => 6
  | .poisoned => 7 | .busError => 7 | .guardMismatch => 8 | .numeric => 9 | .timeout => 10 | .busy => 11 | .part => 12
  | .versionConflict => 13 | .replayed => 13 | .done => 14

/-- The code of a fault kind (spec 03, completion record). -/
def FaultKind.code : FaultKind → Nat
  | .none => 0 | .pva => 1 | .ppa => 2 | .region => 3 | .iova => 4

/-- The fault kind of a code. -/
def FaultKind.ofCode : Nat → FaultKind
  | 1 => .pva | 2 => .ppa | 3 => .region | 4 => .iova | _ => .none

/-- DONE with no fault and no hint. -/
def Fin.ok : Fin := ⟨.done, 0, .none, 0⟩

/-- A status alone. -/
def Fin.of (st : Status) : Fin := ⟨st, 0, .none, 0⟩

/-- A status with a faulting PVA. -/
def Fin.atPva (st : Status) (a : Nat) : Fin := ⟨st, a, .pva, 0⟩

/-- A status with a faulting PPA. -/
def Fin.atPpa (st : Status) (a : Nat) : Fin := ⟨st, a, .ppa, 0⟩

/-- Of two ends the one that stands first in R65; the first one on a tie. -/
def Fin.worse (a b : Fin) : Fin := if b.st.rank < a.st.rank then b else a

/-- Feature bit n of the committed vector (spec 02, R49, R50); none is in force before the commit. -/
def feature (s : State) (n : Nat) : Bool := getB s Reg.cfgStatus_committed && bitOf (getF s Reg.cfgFeatAccept_accept (n / 64)) (n % 64)

end Sys2Proof.Machine
end

