-- ==== Sys2Proof/Machine/Arb.lean ====
section
/-!
DEFINITION. Machine/Arb.lean: the shared arbiter (spec 10 R226 to R229).
-/
namespace Sys2Proof.Machine
open Sys2Proof

/-- An arbiter before its first decision. -/
def arb0 : ArbState := { ptr := 0, cnt := 0, waits := [] }

/-- The first of some positions in ascending order from the rotating pointer, wrapping (R226). -/
def fromPtr (r ptr : Nat) (ps : List Nat) : Option Nat :=
  match ps.filter (fun p => decide (ptr ≤ p)) with
  | p :: rest => some (rest.foldl min p)
  | [] => match ps.filter (fun p => decide (p < r)) with
    | p :: rest => some (rest.foldl min p)
    | [] => none

/-- One decision among requests (position, rank) of an instance of R positions with a reserved grant every n (R226, R227):
the winner and the arbiter after it. -/
def arbCore (r n : Nat) (a : ArbState) (reqs : List (Nat × Nat)) : Option Nat × ArbState :=
  let wait := fun p => ngetD 0 a.waits p
  let reserved := a.cnt % n == n - 1
  let best := (reqs.map (fun q => if reserved then wait q.1 else q.2)).foldl max 0
  let cands := (reqs.filter (fun q => (if reserved then wait q.1 else q.2) == best)).map (·.1)
  match fromPtr r a.ptr cands with
  | none => (none, { a with waits := [] })
  | some w =>
    let ws := reqs.foldl (fun m q => nput m q.1 (if q.1 = w then 1 else wait q.1 + 1)) []
    (some w, { ptr := if reserved then a.ptr else (w + 1) % r, cnt := (a.cnt + 1) % n, waits := ws })

/-- The decisions until each requester's grant, by position, as if every requester kept asking; k is the next one (R228). -/
def hintGo : Nat → Nat → Nat → Nat → ArbState → List (Nat × Nat) → NMap Nat → NMap Nat
  | 0, _, _, _, _, _, m => m
  | fuel + 1, k, r, n, a, reqs, m =>
    let c := arbCore r n a reqs
    match c.1 with
    | none => m
    | some w => hintGo fuel (k + 1) r n c.2 reqs (if (nfind m w).isSome then m else nput m w k)

/-- One decision, with the wait hint of every loser: (n + 1) × t cycles, saturating at 63, n the grants before its own (R228). The
transfer length t is one cycle (log 123). -/
def arbPick (r n : Nat) (a : ArbState) (reqs : List (Nat × Nat)) : Option Nat × ArbState :=
  let c := arbCore r n a reqs
  match reqs with
  | [] => c
  | [_] => c
  | _ =>
    let hs := hintGo 63 1 r n c.2 reqs []
    (c.1, { c.2 with hints := (reqs.filter (fun q => c.1 ≠ some q.1)).foldl (fun m q => nput m q.1 (min 63 (ngetD 63 hs q.1))) [] })

/-- An instance at which requests arrive one at a time grants the one that is there (R226, R227). -/
def arbOne (n : Nat) (a : ArbState) (pos : Nat) : ArbState := (arbPick 64 n a [(pos, 0)]).2

/-- A requester that stops requesting loses its wait: its next run of requests begins at zero (R227). -/
def arbStay (a : ArbState) (present : List Nat) : ArbState := { a with waits := a.waits.filter (fun e => present.contains e.1) }

/-- Reset the grant counter of every instance in a map (R229). -/
def zeroCnts (m : NMap ArbState) : NMap ArbState :=
  m.foldl (fun l e => nset arb0 l e.1 { e.2 with cnt := 0 }) []

/-- N of an arbiter from its N − 1 field; 0 acts as 1 (XBAR_ARB_CTL, DIR_CTL). -/
def arbN (s : State) (f : Fld) : Nat := max 1 (getF s f) + 1

end Sys2Proof.Machine
end

