-- ==== Sys2Proof/Machine/Adm.lean ====
section
/-!
DEFINITION. Machine/Adm.lean: admission: token buckets, the decision, the holding queue (spec 15 R322 to R330).
-/
namespace Sys2Proof.Machine
open Sys2Proof

/-- Units of a level per byte (R322). -/
def lvlUnit : Nat := 2 ^ 20

/-- A bucket that nothing has written: full at the reset Gust, unlimited (R322). -/
def bkt0 : Bkt := ⟨0, 64, 64, 20, 200, false, 65536 * 1048576, 0⟩

/-- The Gust in level units; 0 KiB acts as 1. -/
def bktCap (b : Bkt) : Int := (max 1 b.gust * 1024 * lvlUnit : Nat)

/-- The level at a time: every nanosecond adds rate ÷ 1,000 bytes, rounded down to the unit, up to the Gust (R322). -/
def bktLevel (b : Bkt) (now : Nat) : Int :=
  min (bktCap b) (b.level + (((now - b.asOf) * (b.rate * lvlUnit / 1000) : Nat) : Int))

/-- Bucket i. -/
def bktAt (s : State) (i : Nat) : Bkt := ngetD bkt0 s.adm.bkts i

/-- Set bucket i. -/
def setBkt (s : State) (i : Nat) (b : Bkt) : State := { s with adm := { s.adm with bkts := nset bkt0 s.adm.bkts i b } }

/-- The tenant bucket of tenant t (R322). -/
def tenBkt (t : Nat) : Nat := 1024 + t

/-- The host bucket of a map entry (R323). -/
def hostBkt (s : State) (entry : Nat) : Nat :=
  let v := ngetD 0 s.adm.map entry
  if bitOf v 15 then v % 1024 else 0

/-- The map entry of work of a queue, by the owner of its doorbell page (R323). -/
def queueEntry (s : State) (q : Nat) : Nat :=
  let o := getF s Reg.qmgDbpage_owner (q / 64)
  if o = 1 then 16384 else if o = 2 then 16385 + getF s Reg.qmgDbpage_vf (q / 64) else 16449

/-- A debit of a limited bucket; an unlimited one is never debited (R322, R325). -/
def debit (s : State) (i : Nat) (c : Nat) : State :=
  let b := bktAt s i
  if b.rate = 0 then s else setBkt s i { b with level := bktLevel b s.nowNs - (c * lvlUnit : Nat), asOf := s.nowNs }

/-- The wait in nanoseconds that a bucket asks for a charge (R325). -/
def bktWait (s : State) (i c : Nat) : Nat :=
  let b := bktAt s i
  if b.rate = 0 then 0 else
    let d : Int := (c * lvlUnit : Nat) - bktLevel b s.nowNs
    if d ≤ 0 then 0 else cdiv (d.toNat * 1000) (b.rate * lvlUnit)

/-- A decision of R325: class and wait in nanoseconds. -/
structure Decision where
  cls : Nat
  waitNs : Nat
deriving DecidableEq, Repr

/-- Decide a charge of `base` bytes, with the overhead of each bucket when `ovh` is set, and debit it unless refused
(R325, R326). -/
def decideCharge (s : State) (host tenant base : Nat) (ovh : Bool) : Decision × State :=
  if !getB s Reg.admCtl_enforce then (⟨0, 0⟩, s) else
    let ids := [host, tenBkt tenant]
    let c := fun i => base + (if ovh then (bktAt s i).ovh else 0)
    let w := (ids.map (fun i => bktWait s i (c i))).foldl max 0
    let lim := (ids.map (bktAt s)).filter (fun b => b.rate ≠ 0)
    let t := ((lim.map (·.target)).foldl min 65535) * 1000
    let d := ((lim.map (fun b => max b.limit b.target)).foldl min 65535) * 1000
    let full := decide (8192 ≤ s.adm.hold.length)
    let cls := if w = 0 then 0 else if full then 2 else if w ≤ t then 0 else if w ≤ d then 1 else 2
    if cls = 2 then (⟨2, w⟩, s) else (⟨cls, w⟩, ids.foldl (fun s i => debit s i (c i)) s)

/-- Count a decision (ADM_SERVED, ADM_DEFERRED, ADM_REFUSED). -/
def countCls (s : State) (cls : Nat) : State :=
  if cls = 0 then bump s Reg.admServed_count else if cls = 1 then bump s Reg.admDeferred_count else bump s Reg.admRefused_count

/-- Whole microseconds of a wait, rounded up. -/
def ceilUs (w : Nat) : Nat := cdiv w 1000

/-- The lowest holding-queue position that is free (R226). -/
def freePos (s : State) : Nat :=
  ((List.range (s.adm.hold.length + 1)).find? (fun i => s.adm.hold.all (fun h => h.pos ≠ i))).getD 0

/-- ADM_HOLD.occupancy shows the holding queue. -/
def holdView (s : State) : State := setF s Reg.admHold_occupancy s.adm.hold.length

/-- Put work into the holding queue (R326). -/
def holdWork (s : State) (tenant host charge : Nat) (d : Decision) (it : AdmItem) : State :=
  let e : HoldEnt := ⟨freePos s, s.nowNs + d.waitNs, tenant, d.cls, ceilUs d.waitNs, host, charge, it⟩
  let s := holdView { s with adm := { s.adm with hold := s.adm.hold ++ [e] } }
  if s.adm.hold.length = 8192 then setB s Reg.admHold_was_full true else s

/-- Keep refused work of a started descriptor to be decided afresh (R327). -/
def redoWork (s : State) (tenant host charge : Nat) (d : Decision) (it : AdmItem) : State :=
  { s with adm := { s.adm with redo := s.adm.redo
      ++ [⟨0, s.nowNs + ceilUs d.waitNs * 1000, tenant, 1, ceilUs d.waitNs, host, charge, it⟩] } }

/-- Charge work that runs inside one command: waits pass at once on the clock, a refusal is waited out and taken as DEFERRED
(DESIGN CHOICE, log 30). -/
def chargeInline (s : State) (host tenant base : Nat) : Nat × State :=
  let r := decideCharge s host tenant base false
  if r.1.cls = 2 then
    let s := advance r.2 (r.2.nowNs + ceilUs r.1.waitNs * 1000)
    let s := [host, tenBkt tenant].foldl (fun s i => debit s i base) s
    (1, countCls s 1)
  else
    (r.1.cls, countCls (advance r.2 (r.2.nowNs + r.1.waitNs)) r.1.cls)

end Sys2Proof.Machine
end

