-- ==== Sys2Proof/Machine/Flags.lean ====
section
/-!
DEFINITION. Machine/Flags.lean: the numeric exception flags of an operator (spec 07, R159, R160).
-/
namespace Sys2Proof.Machine
open Sys2Proof

/-- invalid: bit 0 (R159). -/
def flInvalid : Nat := 1
/-- overflow: bit 1. -/
def flOverflow : Nat := 2
/-- underflow: bit 2. -/
def flUnderflow : Nat := 4
/-- inexact: bit 3. -/
def flInexact : Nat := 8
/-- NaN operand: bit 4. -/
def flNan : Nat := 16

/-- Union of flags. -/
def flOr (a b : Nat) : Nat := Nat.lor a b

end Sys2Proof.Machine
end

