-- ==== Sys2Proof/Machine/Numerics.lean ====
section
/-!
DEFINITION. Machine/Numerics.lean: number formats, rounding, FP32 arithmetic and the special functions
(spec 07, R146 to R159). A finite value is an exact dyadic number, so every rounding is explicit.
-/
namespace Sys2Proof.Machine
open Sys2Proof

/-- A number: NaN, an infinity, or (-1)^neg × m × 2^e. -/
inductive Fp where
  | nan
  | inf (neg : Bool)
  | fin (neg : Bool) (m : Nat) (e : Int)
deriving DecidableEq, Repr

/-- A number with the exception flags raised on the way (R159): bit 0 invalid, 1 overflow, 2 underflow, 3 inexact, 4 NaN operand. -/
structure Fx where
  v : Fp
  fl : Nat
deriving DecidableEq, Repr

/-- Positive zero. -/
def fpZero : Fp := .fin false 0 0

/-- One. -/
def fpOne : Fp := .fin false 1 0

/-- A format of R146: exponent and mantissa bits, bias, and which special values it has. -/
structure FFmt where
  ebits : Nat
  mbits : Nat
  bias : Nat
  /-- infinity and NaN take the all-ones exponent -/
  ieee : Bool
  /-- NaN is the all-ones pattern alone (E4M3) -/
  e4m3 : Bool
deriving DecidableEq, Repr

/-- FP32 (R146). -/
def ffFp32 : FFmt := ⟨8, 23, 127, true, false⟩
/-- BF16 (R146). -/
def ffBf16 : FFmt := ⟨8, 7, 127, true, false⟩
/-- FP16 (R146). -/
def ffFp16 : FFmt := ⟨5, 10, 15, true, false⟩
/-- FP8 E4M3 (R146). -/
def ffE4m3 : FFmt := ⟨4, 3, 7, false, true⟩
/-- FP8 E5M2 (R146). -/
def ffE5m2 : FFmt := ⟨5, 2, 15, true, false⟩
/-- FP6 E3M2 (R146). -/
def ffE3m2 : FFmt := ⟨3, 2, 3, false, false⟩
/-- FP6 E2M3 (R146). -/
def ffE2m3 : FFmt := ⟨2, 3, 1, false, false⟩
/-- FP4 E2M1 (R146). -/
def ffE2m1 : FFmt := ⟨2, 1, 1, false, false⟩

/-- Width of a format in bits. -/
def FFmt.width (f : FFmt) : Nat := 1 + f.ebits + f.mbits

/-- Exponent of the smallest subnormal. -/
def FFmt.eMin (f : FFmt) : Int := 1 - (f.bias : Int) - (f.mbits : Int)

/-- The largest finite value as mantissa and exponent (R146). -/
def FFmt.maxFin (f : FFmt) : Nat × Int :=
  let e : Int := ((2 ^ f.ebits - 1 : Nat) : Int) - (if f.ieee then 1 else 0) - f.bias - f.mbits
  (if f.e4m3 then 2 ^ (f.mbits + 1) - 2 else 2 ^ (f.mbits + 1) - 1, e)

/-- Decode a bit pattern (R146). A NaN is recognised in any encoding (R147). -/
def fpDecode (f : FFmt) (b : Nat) : Fp :=
  let neg := bitOf b (f.ebits + f.mbits)
  let ex := bitsOf b f.mbits f.ebits
  let ma := bitsOf b 0 f.mbits
  if f.ieee && ex == 2 ^ f.ebits - 1 then (if ma = 0 then .inf neg else .nan)
  else if f.e4m3 && ex == 2 ^ f.ebits - 1 && ma == 2 ^ f.mbits - 1 then .nan
  else if ex = 0 then .fin neg ma f.eMin
  else .fin neg (2 ^ f.mbits + ma) (f.eMin + ((ex : Int) - 1))

/-- Floor of the base-2 logarithm of m × 2^e, for m > 0. -/
def fpLog2 (m : Nat) (e : Int) : Int := (Nat.log2 m : Int) + e

/-- A rounding mode of R151. -/
inductive Rnd where
  | nearest
  | zero
  | stochastic (r : Nat)
deriving DecidableEq, Repr

/-- Round m × 2^e to a multiple of 2^q (R151): the multiple, and whether it is inexact. -/
def roundAt (r : Rnd) (m : Nat) (e q : Int) : Nat × Bool :=
  if q ≤ e then (m * 2 ^ (e - q).toNat, false)
  else
    let d := (q - e).toNat
    let lo := m / 2 ^ d
    let rem := m % 2 ^ d
    if rem = 0 then (lo, false)
    else
      match r with
      | .zero => (lo, true)
      | .nearest =>
        if 2 * rem < 2 ^ d then (lo, true)
        else if 2 * rem = 2 ^ d then (if lo % 2 = 0 then lo else lo + 1, true)
        else (lo + 1, true)
      | .stochastic k => (if k % 65536 < rem * 65536 / 2 ^ d then lo + 1 else lo, true)

/-- The rounding step of a format at a value: its last mantissa place, or the smallest subnormal. -/
def FFmt.quantum (f : FFmt) (m : Nat) (e : Int) : Int := max (fpLog2 m e - f.mbits) f.eMin

/-- Compare two non-negative dyadic numbers: a ≤ b. -/
def dyLe (a : Nat) (ea : Int) (b : Nat) (eb : Int) : Bool :=
  let q := min ea eb
  decide (a * 2 ^ (ea - q).toNat ≤ b * 2 ^ (eb - q).toNat)

/-- Round a value to a format (R151, R154, R155): result and flags. `sat` and `r` are numctl's. Toward zero, overflow is judged before
rounding (R155). -/
def fpRound (f : FFmt) (r : Rnd) (sat : Bool) (x : Fp) : Fx :=
  match x with
  | .nan => ⟨.nan, 0⟩
  | .inf neg =>
    if f.ieee then ⟨.inf neg, 0⟩
    else if sat then ⟨.fin neg f.maxFin.1 f.maxFin.2, flOverflow + flInexact⟩
    else ⟨.nan, flOverflow + flInexact⟩
  | .fin neg m e =>
    if m = 0 then ⟨.fin neg 0 0, 0⟩ else
      let q := f.quantum m e
      let k := roundAt r m e q
      if !dyLe k.1 q f.maxFin.1 f.maxFin.2 || (r = .zero && !dyLe m e f.maxFin.1 f.maxFin.2) then
        if sat || r = .zero then ⟨.fin neg f.maxFin.1 f.maxFin.2, flOverflow + flInexact⟩
        else if f.ieee then ⟨.inf neg, flOverflow + flInexact⟩
        else ⟨.nan, flOverflow + flInexact⟩
      else
        let tiny := k.1 ≠ 0 && !dyLe 1 (1 - (f.bias : Int)) k.1 q
        ⟨.fin neg k.1 q, (if k.2 then flInexact else 0) + (if k.2 && (tiny || k.1 == 0) then flUnderflow else 0)⟩

/-- Encode a value that a format represents (R146, R147): the bits. -/
def fpBits (f : FFmt) (x : Fp) : Nat :=
  match x with
  | .nan =>
    if f.ieee then (2 ^ f.ebits - 1) * 2 ^ f.mbits + 2 ^ (f.mbits - 1)
    else if f.e4m3 then 2 ^ (f.ebits + f.mbits) - 1 else 0
  | .inf neg => b2n neg * 2 ^ (f.ebits + f.mbits) + (2 ^ f.ebits - 1) * 2 ^ f.mbits
  | .fin neg m e =>
    let s := b2n neg * 2 ^ (f.ebits + f.mbits)
    if m = 0 then s else
      let q := f.quantum m e
      let k := (roundAt .nearest m e q).1
      if k < 2 ^ f.mbits then s + k
      else s + ((q - f.eMin).toNat + 1) * 2 ^ f.mbits + (k - 2 ^ f.mbits)

/-- Round inside an operator: FP32, nearest, ties to even, no flag but overflow of an intermediate (R153, R159). -/
def toF32 (x : Fp) (fl : Nat) : Fx :=
  let r := fpRound ffFp32 .nearest false x
  ⟨r.v, flOr fl (Nat.land r.fl flOverflow)⟩

/-- Exact sum of two finite values; opposite values give +0, and −0 + −0 is −0 (R156). -/
def dyAdd (n1 : Bool) (m1 : Nat) (e1 : Int) (n2 : Bool) (m2 : Nat) (e2 : Int) : Fp :=
  let q := min e1 e2
  let a : Int := (if n1 then -1 else 1) * ((m1 * 2 ^ (e1 - q).toNat : Nat) : Int)
  let b : Int := (if n2 then -1 else 1) * ((m2 * 2 ^ (e2 - q).toNat : Nat) : Int)
  let s := a + b
  if s = 0 then .fin (n1 && n2) 0 0 else .fin (decide (s < 0)) s.natAbs q

/-- Exact sum before rounding (R156). -/
def xAdd (a b : Fx) : Fx :=
  let fl := flOr a.fl b.fl
  match a.v, b.v with
  | .nan, _ => ⟨.nan, fl⟩
  | _, .nan => ⟨.nan, fl⟩
  | .inf p, .inf q => if p = q then ⟨.inf p, fl⟩ else ⟨.nan, flOr fl flInvalid⟩
  | .inf p, _ => ⟨.inf p, fl⟩
  | _, .inf q => ⟨.inf q, fl⟩
  | .fin n1 m1 e1, .fin n2 m2 e2 => ⟨dyAdd n1 m1 e1 n2 m2 e2, fl⟩

/-- Exact product before rounding (R156). -/
def xMul (a b : Fx) : Fx :=
  let fl := flOr a.fl b.fl
  match a.v, b.v with
  | .nan, _ => ⟨.nan, fl⟩
  | _, .nan => ⟨.nan, fl⟩
  | .inf p, .inf q => ⟨.inf (p != q), fl⟩
  | .inf p, .fin n m _ => if m = 0 then ⟨.nan, flOr fl flInvalid⟩ else ⟨.inf (p != n), fl⟩
  | .fin n m _, .inf q => if m = 0 then ⟨.nan, flOr fl flInvalid⟩ else ⟨.inf (n != q), fl⟩
  | .fin n1 m1 e1, .fin n2 m2 e2 => ⟨.fin (n1 != n2) (m1 * m2) (e1 + e2), fl⟩

/-- FP32 sum. -/
def fAdd (a b : Fx) : Fx := let r := xAdd a b; toF32 r.v r.fl

/-- FP32 product. -/
def fMul (a b : Fx) : Fx := let r := xMul a b; toF32 r.v r.fl

/-- Negation. -/
def fNeg (a : Fx) : Fx :=
  match a.v with
  | .nan => a
  | .inf n => ⟨.inf (!n), a.fl⟩
  | .fin n m e => ⟨.fin (!n) m e, a.fl⟩

/-- A quotient of dyadic numbers with 80 bits and a sticky bit, enough to round correctly. -/
def dyDiv (m1 : Nat) (e1 : Int) (m2 : Nat) (e2 : Int) : Nat × Int :=
  let k := 80 + Nat.log2 m2
  let q := m1 * 2 ^ k / m2
  (q * 2 + (if m1 * 2 ^ k % m2 = 0 then 0 else 1), e1 - e2 - k - 1)

/-- FP32 quotient, correctly rounded (R156, R158). -/
def fDiv (a b : Fx) : Fx :=
  let fl := flOr a.fl b.fl
  match a.v, b.v with
  | .nan, _ => ⟨.nan, fl⟩
  | _, .nan => ⟨.nan, fl⟩
  | .inf _, .inf _ => ⟨.nan, flOr fl flInvalid⟩
  | .inf p, .fin n _ _ => ⟨.inf (p != n), fl⟩
  | .fin n _ _, .inf q => ⟨.fin (n != q) 0 0, fl⟩
  | .fin n1 m1 e1, .fin n2 m2 e2 =>
    if m2 = 0 then
      if m1 = 0 then ⟨.nan, flOr fl flInvalid⟩ else ⟨.inf (n1 != n2), flOr fl flInvalid⟩
    else if m1 = 0 then ⟨.fin (n1 != n2) 0 0, fl⟩
    else let q := dyDiv m1 e1 m2 e2; toF32 (.fin (n1 != n2) q.1 q.2) fl

/-- a is below b in the order −∞ < finite < +∞ with −0 < +0 (R156); no NaN. -/
def fpLt (a b : Fp) : Bool :=
  match a, b with
  | .inf true, .inf true => false
  | .inf true, _ => true
  | _, .inf true => false
  | .inf false, _ => false
  | _, .inf false => true
  | .fin n1 m1 e1, .fin n2 m2 e2 =>
    match n1, n2 with
    | true, false => true
    | false, true => false
    | false, false => !dyLe m2 e2 m1 e1
    | true, true => !dyLe m1 e1 m2 e2
  | _, _ => false

/-- Equal in value, −0 and +0 included (R135). -/
def fpEqv (a b : Fp) : Bool :=
  match a, b with
  | .fin n1 m1 e1, .fin n2 m2 e2 =>
    (m1 == 0 && m2 == 0) || (n1 == n2 && dyLe m1 e1 m2 e2 && dyLe m2 e2 m1 e1)
  | .inf p, .inf q => p == q
  | .nan, .nan => true
  | _, _ => false

/-- MAX of R156: a NaN input makes the result NaN. -/
def fMax (a b : Fx) : Fx :=
  let fl := flOr a.fl b.fl
  match a.v, b.v with
  | .nan, _ => ⟨.nan, fl⟩
  | _, .nan => ⟨.nan, fl⟩
  | x, y => ⟨if fpLt x y then y else x, fl⟩

/-- MIN of R156. -/
def fMin (a b : Fx) : Fx :=
  let fl := flOr a.fl b.fl
  match a.v, b.v with
  | .nan, _ => ⟨.nan, fl⟩
  | _, .nan => ⟨.nan, fl⟩
  | x, y => ⟨if fpLt y x then y else x, fl⟩

/-! Special functions (R158) -/

/-- Fixed-point places used for reference values. -/
def fixP : Nat := 160

/-- ln 2 in fixed point: the sum of 1/(k 2^k). -/
def fixLn2 : Nat := (List.range 170).foldl (fun a i => a + 2 ^ fixP / ((i + 1) * 2 ^ (i + 1))) 0

/-- e^r in fixed point by its series, for a fixed-point r below 1. -/
def fixExpGo : Nat → Nat → Nat → Nat → Nat
  | 0, _, _, _ => 0
  | n + 1, i, term, r => term + fixExpGo n (i + 1) (term * r / 2 ^ fixP / (i + 1)) r

/-- A dyadic number in fixed point, rounded toward minus infinity. -/
def dyFix (neg : Bool) (m : Nat) (e : Int) : Int :=
  let p : Int := e + fixP
  let a : Nat := if 0 ≤ p then m * 2 ^ p.toNat else m / 2 ^ (-p).toNat
  if neg then -(a : Int) else a

/-- Reference e^x of a fixed-point x, as mantissa and exponent. -/
def refExp (x : Int) : Nat × Int :=
  let n : Int := x / (fixLn2 : Int)
  let r : Nat := (x - n * fixLn2).toNat
  (fixExpGo 45 0 (2 ^ fixP) r, n - fixP)

/-- Reference ln of m × 2^e, m > 0, in fixed point: 2 atanh((z−1)/(z+1)) + n ln 2, z in [1, 2). -/
def refLn (m : Nat) (e : Int) : Int :=
  let n := Nat.log2 m
  let z : Nat := m * 2 ^ fixP / 2 ^ n
  let t : Nat := (z - 2 ^ fixP) * 2 ^ fixP / (z + 2 ^ fixP)
  let s : Nat := ((List.range 60).foldl (fun (a : Nat × Nat) i => (a.1 + a.2 / (2 * i + 1), a.2 * t / 2 ^ fixP * t / 2 ^ fixP)) (0, t)).1
  2 * (s : Int) + ((n : Int) + e) * fixLn2

/-- A value of FP32 within `k` last places of a reference: the nearest one, moved by the engine's own offset when the moved
value still keeps the bound (R158). -/
def withinUlp (fn k argBits : Nat) (neg : Bool) (m : Nat) (e : Int) : Fp :=
  let r := (fpRound ffFp32 .nearest false (.fin neg m e)).v
  match r with
  | .fin n km ke =>
    let off : Int := (Config.ulpOffset fn argBits % 9 : Nat) - 4
    let cand : Int := (km : Int) + off
    let q := min ke e
    let d : Int := cand * 2 ^ (ke - q).toNat - (m : Int) * 2 ^ (e - q).toNat
    if 0 < cand ∧ cand < 2 ^ 24 ∧ 0 < km ∧ d.natAbs ≤ k * 2 ^ (ke - q).toNat then .fin n cand.toNat ke else r
  | r => r

/-- exp of an exact argument in FP32 within k last places; results that underflow raise no flag (R158, R159). -/
def expWithin (k : Nat) (a : Fx) : Fx :=
  match a.v with
  | .nan => ⟨.nan, a.fl⟩
  | .inf n => ⟨if n then fpZero else .inf false, a.fl⟩
  | .fin n m e =>
    if m = 0 then ⟨fpOne, a.fl⟩
    else if !dyLe m e 200 0 then (if n then ⟨fpZero, a.fl⟩ else ⟨.inf false, flOr a.fl flOverflow⟩)
    else
      let r := refExp (dyFix n m e)
      let v := withinUlp 0 k (fpBits ffFp32 (fpRound ffFp32 .nearest false a.v).v) false r.1 r.2
      ⟨v, if v = .inf false then flOr a.fl flOverflow else a.fl⟩

/-- exp in FP32 within 2 last places (R158). -/
def fExp (a : Fx) : Fx := expWithin 2 a

/-- ln in FP32 within 2 last places (R158). -/
def fLn (a : Fx) : Fx :=
  match a.v with
  | .nan => ⟨.nan, a.fl⟩
  | .inf n => if n then ⟨.nan, flOr a.fl flInvalid⟩ else ⟨.inf false, a.fl⟩
  | .fin n m e =>
    if m = 0 then ⟨.inf true, flOr a.fl flInvalid⟩
    else if n then ⟨.nan, flOr a.fl flInvalid⟩
    else
      let x := refLn m e
      if x = 0 then ⟨fpZero, a.fl⟩ else ⟨withinUlp 1 2 (fpBits ffFp32 a.v) (decide (x < 0)) x.natAbs (-(fixP : Int)), a.fl⟩

/-- g ÷ (1 + e^(−x)) for a fixed-point x, within 4 last places: the shape of SiLU (x = g) and of GELU (R142, R158). -/
def gate (fn : Nat) (g : Fx) (x : Int) : Fx :=
  match g.v with
  | .nan => g
  | .inf n => if n then ⟨.fin true 0 0, g.fl⟩ else g
  | .fin n m e =>
    if m = 0 then g
    else if (256 * 2 ^ fixP : Int) < x then g
    else if x < -(256 * 2 ^ fixP : Int) then ⟨.fin n 0 0, g.fl⟩
    else
      let r := refExp (-x)
      match dyAdd false 1 0 false r.1 r.2 with
      | .fin _ dm de =>
        let q := dyDiv m e dm de
        ⟨withinUlp fn 4 (fpBits ffFp32 g.v) n q.1 q.2, g.fl⟩
      | v => ⟨v, g.fl⟩

/-- SiLU (R141, R158). An infinite negative argument gives −∞ × 0, which is invalid. -/
def fSilu (g : Fx) : Fx :=
  match g.v with
  | .inf true => ⟨.nan, flOr g.fl flInvalid⟩
  | .fin n m e => gate 2 g (if dyLe m e 1024 0 then dyFix n m e else (if n then -1 else 1) * 1024 * 2 ^ fixP)
  | _ => g

/-- GELU in its tanh form: 0.5 g (1 + tanh u) = g ÷ (1 + e^(−2u)) (R158). -/
def fGelu (g : Fx) : Fx :=
  match g.v with
  | .inf true => ⟨.nan, flOr g.fl flInvalid⟩
  | .fin n m e =>
    let x := if dyLe m e 1024 0 then dyFix n m e else (if n then -1 else 1) * 1024 * 2 ^ fixP
    let p : Int := 2 ^ fixP
    let cube := x * x / p * x / p
    gate 3 g (2 * 7978845608 * (x + 44715 * cube / 1000000) / 10000000000)
  | _ => g

/-- ReLU: max(g, 0) (R141). -/
def fRelu (g : Fx) : Fx := fMax g ⟨fpZero, 0⟩

/-! Element formats (R99) -/

/-- What an element format code names. -/
inductive Elem where
  | fl (f : FFmt)
  | mx (f : FFmt) (emax : Int)
  | mxInt
  | int (bits : Nat)
deriving DecidableEq, Repr

/-- The format of a code of R99; 0xD to 0xF are reserved. -/
def elemOf : Nat → Option Elem
  | 0x0 => some (.fl ffFp32) | 0x1 => some (.fl ffBf16) | 0x2 => some (.fl ffFp16) | 0x3 => some (.fl ffE4m3)
  | 0x4 => some (.fl ffE5m2) | 0x5 => some (.mx ffE4m3 8) | 0x6 => some (.mx ffE5m2 15) | 0x7 => some (.mx ffE3m2 4)
  | 0x8 => some (.mx ffE2m3 2) | 0x9 => some (.mx ffE2m1 2) | 0xA => some .mxInt | 0xB => some (.int 8)
  | 0xC => some (.int 32) | _ => none

/-- Bits per element, the scale apart (R99). -/
def Elem.width : Elem → Nat
  | .fl f => f.width
  | .mx f _ => f.width
  | .mxInt => 8
  | .int n => n

/-- The format keeps a scale for every 32 elements. -/
def Elem.isMx : Elem → Bool
  | .mx _ _ => true
  | .mxInt => true
  | _ => false

/-- A two's complement number of n bits. -/
def toInt (n b : Nat) : Int := if bitOf b (n - 1) then (b % 2 ^ n : Nat) - (2 ^ n : Nat) else (b % 2 ^ n : Nat)

/-- An integer as an exact value. -/
def fpInt (i : Int) : Fp := .fin (decide (i < 0)) i.natAbs 0

/-- A loaded value with its NaN-operand flag (R159). -/
def loaded (v : Fp) : Fx := ⟨v, if v = .nan then flNan else 0⟩

/-- A finite value times 2^k. -/
def fpScale (v : Fp) (k : Int) : Fp :=
  match v with
  | .fin n m e => .fin n m (e + k)
  | v => v

/-- Widen an element (R148, R157); `scale` is its block's scale byte, used by MX formats alone. A scaled MX value beyond FP32 becomes an
infinity and raises overflow (R159). -/
def widen (el : Elem) (scale b : Nat) : Fx :=
  match el with
  | .fl f => loaded (fpDecode f b)
  | .int n => loaded (fpInt (toInt n b))
  | .mx f _ =>
    if scale = 255 then ⟨.nan, flNan⟩
    else
      let x := loaded (fpDecode f b)
      toF32 (fpScale x.v ((scale : Int) - 127)) x.fl
  | .mxInt =>
    if scale = 255 then ⟨.nan, flNan⟩
    else ⟨(fpRound ffFp32 .nearest false (fpScale (fpInt (toInt 8 b)) ((scale : Int) - 133))).v, 0⟩

/-- Convert a value to an integer format of n bits (R150): bits and flags. -/
def toIntBits (n : Nat) (r : Rnd) (sat : Bool) (x : Fp) : Nat × Nat :=
  let most := 2 ^ (n - 1)
  match x with
  | .nan => (if sat then 0 else most, flInvalid)
  | .inf neg => (if sat then (if neg then most else most - 1) else most, flInvalid)
  | .fin neg m e =>
    let k := if m = 0 then (0, false) else roundAt r m e 0
    if (neg && most < k.1) || (!neg && most ≤ k.1) then
      (if sat then (if neg then most else most - 1) else most, flInvalid)
    else ((if neg then 2 ^ n - k.1 else k.1) % 2 ^ n, if k.2 then flInexact else 0)

/-- Encode a result for memory in a format that keeps no scale: bits and flags (R151, R155). -/
def encodeElem (el : Elem) (r : Rnd) (sat : Bool) (x : Fx) : Nat × Nat :=
  match el with
  | .fl f => let y := fpRound f r sat x.v; (fpBits f y.v, flOr x.fl y.fl)
  | .int n => let y := toIntBits n r sat x.v; (y.1, flOr x.fl y.2)
  | _ => (0, x.fl)

/-- Element of an MX block: the value divided by 2^e, rounded and saturated to the largest magnitude whatever `sat` says
(R149). -/
def mxElem (el : Elem) (r : Rnd) (e : Int) (x : Fp) : Nat × Nat :=
  match el with
  | .mx f _ =>
    let y := fpRound f r true (fpScale x (-e))
    (fpBits f y.v, Nat.land y.fl (flInexact + flUnderflow))
  | _ =>
    match fpScale x (6 - e) with
    | .fin neg m q =>
      let k := if m = 0 then (0, false) else roundAt r m q 0
      let lim := if neg then 128 else 127
      let c := min k.1 lim
      ((if neg then 256 - c else c) % 256, if k.2 || lim < k.1 then flInexact else 0)
    | _ => (0, 0)

/-- The largest exponent of an MX element format (R149). -/
def Elem.emax : Elem → Int
  | .mx _ k => k
  | _ => 0

/-- Encode 32 values as an MX block (R149): scale byte, element bits, flags. An infinite value that is saturated is inexact (R159). -/
def mxEncode (el : Elem) (rs : List Rnd) (sat : Bool) (xs : List Fx) : Nat × List Nat × Nat :=
  let fl := xs.foldl (fun a x => flOr a x.fl) 0
  let isNan := xs.any (fun x => decide (x.v = .nan))
  let isInf := xs.any (fun x => match x.v with | .inf _ => true | _ => false)
  let big := xs.foldl (fun (a : Nat × Int) x =>
    match x.v with
    | .fin _ m e => if dyLe m e a.1 a.2 then a else (m, e)
    | _ => a) (0, 0)
  if isNan then (255, List.replicate 32 0, flOr fl flInvalid)
  else if isInf && !sat then (255, List.replicate 32 0, flOr fl flOverflow)
  else
    let e : Int := if big.1 = 0 then -127 else max (-127) (min 127 (fpLog2 big.1 big.2 - el.emax))
    let ys := (xs.zipIdx).map (fun x =>
      match x.1.v with
      | .inf n => let y := mxElem el (rs.getD x.2 .nearest) e (.fin n big.1 big.2); (y.1, flOr y.2 flInexact)
      | v => mxElem el (rs.getD x.2 .nearest) e v)
    ((e + 127).toNat, ys.map (·.1), ys.foldl (fun a y => flOr a y.2) fl)

/-- The power of two by which a row is scaled before it is rounded to an FP8 format (R157): the largest p in −126 to 126 that
keeps the largest magnitude within the format; a row of zeros uses 0. -/
def rowScale (f : FFmt) (xs : List Fx) : Int :=
  let big := xs.foldl (fun (a : Nat × Int) x =>
    match x.v with
    | .fin _ m e => if dyLe m e a.1 a.2 then a else (m, e)
    | _ => a) (0, 0)
  if big.1 = 0 then 0
  else
    let p0 : Int := fpLog2 f.maxFin.1 f.maxFin.2 - fpLog2 big.1 big.2
    let p := if dyLe big.1 (big.2 + p0) f.maxFin.1 f.maxFin.2 then p0 else p0 - 1
    max (-126) (min 126 p)

/-- One step of the matrix unit: products formed exactly, 32 of them added exactly, one rounding, then one more rounding into
the accumulator (R157). -/
def dotStep (acc : Fx) (ps : List (Fx × Fx)) : Fx :=
  let s := ps.foldl (fun a p => xAdd a (xMul p.1 p.2)) ⟨.fin true 0 0, 0⟩
  fAdd acc (toF32 s.v s.fl)

/-- A dot product in steps of 32, with fuel (R157). -/
def dotGo : Nat → Fx → List (Fx × Fx) → Fx
  | 0, acc, _ => acc
  | n + 1, acc, ps => if ps = [] then acc else dotGo n (dotStep acc (ps.take 32)) (ps.drop 32)

/-- A dot product of two rows (R157). -/
def dot (xs ys : List Fx) : Fx :=
  let ps := xs.zip ys
  dotGo (cdiv ps.length 32) ⟨fpZero, 0⟩ ps

end Sys2Proof.Machine
end

