-- ==== Sys2Proof/Machine/Operands.lean ====
section
/-!
DEFINITION. Machine/Operands.lean: the operand forms of the block: fields of a descriptor image (spec 03 R59, spec 05 R97 to
R104, spec 06 R121), the common header, element arrays in a view of loaded granules, and the tiles' shapes (spec 04 R80).
-/
namespace Sys2Proof.Machine
open Sys2Proof

/-- Field at byte `off`, bits [lo+w-1:lo] of it, of a descriptor image (R1). -/
def dfld (raw off lo w : Nat) : Nat := bitsOf raw (off * 8 + lo) w

/-- A one-bit field of a descriptor image. -/
def dbit (raw off lo : Nat) : Bool := bitOf raw (off * 8 + lo)

/-- Bytes off to stop - 1 of the image are zero. -/
def dzero (raw off stop : Nat) : Bool := bitsOf raw (off * 8) ((stop - off) * 8) == 0

/-! The common header (spec 03) -/

/-- opcode -/
def hOpcode (raw : Nat) : Nat := dfld raw 0 0 8
/-- cmp_req -/
def hCmpReq (raw : Nat) : Bool := dbit raw 1 0
/-- pred_en -/
def hPredEn (raw : Nat) : Bool := dbit raw 1 1
/-- barrier -/
def hBarrier (raw : Nat) : Bool := dbit raw 1 2
/-- irq_half -/
def hIrqHalf (raw : Nat) : Bool := dbit raw 1 3
/-- irq_full -/
def hIrqFull (raw : Nat) : Bool := dbit raw 1 4
/-- pred_slot -/
def hPredSlot (raw : Nat) : Nat := dfld raw 2 0 8
/-- pred_invert -/
def hPredInvert (raw : Nat) : Bool := dbit raw 2 8
/-- tenant -/
def hTenant (raw : Nat) : Nat := dfld raw 4 0 12
/-- request_id -/
def hReqId (raw : Nat) : Nat := dfld raw 8 0 24
/-- The reserved fields of the header are zero. -/
def hRsvZero (raw : Nat) : Bool :=
  dfld raw 1 5 3 == 0 && dfld raw 2 9 7 == 0 && dfld raw 4 12 4 == 0 && dfld raw 6 0 16 == 0 && dfld raw 8 24 8 == 0
  && dfld raw 12 0 32 == 0

/-! The operator codes (spec 05 R97, spec 06 R121, spec 02, spec 08) -/

/-- Where an operator runs (spec 04 R79). -/
inductive OpUnit where
  | engine
  | mistral
  | xtu
deriving DecidableEq, Repr

/-- What the tables of operator codes fix: the code, 128-byte size, unit, half point, feature bit and wait-list class
(R88: 0 attention, 1 mixture, 2 gather and reduction, 3 movement). -/
structure OpRow where
  code : Nat
  big : Bool
  unit : OpUnit
  half : Bool
  feat : Nat
  cls : Nat
deriving DecidableEq, Repr

/-- The operator codes. -/
def opTable : List OpRow :=
  [⟨0x10, false, .engine, true, 0, 3⟩, ⟨0x11, false, .engine, true, 0, 3⟩, ⟨0x12, false, .engine, true, 0, 2⟩,
   ⟨0x13, false, .engine, true, 0, 2⟩, ⟨0x14, true, .engine, true, 0, 2⟩, ⟨0x15, true, .engine, true, 0, 2⟩,
   ⟨0x16, false, .engine, false, 0, 3⟩, ⟨0x17, false, .engine, true, 0, 3⟩,
   ⟨0x20, true, .engine, true, 12, 0⟩, ⟨0x21, false, .engine, true, 12, 0⟩, ⟨0x22, false, .engine, false, 0, 1⟩,
   ⟨0x28, true, .engine, true, 13, 1⟩, ⟨0x29, true, .engine, true, 13, 1⟩, ⟨0x2A, true, .engine, true, 13, 1⟩,
   ⟨0x50, false, .xtu, false, 0, 0⟩, ⟨0x51, false, .xtu, false, 0, 0⟩, ⟨0x58, false, .mistral, false, 0, 0⟩]

/-- The row of an opcode. -/
def opRow (code : Nat) : Option OpRow := opTable.find? (fun r => r.code == code)

/-- A 128-byte descriptor (R58). -/
def opBig (code : Nat) : Bool := ((opRow code).map (·.big)).getD false

/-- The half point of the operator's layout. -/
def opHalf (code : Nat) : Bool := ((opRow code).map (·.half)).getD false

/-- Predicate slots a producer writes, relative to pred_base (R121). -/
def producerSlots (raw : Nat) : List Nat :=
  if hOpcode raw = 0x22 && dbit raw 0x35 0 then [dfld raw 0x36 0 8]
  else if hOpcode raw = 0x29 && dbit raw 0x54 0 then [dfld raw 0x55 0 8]
  else if hOpcode raw = 0x28 && dbit raw 0x46 0 then (List.range (dfld raw 0x42 0 9)).map (fun e => dfld raw 0x47 0 8 + e)
  else []

/-- Predicate slots a MOE_COMBINE waits on, relative to pred_base (R144). -/
def waitedSlots (raw : Nat) : List Nat :=
  if hOpcode raw = 0x2A then (List.range (dfld raw 0x4A 0 9)).map (fun e => dfld raw 0x48 0 8 + e) else []

/-- A slot field whose enable is clear is non-zero (R121). -/
def straySlot (raw : Nat) : Bool :=
  (hOpcode raw == 0x22 && !dbit raw 0x35 0 && dfld raw 0x36 0 8 != 0)
  || (hOpcode raw == 0x29 && !dbit raw 0x54 0 && dfld raw 0x55 0 8 != 0)
  || (hOpcode raw == 0x28 && !dbit raw 0x46 0 && dfld raw 0x47 0 8 != 0)
  || (hOpcode raw == 0x2A && dfld raw 0x4A 0 9 == 0 && dfld raw 0x48 0 8 != 0)

/-- The predicate slot fields of the operator's own layout are valid (R121). -/
def slotsValid (raw predCount : Nat) (predicate : Bool) : Bool :=
  let used := producerSlots raw ++ waitedSlots raw
  !straySlot raw && (used == [] || predicate) && used.all (fun i => decide (i < predCount))

/-! Addresses and numeric control -/

/-- A PVA field: bits [63:52] zero and the alignment kept (R101). -/
def pvaOk (a align : Nat) : Bool := decide (a < 2 ^ 52) && a % align == 0

/-- The numeric control byte names no reserved rounding mode (R100). -/
def numctlOk (nc : Nat) : Bool := nc % 4 != 3

/-- numctl.sat -/
def ncSat (nc : Nat) : Bool := bitOf nc 2

/-- The stop bits as a flag set (R100). -/
def ncStop (nc : Nat) : Nat := nc / 8 % 32

/-- The rounding mode for result number k of a tile that draws its stochastic bits from counter `base` (R151, R152). -/
def ncRnd (nc base k : Nat) : Rnd :=
  if nc % 4 = 1 then .zero else if nc % 4 = 2 then .stochastic (Config.freeNat (base + k)) else .nearest

/-- Feature bit of an element format code (R99). -/
def fmtFeature (code : Nat) : Nat := if code = 7 ∨ code = 8 then 11 else if code = 9 then 10 else 0

/-! Views: granules loaded, by PVA ÷ 64 -/

/-- A view of loaded granules. -/
abbrev View := NMap Gran

/-- Every granule under bytes a to a + n - 1 was read and is not poisoned: what stands there may be judged (R65, R105). -/
def vSure (v : View) (a n : Nat) : Bool :=
  (List.range ((a + n - 1) / 64 + 1 - a / 64)).all (fun i =>
    match nfind v (a / 64 + i) with | some g => !g.poison | none => false)

/-- The byte of a view at a PVA. -/
def vByte (v : View) (a : Nat) : Byte :=
  match nfind v (a / 64) with
  | some g => g.data.getD (a % 64) 0
  | none => 0

/-- n bytes of a view as a little-endian number. -/
def vNat (v : View) (a n : Nat) : Nat := leToNat ((List.range n).map (fun i => vByte v (a + i)))

/-- Some granule under bytes a to a + n - 1 is poisoned. -/
def vPois (v : View) (a n : Nat) : Bool :=
  (List.range ((a + n - 1) / 64 + 1 - a / 64)).any (fun i =>
    match nfind v (a / 64 + i) with | some g => g.poison | none => false)

/-- Element i of an array whose elements are packed densely (R148): its bits. -/
def vElem (v : View) (base w i : Nat) : Nat :=
  let o := i * w
  vNat v (base + o / 8) ((o % 8 + w + 7) / 8) / 2 ^ (o % 8) % 2 ^ w

/-- Element i of an array is drawn from a poisoned granule. -/
def vElemPois (v : View) (base w i : Nat) : Bool :=
  let o := i * w
  vPois v (base + o / 8) ((o % 8 + w + 7) / 8)

/-- A number with the mark that it derives from poison. -/
structure Px where
  x : Fx
  p : Bool
deriving DecidableEq, Repr

/-- Load and widen element i of an array; a poisoned element raises no flag (R157, R160). -/
def vLoad (v : View) (el : Elem) (base i : Nat) : Px :=
  if vElemPois v base el.width i then ⟨⟨fpZero, 0⟩, true⟩
  else ⟨widen el 127 (vElem v base el.width i), false⟩

/-- As vLoad, for an array with a scale array at `sb` (R148). -/
def vLoadMx (v : View) (el : Elem) (base sb i : Nat) : Px :=
  if !el.isMx then vLoad v el base i
  else if vElemPois v base el.width i || vPois v (sb + i / 32) 1 then ⟨⟨fpZero, 0⟩, true⟩
  else ⟨widen el (vByte v (sb + i / 32)).toNat (vElem v base el.width i), false⟩

/-- Little-endian bytes of numbers of w bits packed densely (R148). -/
def packBits (w : Nat) (xs : List Nat) : List Byte :=
  natToLe (w * xs.length / 8) ((xs.zipIdx).foldl (fun a x => a + x.1 * 2 ^ (w * x.2)) 0)

/-! Tiles and units of work -/

/-- A run of result bytes at a PVA, with the poison mark of what it derives from. -/
structure Run where
  pva : Nat
  data : List Byte
  poison : Bool
deriving DecidableEq, Repr

/-- What step 4 of a tile yields (spec 04 R81): runs to write under fresh guards, whole granules that travel by destination
PVA ÷ 64, partial states for an accumulating engine, flags, or a stop with its own status. -/
structure CompOut where
  runs : List Run
  grans : List (Nat × Gran)
  parts : List Part
  fl : Nat
  stop : Option Fin
deriving DecidableEq, Repr

/-- Nothing to write. -/
def compNone : CompOut := ⟨[], [], [], 0, none⟩

/-- Runs alone. -/
def compRuns (rs : List Run) (fl : Nat) : CompOut := ⟨rs, [], [], fl, none⟩

/-- The granule of a view at a PVA. -/
def vGran (v : View) (a : Nat) : Gran := (nfind v (a / 64)).getD zeroGran

/-- FP32 bits of a value. -/
def bits32 (x : Fx) : Nat := fpBits ffFp32 x.v

/-- A value from FP32 bits, raising nothing. -/
def val32 (b : Nat) : Fx := ⟨fpDecode ffFp32 b, 0⟩

/-- Apply a two-argument operation; a result that derives from poison carries the mark and no flag (R160). -/
def pOp (f : Fx → Fx → Fx) (a b : Px) : Px := if a.p || b.p then ⟨⟨fpZero, 0⟩, true⟩ else ⟨f a.x b.x, false⟩

/-- A plain value. -/
def pVal (x : Fx) : Px := ⟨x, false⟩

/-- The union of the flags of a list of values. -/
def flAll (xs : List Px) : Nat := xs.foldl (fun a x => flOr a x.x.fl) 0

/-- One element of a plain format as a run of bytes at index i of an array (R151), with the flags raised. -/
def elemRun (el : Elem) (r : Rnd) (sat : Bool) (base i : Nat) (x : Px) : Run × Nat :=
  let y := encodeElem el r sat x.x
  (⟨base + i * (el.width / 8), natToLe (el.width / 8) y.1, x.p⟩, if x.p then 0 else y.2)

/-- Runs and the union of their flags. -/
def runsOf (rs : List (Run × Nat)) : CompOut := compRuns (rs.map (·.1)) (rs.foldl (fun a r => flOr a r.2) 0)

/-- Where the draws for orders lie among the draws of one tile: apart from those for stochastic rounding (R151). -/
def orderDraws : Nat := 2 ^ 40

/-- A permutation of a list taken from the free values (orders that the spec leaves open); two elements or fewer keep theirs
where the operation commutes. -/
def shuffleGo : Nat → Nat → List Nat → List Nat
  | 0, _, xs => xs
  | n + 1, base, xs =>
    match xs with
    | [] => []
    | x :: rest =>
      let i := Config.freeNat base % (rest.length + 1)
      let all := x :: rest
      all.getD i x :: shuffleGo n (base + 1) (all.eraseIdx i)

/-- A free order of the indices 0 to n - 1. -/
def freeOrder (base n : Nat) : List Nat := if n ≤ 1 then List.range n else shuffleGo n base (List.range n)

/-- Two byte ranges overlap. -/
def overlaps (a b : Nat × Nat) : Bool := decide (a.1 < b.1 + b.2) && decide (b.1 < a.1 + a.2)

/-- The sorted list of distinct values. -/
def dedupSort (xs : List Nat) : List Nat :=
  xs.foldl (fun acc x => (acc.filter (fun y => y < x)) ++ [x] ++ (acc.filter (fun y => x < y))) []

/-- Number a list of tiles from 0. -/
def numberTiles (ts : List Tile) : List Tile := (ts.zipIdx).map (fun x => { x.1 with num := x.2 })

/-- The 4 KiB blocks that a range touches, each cut to the range. -/
def blockCuts (a n : Nat) : List (Nat × Nat) :=
  if n = 0 then [] else
    (List.range ((a + n - 1) / 4096 + 1 - a / 4096)).map (fun i =>
      let lo := max a ((a / 4096 + i) * 4096)
      let hi := min (a + n) ((a / 4096 + i + 1) * 4096)
      (lo, hi - lo))

end Sys2Proof.Machine
end

