-- ==== Sys2Proof/Machine/OpsMove.lean ====
section
/-!
DEFINITION. Machine/OpsMove.lean: the operators for movement, reduction and atomics (spec 05): layout checks, tiles and
the computation of one tile, as functions of the descriptor image, the pre-pass and the loaded granules.
-/
namespace Sys2Proof.Machine
open Sys2Proof

/-! COPY2D (R109, R110) -/

/-- Source and destination fields of a COPY2D. -/
def c2Src (raw : Nat) : Nat := dfld raw 0x10 0 64
/-- dst -/
def c2Dst (raw : Nat) : Nat := dfld raw 0x18 0 64
/-- src_line -/
def c2SrcLine (raw : Nat) : Nat := dfld raw 0x20 0 32
/-- src_lines -/
def c2SrcLines (raw : Nat) : Nat := dfld raw 0x24 0 32
/-- src_stride -/
def c2SrcStride (raw : Nat) : Nat := dfld raw 0x28 0 32
/-- dst_line -/
def c2DstLine (raw : Nat) : Nat := dfld raw 0x2C 0 32
/-- dst_lines -/
def c2DstLines (raw : Nat) : Nat := dfld raw 0x30 0 32
/-- dst_stride -/
def c2DstStride (raw : Nat) : Nat := dfld raw 0x34 0 32
/-- src_host -/
def c2SrcHost (raw : Nat) : Bool := dbit raw 0x38 4
/-- dst_host -/
def c2DstHost (raw : Nat) : Bool := dbit raw 0x38 5
/-- pasid -/
def c2Pasid (raw : Nat) : Nat := dfld raw 0x3C 0 20
/-- Total bytes. -/
def c2Total (raw : Nat) : Nat := c2SrcLine raw * c2SrcLines raw

/-- A COPY2D is refused (R101, R109). -/
def badCopy2d (raw : Nat) : Bool :=
  let sw := 2 ^ dfld raw 0x38 0 2
  let dw := 2 ^ dfld raw 0x38 2 2
  c2SrcLine raw == 0 || c2SrcLines raw == 0 || c2DstLine raw == 0 || c2DstLines raw == 0
  || c2Total raw != c2DstLine raw * c2DstLines raw || decide (2 ^ 36 < c2Total raw)
  || [c2Src raw, c2SrcLine raw, c2SrcStride raw].any (fun x => x % sw != 0)
  || [c2Dst raw, c2DstLine raw, c2DstStride raw].any (fun x => x % dw != 0)
  || (decide (1 < c2DstLines raw) && decide (c2DstStride raw < c2DstLine raw))
  || (c2SrcHost raw && c2DstHost raw)
  || (c2Pasid raw != 0 && !c2SrcHost raw && !c2DstHost raw)
  || (!c2SrcHost raw && !pvaOk (c2Src raw) 1) || (!c2DstHost raw && !pvaOk (c2Dst raw) 1)
  || dfld raw 0x38 6 2 != 0 || !dzero raw 0x39 0x3C || dfld raw 0x3C 20 12 != 0

/-- The address of stream byte b on a side (R109). -/
def lineAddr (base line stride b : Nat) : Nat := base + b / line * stride + b % line

/-- The ranges of a side that stream bytes b to b + n - 1 lie in, with fuel. -/
def lineSegs : Nat → Nat → Nat → Nat → Nat → Nat → List (Nat × Nat)
  | 0, _, _, _, _, _ => []
  | k + 1, base, line, stride, b, n =>
    if n = 0 then [] else
      let len := min n (line - b % line)
      (lineAddr base line stride b, len) :: lineSegs k base line stride (b + len) (n - len)

/-- Stream bytes from b on whose source lies in block blk, at most n of them (R109), with fuel. -/
def copyRunLen : Nat → Nat → Nat → Nat → Nat → Nat → Nat → Nat
  | 0, _, _, _, _, _, _ => 0
  | k + 1, base, line, stride, b, blk, n =>
    let a := lineAddr base line stride b
    if n = 0 ∨ a / 4096 ≠ blk then 0 else
      let len := min (min n (line - b % line)) (4096 - a % 4096)
      len + copyRunLen k base line stride (b + len) blk (n - len)

/-- The tile of a COPY2D that carries stream bytes b to b + n - 1 (R109). -/
def copyTile (raw b n : Nat) : Tile :=
  { num := 0, anchor := lineAddr (c2Src raw) (c2SrcLine raw) (c2SrcStride raw) b,
    reads := lineSegs n (c2Src raw) (c2SrcLine raw) (c2SrcStride raw) b n, selfReads := [],
    writes := lineSegs n (c2Dst raw) (c2DstLine raw) (c2DstStride raw) b n, bytes := n, alen := n, arg := [b, n], phase := 1 }

/-- Tiles of a COPY2D on the engines, in stream order (R109), with fuel. -/
def copyTilesGo : Nat → Nat → Nat → Nat → List Tile
  | 0, _, _, _ => []
  | k + 1, raw, total, b =>
    if total ≤ b then [] else
      let a := lineAddr (c2Src raw) (c2SrcLine raw) (c2SrcStride raw) b
      let n := copyRunLen 4097 (c2Src raw) (c2SrcLine raw) (c2SrcStride raw) b (a / 4096) (min 4096 (total - b))
      copyTile raw b n :: copyTilesGo k raw total (b + n)

/-- Tiles of a COPY2D. -/
def tilesCopy2d (raw : Nat) : List Tile := numberTiles (copyTilesGo (c2Total raw) raw (c2Total raw) 0)

/-- Every destination granule is one source granule (R110). -/
def copyWhole (raw : Nat) : Bool :=
  [c2Src raw, c2Dst raw, c2SrcLine raw, c2DstLine raw, c2SrcStride raw, c2DstStride raw].all (fun x => x % 64 == 0)

/-- The lines of a COPY2D's two sides overlap (R103): for each source line, the last destination line that begins below its end. -/
def copyOverlap (raw : Nat) : Bool :=
  (List.range (c2SrcLines raw)).any (fun i =>
    let a := c2Src raw + i * c2SrcStride raw
    let z := a + c2SrcLine raw
    let j := if c2DstStride raw = 0 then 0 else min (c2DstLines raw - 1) ((z - 1 - c2Dst raw) / c2DstStride raw)
    decide (c2Dst raw < z) && overlaps (a, c2SrcLine raw) (c2Dst raw + j * c2DstStride raw, c2DstLine raw))

/-- Cut a range at granule boundaries, with fuel. -/
def granCuts : Nat → Nat → Nat → List (Nat × Nat)
  | 0, _, _ => []
  | k + 1, a, n => if n = 0 then [] else
      let len := min n (64 - a % 64)
      (a, len) :: granCuts k (a + len) (n - len)

/-- The destination runs of stream bytes b to b + n - 1, each inside one granule, with the stream byte each begins at. -/
def copyCuts (raw b n : Nat) : List (Nat × Nat × Nat) :=
  let segs := lineSegs n (c2Dst raw) (c2DstLine raw) (c2DstStride raw) b n
  let cuts := segs.flatMap (fun x => granCuts x.2 x.1 x.2)
  (cuts.foldl (fun (acc : List (Nat × Nat × Nat) × Nat) c => (acc.1 ++ [(c.1, c.2, acc.2)], acc.2 + c.2)) ([], b)).1

/-- Compute one tile of a COPY2D (R109, R110). -/
def computeCopy2d (raw : Nat) (t : Tile) (v : View) : CompOut :=
  let b := t.arg.getD 0 0
  let n := t.arg.getD 1 0
  let sa := fun i => lineAddr (c2Src raw) (c2SrcLine raw) (c2SrcStride raw) i
  if copyWhole raw then
    ⟨[], (List.range (n / 64)).map (fun i =>
      (lineAddr (c2Dst raw) (c2DstLine raw) (c2DstStride raw) (b + 64 * i) / 64, vGran v (sa (b + 64 * i)))), [], 0, none⟩
  else
    compRuns ((copyCuts raw b n).map (fun c =>
      ⟨c.1, (List.range c.2.1).map (fun i => vByte v (sa (c.2.2 + i))),
        (List.range c.2.1).any (fun i => vPois v (sa (c.2.2 + i)) 1)⟩)) 0

/-! FILL (R111, R112) -/

/-- A FILL is refused (R101, R111). -/
def badFill (raw : Nat) : Bool :=
  let pw := 2 ^ dfld raw 0x28 0 2
  let len := dfld raw 0x18 0 64
  !pvaOk (dfld raw 0x10 0 64) pw || len % pw != 0 || len == 0 || decide (2 ^ 40 < len)
  || dfld raw 0x20 0 64 / 2 ^ (8 * pw) != 0 || dfld raw 0x28 2 6 != 0 || !dzero raw 0x29 0x40

/-- Tiles of a FILL: the 4 KiB blocks of its destination. -/
def tilesFill (raw : Nat) : List Tile :=
  numberTiles ((blockCuts (dfld raw 0x10 0 64) (dfld raw 0x18 0 64)).map (fun c =>
    { num := 0, anchor := c.1, reads := [], selfReads := [], writes := [c], bytes := c.2, alen := c.2, arg := [c.1, c.2], phase := 1 }))

/-- Compute one tile of a FILL (R111). -/
def computeFill (raw : Nat) (t : Tile) : CompOut :=
  let pw := 2 ^ dfld raw 0x28 0 2
  let dst := dfld raw 0x10 0 64
  compRuns ((granCuts 66 (t.arg.getD 0 0) (t.arg.getD 1 0)).map (fun c =>
    ⟨c.1, (List.range c.2).map (fun i => BitVec.ofNat 8 (dfld raw 0x20 (8 * ((c.1 + i - dst) % pw)) 8)), false⟩)) 0

/-! Lists and bitmaps (R104, R105) -/

/-- Set bits of a bitmap of n bits, in ascending order. -/
def bitmapBits (v : View) (base n : Nat) : List Nat :=
  (List.range n).filter (fun i => (vByte v (base + i / 8)).getLsbD (i % 8))

/-- Entries of an index list. -/
def listEntries (v : View) (base count size : Nat) : List Nat :=
  (List.range count).map (fun i => vNat v (base + i * size) size)

/-- The first entry at or beyond a bound fails with BAD_DESCRIPTOR at its PVA, kind 1 (R105). Entries of a granule that is poisoned or
could not be read are not judged (R65). -/
def firstOob (v : View) (xs : List Nat) (bound base size : Nat) : Option Fin :=
  ((xs.zipIdx).find? (fun x => decide (bound ≤ x.1) && vSure v (base + x.2 * size) size)).map
    (fun x => Fin.atPva .badDescriptor (base + x.2 * size))

/-- What the pre-pass of a GATHER or SCATTER_ADD reads (R105); a limit that is passed reads nothing. -/
def rowPreRanges (raw : Nat) : List (Nat × Nat) :=
  let list := dfld raw 0x18 0 64
  let iform := dfld raw 0x34 0 2
  if iform = 2 then [(list, cdiv (dfld raw 0x28 0 32) 8)] else [(list, dfld raw 0x2C 0 32 * (if iform = 0 then 4 else 8))]

/-- A limit of R105 is passed before anything is read. -/
def rowPreLimit (raw : Nat) : Bool :=
  if dfld raw 0x34 0 2 = 2 then decide (16777216 < dfld raw 0x28 0 32) else decide (262144 < dfld raw 0x2C 0 32)

/-- The pre-pass of a GATHER or SCATTER_ADD (R105, R113, R114). -/
def rowPre (raw : Nat) (v : View) : Pre ⊕ Fin :=
  let list := dfld raw 0x18 0 64
  let rows := dfld raw 0x28 0 32
  let iform := dfld raw 0x34 0 2
  if iform = 2 then
    let xs := bitmapBits v list rows
    if 262144 < xs.length ∨ dfld raw 0x2C 0 32 < xs.length then .inr (Fin.of .badDescriptor) else .inl ⟨xs, []⟩
  else
    let size := if iform = 0 then 4 else 8
    let xs := listEntries v list (dfld raw 0x2C 0 32) size
    if dbit raw 0x34 2 then .inl ⟨xs, []⟩
    else match firstOob v xs rows list size with
      | some f => .inr f
      | none => .inl ⟨xs, []⟩

/-- Row length of R104. -/
def rowBytesOk (rb : Nat) : Bool := rb % 64 == 0 && decide (64 ≤ rb) && decide (rb ≤ 65536)

/-- The tile an element belongs to: the 4 KiB block of its first byte, or the element itself when it exceeds 4 KiB (R80). -/
def rowKey (base rb i : Nat) : Nat := if rb ≤ 4096 then (base + i * rb) / 4096 else i

/-- Positions of the list grouped by the tile of the row they name, in ascending anchor order; out-of-range entries apart. -/
def rowGroups (base rb rows : Nat) (xs : List Nat) : List (List (Nat × Nat)) :=
  let es := (xs.zipIdx).filter (fun x => decide (x.1 < rows))
  (dedupSort (es.map (fun x => rowKey base rb x.1))).map (fun k => es.filter (fun x => rowKey base rb x.1 == k))

/-- The distinct rows of a group. -/
def groupRows (g : List (Nat × Nat)) : List Nat := dedupSort (g.map (·.1))

/-- The first and the second half of a list with more than one member. -/
def halves (xs : List Nat) : Option (List Nat × List Nat) :=
  if xs.length ≤ 1 then none else some (xs.take (xs.length / 2), xs.drop (xs.length / 2))

/-- List positions halved by the rows they name, or by themselves where all name one row (R80; DESIGN CHOICE, log 16). -/
def rowHalves (xs js : List Nat) : Option (List Nat × List Nat) :=
  match halves (dedupSort (js.map (fun j => xs.getD j 0))) with
  | some h => some (js.filter (fun j => h.1.contains (xs.getD j 0)), js.filter (fun j => h.2.contains (xs.getD j 0)))
  | none => halves js

/-! GATHER (R113) -/

/-- A GATHER is refused (R101, R104). -/
def badGather (raw : Nat) : Bool :=
  !pvaOk (dfld raw 0x10 0 64) 64 || !pvaOk (dfld raw 0x18 0 64) 64 || !pvaOk (dfld raw 0x20 0 64) 64
  || dfld raw 0x28 0 32 == 0 || !rowBytesOk (dfld raw 0x30 0 32) || dfld raw 0x34 0 2 == 3
  || dfld raw 0x34 3 5 != 0 || !dzero raw 0x35 0x40

/-- The tile of a GATHER that moves the rows named at list positions js, in table order (R113). -/
def gatherTile (raw : Nat) (p : Pre) (js : List Nat) : Tile :=
  let table := dfld raw 0x10 0 64
  let rb := dfld raw 0x30 0 32
  let rs := dedupSort (js.map (fun j => p.xs.getD j 0))
  { num := 0, anchor := table + rs.headD 0 * rb, reads := rs.map (fun i => (table + i * rb, rb)), selfReads := [],
    writes := js.map (fun j => (dfld raw 0x20 0 64 + j * rb, rb)), bytes := js.length * rb, alen := rs.length * rb,
    arg := 0 :: js, phase := 1 }

/-- The tile of a GATHER that writes zero rows at list positions js (R113). -/
def gatherZero (raw : Nat) (js : List Nat) : Tile :=
  let dst := dfld raw 0x20 0 64
  let rb := dfld raw 0x30 0 32
  { num := 0, anchor := dst + js.headD 0 * rb, reads := [], selfReads := [], writes := js.map (fun j => (dst + j * rb, rb)),
    bytes := js.length * rb, alen := js.length * rb, arg := 1 :: js, phase := 1 }

/-- Tiles of a GATHER: by table block, then the zero rows by destination block (R113). -/
def tilesGather (raw : Nat) (p : Pre) : List Tile :=
  let table := dfld raw 0x10 0 64
  let dst := dfld raw 0x20 0 64
  let rb := dfld raw 0x30 0 32
  let rows := dfld raw 0x28 0 32
  let hit := (rowGroups table rb rows p.xs).map (fun g => gatherTile raw p (g.map (·.2)))
  let zs := ((p.xs.zipIdx).filter (fun x => decide (rows ≤ x.1))).map (·.2)
  let zero := (dedupSort (zs.map (fun j => rowKey dst rb j))).map (fun k => gatherZero raw (zs.filter (fun j => rowKey dst rb j == k)))
  numberTiles (hit ++ zero)

/-- Compute one tile of a GATHER: rows are copied whole (R113). -/
def computeGather (raw : Nat) (p : Pre) (t : Tile) (v : View) : CompOut :=
  let table := dfld raw 0x10 0 64
  let dst := dfld raw 0x20 0 64
  let rb := dfld raw 0x30 0 32
  let zero := t.arg.headD 0 == 1
  ⟨[], t.arg.tail.flatMap (fun j => (List.range (rb / 64)).map (fun g =>
    ((dst + j * rb) / 64 + g, if zero then zeroGran else vGran v (table + p.xs.getD j 0 * rb + 64 * g)))), [], 0, none⟩

/-! SCATTER_ADD (R114, R449) -/

/-- A SCATTER_ADD is refused (R101, R104, R114). -/
def badScatter (raw : Nat) : Bool :=
  !pvaOk (dfld raw 0x10 0 64) 64 || !pvaOk (dfld raw 0x18 0 64) 64 || !pvaOk (dfld raw 0x20 0 64) 64
  || !rowBytesOk (dfld raw 0x30 0 32) || dfld raw 0x34 0 2 == 3 || dbit raw 0x34 3
  || !([0, 1, 2, 12].contains (dfld raw 0x34 4 4)) || !numctlOk (dfld raw 0x35 0 8) || !dzero raw 0x36 0x40

/-- The tile of a SCATTER_ADD that adds the source rows at list positions js; the table is read and written under rmw. -/
def scatterTile (raw : Nat) (p : Pre) (js : List Nat) : Tile :=
  let table := dfld raw 0x10 0 64
  let rb := dfld raw 0x30 0 32
  let rs := dedupSort (js.map (fun j => p.xs.getD j 0))
  { num := 0, anchor := table + rs.headD 0 * rb, reads := js.map (fun j => (dfld raw 0x20 0 64 + j * rb, rb)),
    selfReads := rs.map (fun i => (table + i * rb, rb)), writes := rs.map (fun i => (table + i * rb, rb)),
    bytes := js.length * rb, alen := rs.length * rb, arg := js, phase := 1 }

/-- Tiles of a SCATTER_ADD: by table block. -/
def tilesScatter (raw : Nat) (p : Pre) : List Tile :=
  numberTiles ((rowGroups (dfld raw 0x10 0 64) (dfld raw 0x30 0 32) (dfld raw 0x28 0 32) p.xs).map (fun g => scatterTile raw p (g.map (·.2))))

/-- An exact integer sum as INT32: saturated with sat, else wrapped, with overflow outside the range (R114, R150); what is stored then
differs from the exact sum, so that it is inexact too (R159). -/
def int32Sum (sat : Bool) (i : Int) : Nat × Nat :=
  if i < -(2 ^ 31 : Int) ∨ (2 ^ 31 : Int) ≤ i then
    (if sat then (if i < 0 then 2 ^ 31 else 2 ^ 31 - 1) else (i % (2 ^ 32 : Int)).toNat, flOverflow + flInexact)
  else ((i % (2 ^ 32 : Int)).toNat, 0)

/-- Compute one tile of a SCATTER_ADD: all contributions of the tile to an element are added in FP32, in a free order, and
rounded once (R114; log 20). -/
def computeScatter (raw : Nat) (p : Pre) (t : Tile) (v : View) (base : Nat) : CompOut :=
  let table := dfld raw 0x10 0 64
  let src := dfld raw 0x20 0 64
  let rb := dfld raw 0x30 0 32
  let nc := dfld raw 0x35 0 8
  let el := (elemOf (dfld raw 0x34 4 4)).getD (.int 32)
  let w := el.width / 8
  let rows := dedupSort (t.arg.map (fun j => p.xs.getD j 0))
  runsOf ((rows.zipIdx).flatMap (fun x =>
    let i := x.1
    let js := t.arg.filter (fun j => p.xs.getD j 0 == i)
    let ord := freeOrder (base + orderDraws + x.2 * 2 ^ 20) js.length
    (List.range (rb / w)).map (fun e =>
      let old := vLoad v el (table + i * rb) e
      let cs := (js.map (fun j => vLoad v el (src + j * rb) e))
      let cs := if cs.length ≤ 1 then cs else ord.map (fun k => cs.getD k old)
      let pois := old.p || cs.any (·.p)
      match el with
      | .int _ =>
        let int := fun a => toInt 32 (vElem v a 32 e)
        let r := int32Sum (ncSat nc) (js.foldl (fun a j => a + int (src + j * rb)) (int (table + i * rb)))
        (⟨table + i * rb + e * w, natToLe 4 r.1, pois⟩, if pois then 0 else r.2)
      | _ => elemRun el (ncRnd nc base (x.2 * (rb / w) + e)) (ncSat nc) (table + i * rb) e (cs.foldl (pOp fAdd) old))))

/-! EMBED_BAG (R115) -/

/-- Bytes of a table row. -/
def ebRow (raw : Nat) : Nat := dfld raw 0x3C 0 32 * (((elemOf (dfld raw 0x45 0 4)).map (·.width)).getD 8 / 8)
/-- Bytes of an output row. -/
def ebOut (raw : Nat) : Nat := dfld raw 0x3C 0 32 * (((elemOf (dfld raw 0x45 4 4)).map (·.width)).getD 8 / 8)

/-- An EMBED_BAG is refused (R101, R115). -/
def badEmbed (raw : Nat) : Bool :=
  !pvaOk (dfld raw 0x10 0 64) 64 || !pvaOk (dfld raw 0x18 0 64) 64 || !pvaOk (dfld raw 0x20 0 64) 64
  || !pvaOk (dfld raw 0x28 0 64) 64 || !pvaOk (dfld raw 0x30 0 64) 64
  || (!dbit raw 0x44 4 && dfld raw 0x28 0 64 != 0)
  || dfld raw 0x40 0 32 == 0 || decide (65536 < dfld raw 0x40 0 32)
  || dfld raw 0x44 2 2 == 3 || dfld raw 0x44 5 3 != 0
  || decide (4 < dfld raw 0x45 0 4) || decide (2 < dfld raw 0x45 4 4) || !numctlOk (dfld raw 0x46 0 8)
  || ebRow raw % 64 != 0 || decide (65536 < ebRow raw) || ebOut raw % 64 != 0 || decide (65536 < ebOut raw)
  || dfld raw 0x3C 0 32 == 0 || !dzero raw 0x47 0x80

/-- The offsets that the first pass of the pre-pass judges (R115): the first bad one fails at its PVA; one of a granule that is poisoned or
could not be read is not judged (R65). -/
def embedOffsets (raw : Nat) (v : View) : Pre ⊕ Fin :=
  let base := dfld raw 0x20 0 64
  let n := dfld raw 0x40 0 32
  let xs := listEntries v base (n + 1) 4
  let bad := (List.range (n + 1)).find? (fun i =>
    vSure v (base + 4 * i) 4 && ((i == 0 && xs.getD 0 0 != 0)
      || (i != 0 && vSure v (base + 4 * (i - 1)) 4 && decide (xs.getD i 0 < xs.getD (i - 1) 0))
      || (i == n && decide (262144 < xs.getD i 0))))
  match bad with
  | some i => .inr (Fin.atPva .badDescriptor (base + i * 4))
  | none => .inl ⟨xs, []⟩

/-- The second pass reads the list (R105, R115). -/
def embedList (raw : Nat) (p : Pre) (v : View) : Pre ⊕ Fin :=
  let list := dfld raw 0x18 0 64
  let size := if dbit raw 0x44 0 then 8 else 4
  let xs := listEntries v list (p.xs.getLastD 0) size
  if dbit raw 0x44 1 then .inl ⟨p.xs, xs⟩
  else match firstOob v xs (dfld raw 0x38 0 32) list size with
    | some f => .inr f
    | none => .inl ⟨p.xs, xs⟩

/-- The bag that list entry k belongs to. -/
def bagOf (p : Pre) (k : Nat) : Nat := (p.xs.filter (fun o => decide (o ≤ k))).length - 1

/-- The entries of bag b that count (R115). -/
def bagEntries (raw : Nat) (p : Pre) (b : Nat) : List Nat :=
  (List.range (p.xs.getD (b + 1) 0)).filter (fun k => decide (p.xs.getD b 0 ≤ k) && decide (p.ys.getD k 0 < dfld raw 0x38 0 32))

/-- The tile of an EMBED_BAG that sums the rows named at list positions ks. -/
def embedTile (raw : Nat) (p : Pre) (ks : List Nat) : Tile :=
  let table := dfld raw 0x10 0 64
  let rb := ebRow raw
  let rs := dedupSort (ks.map (fun k => p.ys.getD k 0))
  { num := 0, anchor := table + rs.headD 0 * rb,
    reads := rs.map (fun i => (table + i * rb, rb)) ++ (if dbit raw 0x44 4 then ks.map (fun k => (dfld raw 0x28 0 64 + k * 4, 4)) else []),
    selfReads := [], writes := [], bytes := 0, alen := rs.length * rb, arg := 0 :: ks, phase := 1 }

/-- Tiles of an EMBED_BAG: by table block, then one for each bag with no counted entry, anchored at its output (DEDUCED, log 21). -/
def tilesEmbed (raw : Nat) (p : Pre) : List Tile :=
  let hit := (rowGroups (dfld raw 0x10 0 64) (ebRow raw) (dfld raw 0x38 0 32) p.ys).map (fun g => embedTile raw p (g.map (·.2)))
  let none := ((List.range (dfld raw 0x40 0 32)).filter (fun b => (bagEntries raw p b) == [])).map (fun b =>
    ({ num := 0, anchor := dfld raw 0x30 0 64 + b * ebOut raw, reads := [], selfReads := [], writes := [], bytes := 0,
       alen := ebOut raw, arg := [1, b], phase := 1 } : Tile))
  numberTiles (hit ++ none)

/-- A value as it stands in a partial state. -/
def partVal (x : Px) : Nat × Bool := (bits32 x.x, x.p)

/-- A value from a partial state. -/
def valPart (x : Nat × Bool) : Px := ⟨val32 x.1, x.2⟩

/-- Add or compare one contribution to a bag. -/
def embedStep (mode : Nat) (a b : Px) : Px := if mode = 2 then pOp fMax a b else pOp fAdd a b

/-- Compute one tile of an EMBED_BAG: a partial bag for each bag it touches (R115). -/
def computeEmbed (raw : Nat) (p : Pre) (t : Tile) (v : View) : CompOut :=
  let table := dfld raw 0x10 0 64
  let dim := dfld raw 0x3C 0 32
  let mode := dfld raw 0x44 2 2
  let el := (elemOf (dfld raw 0x45 0 4)).getD (.int 8)
  if t.arg.headD 0 = 1 then ⟨[], [], [⟨t.num, t.arg.getD 1 0, 0, [], 0, false⟩], 0, none⟩ else
    let ks := t.arg.tail
    let parts := (dedupSort (ks.map (bagOf p))).map (fun b =>
      let mine := ks.filter (fun k => bagOf p k == b)
      let contrib := fun (k e : Nat) =>
        let x := vLoad v el (table + p.ys.getD k 0 * ebRow raw) e
        if dbit raw 0x44 4 then pOp fMul (vLoad v (.fl ffFp32) (dfld raw 0x28 0 64) k) x else x
      let vals := (List.range dim).map (fun e =>
        match mine with
        | [] => pVal ⟨fpZero, 0⟩
        | k :: rest => rest.foldl (fun a k => embedStep mode a (contrib k e)) (contrib k e))
      (⟨t.num, b, mine.length, vals.map partVal, flAll vals, false⟩ : Part))
    ⟨[], [], parts, parts.foldl (fun a q => flOr a q.fl) 0, none⟩

/-- Write a bag once every tile has contributed: partials combine in the order they arrived (R115). -/
def finishEmbed (raw b : Nat) (parts : List Part) (base : Nat) : CompOut :=
  let dim := dfld raw 0x3C 0 32
  let mode := dfld raw 0x44 2 2
  let nc := dfld raw 0x46 0 8
  let el := (elemOf (dfld raw 0x45 4 4)).getD (.fl ffFp32)
  let ps := parts.filter (fun q => q.cnt ≠ 0)
  let n := (ps.map (·.cnt)).sum
  runsOf ((List.range dim).map (fun e =>
    let xs := ps.map (fun q => valPart (q.vals.getD e (0, false)))
    let x := if mode = 2 ∧ xs ≠ [] then xs.tail.foldl (embedStep mode) (xs.headD (pVal ⟨fpZero, 0⟩))
      else xs.foldl (embedStep mode) (pVal ⟨fpZero, 0⟩)
    let x := if mode = 1 ∧ n ≠ 0 then pOp fDiv x (pVal ⟨fpInt n, 0⟩) else x
    elemRun el (ncRnd nc base (b * dim + e)) (ncSat nc) (dfld raw 0x30 0 64 + b * ebOut raw) e x))

/-! REDUCE (R116) -/

/-- Source element bytes of a REDUCE. -/
def rdSrcW (raw : Nat) : Nat := ((elemOf (dfld raw 0x1D 0 4)).map (·.width)).getD 32 / 8
/-- Destination element bytes of a REDUCE. -/
def rdDstW (raw : Nat) : Nat := ((elemOf (dfld raw 0x1D 4 4)).map (·.width)).getD 32 / 8
/-- Source k of a REDUCE. -/
def rdSrc (raw k : Nat) : Nat := dfld raw (0x20 + 8 * k) 0 64

/-- A REDUCE is refused (R101, R116). -/
def badReduce (raw : Nat) : Bool :=
  let count := dfld raw 0x18 0 32
  let n := dfld raw 0x1C 0 4
  let fs := dfld raw 0x1D 0 4
  let fd := dfld raw 0x1D 4 4
  !pvaOk (dfld raw 0x10 0 64) 64 || count == 0 || n == 0 || decide (8 < n) || dfld raw 0x1C 4 2 == 3 || dbit raw 0x1C 7
  || !([0, 1, 2, 12].contains fs) || !([0, 1, 2, 12].contains fd) || ((fs == 12) != (fd == 12))
  || !numctlOk (dfld raw 0x1E 0 8) || dfld raw 0x1F 0 8 != 0
  || (List.range 8).any (fun k => if k < n then !pvaOk (rdSrc raw k) 64 else rdSrc raw k != 0)
  || count * rdSrcW raw % 64 != 0 || decide (2 ^ 36 < count * rdSrcW raw)
  || count * rdDstW raw % 64 != 0 || decide (2 ^ 36 < count * rdDstW raw) || !dzero raw 0x60 0x80

/-- The tile of a REDUCE that forms n elements from e0 on. -/
def reduceTile (raw e0 n : Nat) : Tile :=
  let c := (dfld raw 0x10 0 64 + e0 * rdDstW raw, n * rdDstW raw)
  { num := 0, anchor := c.1,
    reads := (List.range (dfld raw 0x1C 0 4)).map (fun k => (rdSrc raw k + e0 * rdSrcW raw, n * rdSrcW raw)),
    selfReads := if dbit raw 0x1C 6 then [c] else [], writes := [c], bytes := c.2, alen := c.2, arg := [e0, n], phase := 1 }

/-- Tiles of a REDUCE: the 4 KiB blocks of its destination. -/
def tilesReduce (raw : Nat) : List Tile :=
  let dst := dfld raw 0x10 0 64
  numberTiles ((blockCuts dst (dfld raw 0x18 0 32 * rdDstW raw)).map (fun c =>
    reduceTile raw ((c.1 - dst) / rdDstW raw) (c.2 / rdDstW raw)))

/-- Compute one tile of a REDUCE; the order of a sum is free (R116). -/
def computeReduce (raw : Nat) (t : Tile) (v : View) (base : Nat) : CompOut :=
  let dst := dfld raw 0x10 0 64
  let nc := dfld raw 0x1E 0 8
  let op := dfld raw 0x1C 4 2
  let es := (elemOf (dfld raw 0x1D 0 4)).getD (.int 32)
  let ed := (elemOf (dfld raw 0x1D 4 4)).getD (.int 32)
  let n := dfld raw 0x1C 0 4
  let acc := dbit raw 0x1C 6
  let e0 := t.arg.getD 0 0
  runsOf ((List.range (t.arg.getD 1 0)).map (fun i =>
    let e := e0 + i
    let xs := (List.range n).map (fun k => vLoad v es (rdSrc raw k) e) ++ (if acc then [vLoad v ed dst e] else [])
    let pois := xs.any (·.p)
    match ed with
    | .int _ =>
      let ints := ((List.range n).map (fun k => toInt 32 (vElem v (rdSrc raw k) 32 e)))
        ++ (if acc then [toInt 32 (vElem v dst 32 e)] else [])
      let r := if op = 0 then ints.foldl (· + ·) 0
        else if op = 1 then ints.tail.foldl max (ints.headD 0) else ints.tail.foldl min (ints.headD 0)
      let y := int32Sum (ncSat nc) r
      (⟨dst + e * 4, natToLe 4 y.1, pois⟩, if pois then 0 else y.2)
    | _ =>
      let ord := if xs.length ≤ 2 then List.range xs.length else freeOrder (base + orderDraws + e * 16) xs.length
      let ys := if op = 0 then ord.map (fun k => xs.getD k (pVal ⟨fpZero, 0⟩)) else xs
      let r := ys.tail.foldl (pOp (if op = 0 then fAdd else if op = 1 then fMax else fMin)) (ys.headD (pVal ⟨fpZero, 0⟩))
      elemRun ed (ncRnd nc base e) (ncSat nc) dst e r))

/-! ATOMIC (R117) -/

/-- Signed value of 64 bits. -/
def sgn64 (x : Nat) : Int := toInt 64 x

/-- The new value of an atomic operation and whether it is stored (R117). -/
def atomicNew (op old operand compare : Nat) : Nat × Bool :=
  if op = 0 then ((old + operand) % 2 ^ 64, true)
  else if op = 1 then (operand, true)
  else if op = 2 then (operand, old == compare)
  else if op = 3 then (if sgn64 old ≤ sgn64 operand then old else operand, true)
  else if op = 4 then (if sgn64 old ≤ sgn64 operand then operand else old, true)
  else if op = 5 then (min old operand, true)
  else (max old operand, true)

/-- An ATOMIC is refused (R101, R117). -/
def badAtomic (raw : Nat) : Bool :=
  !pvaOk (dfld raw 0x10 0 64) 8 || (dfld raw 0x30 0 4 != 2 && dfld raw 0x20 0 64 != 0)
  || decide (6 < dfld raw 0x30 0 4)
  || (if dbit raw 0x30 4 then !pvaOk (dfld raw 0x28 0 64) 8 else dfld raw 0x28 0 64 != 0)
  || dfld raw 0x30 5 3 != 0 || !dzero raw 0x31 0x40

/-! QUANTIZE (R119) -/

/-- A format of R99 is known and its feature bit is committed. -/
def fmtOk (s : State) (code : Nat) : Bool := (elemOf code).isSome && (fmtFeature code == 0 || feature s (fmtFeature code))

/-- A format code names an MX format. -/
def fmtMx (code : Nat) : Bool := ((elemOf code).map (·.isMx)).getD false

/-- A QUANTIZE is refused (R99, R101, R119). -/
def badQuantize (s : State) (raw : Nat) : Bool :=
  let count := dfld raw 0x30 0 32
  let fs := dfld raw 0x34 0 4
  let fd := dfld raw 0x34 4 4
  !pvaOk (dfld raw 0x10 0 64) 64 || !pvaOk (dfld raw 0x18 0 64) 64
  || !fmtOk s fs || !fmtOk s fd || !numctlOk (dfld raw 0x35 0 8) || count == 0 || count % 256 != 0
  || (if fmtMx fs then !pvaOk (dfld raw 0x20 0 64) 1 else dfld raw 0x20 0 64 != 0)
  || (if fmtMx fd then !pvaOk (dfld raw 0x28 0 64) 1 else dfld raw 0x28 0 64 != 0)
  || !dzero raw 0x36 0x40

/-- Bits per element of a format code. -/
def fmtBits (code : Nat) : Nat := ((elemOf code).map (·.width)).getD 8

/-- Tiles of a QUANTIZE: the 32-element blocks whose first source byte lies in a 4 KiB block. -/
def tilesQuantize (raw : Nat) : List Tile :=
  let src := dfld raw 0x10 0 64
  let dst := dfld raw 0x18 0 64
  let fs := dfld raw 0x34 0 4
  let fd := dfld raw 0x34 4 4
  let sb := 4 * fmtBits fs
  let db := 4 * fmtBits fd
  let blks := List.range (dfld raw 0x30 0 32 / 32)
  numberTiles ((dedupSort (blks.map (fun b => (src + b * sb) / 4096))).map (fun k =>
    let bs := blks.filter (fun b => (src + b * sb) / 4096 == k)
    let b0 := bs.headD 0
    let n := bs.length
    { num := 0, anchor := src + b0 * sb,
      reads := (src + b0 * sb, n * sb) :: (if fmtMx fs then [(dfld raw 0x20 0 64 + b0, n)] else []), selfReads := [],
      writes := (dst + b0 * db, n * db) :: (if fmtMx fd then [(dfld raw 0x28 0 64 + b0, n)] else []),
      bytes := n * db + (if fmtMx fd then n else 0), alen := n * sb, arg := [b0, n], phase := 1 }))

/-- Compute one tile of a QUANTIZE (R119). An MX block is encoded from FP32 values (R149): an integer source is rounded to FP32 first. -/
def computeQuantize (raw : Nat) (t : Tile) (v : View) (base : Nat) : CompOut :=
  let src := dfld raw 0x10 0 64
  let dst := dfld raw 0x18 0 64
  let nc := dfld raw 0x35 0 8
  let es := (elemOf (dfld raw 0x34 0 4)).getD (.int 8)
  let ed := (elemOf (dfld raw 0x34 4 4)).getD (.int 8)
  runsOf ((List.range (t.arg.getD 1 0)).flatMap (fun i =>
    let b := t.arg.getD 0 0 + i
    let xs := (List.range 32).map (fun k => vLoadMx v es src (dfld raw 0x20 0 64) (b * 32 + k))
    let pois := xs.any (·.p)
    let rs := (List.range 32).map (fun k => ncRnd nc base (b * 32 + k))
    if ed.isMx then
      let y := mxEncode ed rs (ncSat nc) (xs.map (fun x => toF32 x.x.v x.x.fl))
      [(⟨dst + b * (4 * ed.width), packBits ed.width y.2.1, pois⟩, if pois then 0 else y.2.2),
       (⟨dfld raw 0x28 0 64 + b, natToLe 1 y.1, pois⟩, 0)]
    else
      let ys := (xs.zip rs).map (fun x => encodeElem ed x.2 (ncSat nc) x.1.x)
      [(⟨dst + b * (4 * ed.width), packBits ed.width (ys.map (·.1)), pois⟩,
        if pois then 0 else ys.foldl (fun a y => flOr a y.2) 0)]))

/-! SCRUB_RANGE (R120) -/

/-- A SCRUB_RANGE is refused (R101, R120). -/
def badScrub (raw : Nat) : Bool :=
  let len := dfld raw 0x18 0 64
  !pvaOk (dfld raw 0x10 0 64) 4096 || len % 4096 != 0 || len == 0 || decide (2 ^ 40 < len)
  || !pvaOk (dfld raw 0x20 0 64) 64 || dfld raw 0x28 1 7 != 0 || !dzero raw 0x29 0x40

end Sys2Proof.Machine
end

