-- ==== Sys2Proof/Machine/Codeword.lean ====
section
/-!
DEFINITION. Machine/Codeword.lean: the Reed-Solomon code of a stored codeword (spec 11, R235 to R238). The code is
linear, so what the decoder finds depends on the symbols in error alone, and the decoded word is the stored word with
a residual pattern added, which is empty whenever one or two symbols were wrong.
-/
namespace Sys2Proof.Machine
open Sys2Proof

/-- Multiplication by the primitive element 0x02 with field polynomial x^8+x^4+x^3+x^2+1 (R236). -/
def gfX2 (a : Nat) : Nat := if a < 128 then a * 2 else Nat.xor (a * 2 % 256) 0x1D

/-- Product in GF(2^8): b's bits from the lowest, a doubling each time. -/
def gfMulGo : Nat → Nat → Nat → Nat
  | 0, _, _ => 0
  | n + 1, a, b => Nat.xor (if b % 2 = 1 then a else 0) (gfMulGo n (gfX2 a) (b / 2))

/-- Product in GF(2^8). -/
def gfMul (a b : Nat) : Nat := gfMulGo 8 a b

/-- Power in GF(2^8). -/
def gfPow (a : Nat) : Nat → Nat
  | 0 => 1
  | n + 1 => gfMul a (gfPow a n)

/-- Inverse of a non-zero element: its 254th power. -/
def gfInv (a : Nat) : Nat := gfPow a 254

/-- The locator of symbol i: byte i is the coefficient of x^(71-i) (R236). -/
def rsLoc (i : Nat) : Nat := gfPow 2 (71 - i)

/-- Syndrome j of an error pattern (R236). -/
def rsSyn (e : SymErr) (j : Nat) : Nat :=
  e.foldl (fun acc p => Nat.xor acc (gfMul p.2 (gfPow (rsLoc p.1) j))) 0

/-- The sum of two error patterns: symbols of equal value cancel. -/
def errAdd (a b : SymErr) : SymErr :=
  b.foldl (fun m p => nset 0 m p.1 (Nat.xor (ngetD 0 m p.1) p.2)) a

/-- A pattern of one symbol with the syndromes of e, if there is one. -/
def rsOne (s0 s1 s2 s3 : Nat) : Option SymErr :=
  (List.range 72).findSome? fun i =>
    let a := rsLoc i
    if s0 ≠ 0 ∧ gfMul s0 a = s1 ∧ gfMul s1 a = s2 ∧ gfMul s2 a = s3 then some [(i, s0)] else none

/-- A pattern of two symbols with the syndromes of e, if there is one. -/
def rsTwo (s0 s1 s2 s3 : Nat) : Option SymErr :=
  (List.range 72).findSome? fun i =>
    (List.range i).findSome? fun k =>
      let a := rsLoc i
      let b := rsLoc k
      let x := gfMul (Nat.xor s1 (gfMul s0 b)) (gfInv (Nat.xor a b))
      let y := Nat.xor s0 x
      let a2 := gfMul a a
      let b2 := gfMul b b
      if x ≠ 0 ∧ y ≠ 0 ∧ Nat.xor (gfMul x a2) (gfMul y b2) = s2
          ∧ Nat.xor (gfMul x (gfMul a2 a)) (gfMul y (gfMul b2 b)) = s3
      then some [(k, y), (i, x)] else none

/-- Outcome of decoding one codeword (R238): the residual pattern left in the returned word, the symbols the decoder
changed, or uncorrectable. -/
inductive RsOut where
  | clean (residual : SymErr)
  | corrected (changed residual : SymErr)
  | uncorrectable
deriving DecidableEq, Repr

/-- A residual pattern leaves the reserved bits of byte 66 and the format byte 67 valid (R238). -/
def residualValid (e : SymErr) : Bool := ngetD 0 e 66 / 8 == 0 && ngetD 0 e 67 == 0

/-- Decode a codeword whose symbols in error are e (R238). -/
def rsDecode (e : SymErr) : RsOut :=
  if e = [] then .clean [] else
    let s0 := rsSyn e 0
    let s1 := rsSyn e 1
    let s2 := rsSyn e 2
    let s3 := rsSyn e 3
    if s0 = 0 ∧ s1 = 0 ∧ s2 = 0 ∧ s3 = 0 then
      if residualValid e then .clean e else .uncorrectable
    else
      match (rsOne s0 s1 s2 s3).orElse (fun _ => rsTwo s0 s1 s2 s3) with
      | some c => if residualValid (errAdd e c) then .corrected c (errAdd e c) else .uncorrectable
      | none => .uncorrectable

end Sys2Proof.Machine
end

