-- ==== Sys2Proof/Machine/Layout.lean ====
section
/-!
DEFINITION. Machine/Layout.lean: from a node-local offset to the byte of a channel (spec 10, R209 to R217; spec 11, R251,
R252). A physical byte address is (stack × 32 + channel) × 3 GiB + z, where the stack is the member number, so that
the bit number of R230 for its block is the address divided by 4,096.
-/
namespace Sys2Proof.Machine
open Sys2Proof

/-- Bytes of one channel (R209). -/
def chanBytes : Nat := 3221225472

/-- Bytes of an ell and of a frame. -/
def ellBytes : Nat := 65536

/-- The member stacks, in ascending number (spec 10 R210, spec 11 R251). -/
def members (s : State) : List Nat :=
  if s.mem.prot then (List.range 12).filter (fun k => k ≠ s.mem.spare) else List.range 12

/-- The member index of a stack (R251). -/
def memberIndex (s : State) (st : Nat) : Nat := (members s).findIdx (fun k => k == st)

/-- Data frames of a member stack (R210, R252). -/
def framesOf (s : State) (st : Nat) : Nat :=
  if s.mem.prot then (if memberIndex s st ≤ 6 then 1429876 else 1429877) else 1572864

/-- The local capacity C in bytes (R210). -/
def capacity (s : State) : Nat := ((members s).map (framesOf s)).sum * ellBytes

/-- Reserved frames per member stack (R211). -/
def rsvFrames (s : State) : Nat := clamp 96 4096 (getF s Reg.smcRsv_frames)

/-- The first local offset of reserved memory (R211). -/
def rsvBase (s : State) : Nat := capacity s - (members s).length * rsvFrames s * ellBytes

/-- The grain of profile n (R212). -/
def profGrain (s : State) (n : Nat) : Nat := 2 ^ clamp 8 16 (getF s Reg.smcProf_grain_log2 n)

/-- The stack list of profile n: member stacks of the mask, or every member of an empty mask (R212). -/
def profList (s : State) (n : Nat) : List Nat :=
  let l := (members s).filter (fun k => bitOf (getF s Reg.smcProf_stack_mask n) k)
  if l = [] then members s else l

/-- The physical frame of data frame d of stack st (R210, R252). -/
def physFrame (s : State) (st d : Nat) : Nat :=
  if s.mem.prot then
    let i := memberIndex s st
    11 * (d / 10) + (if i ≤ d % 10 then d % 10 + 1 else d % 10)
  else d

/-- The physical address of byte y of data frame d of stack st at grain g (R215). -/
def frameByte (s : State) (st d y g : Nat) : Nat :=
  let p := physFrame s st d
  let cg := min g 16384
  let v := y / cg
  (st * 32 + 4 * (p % 8) + v % 4) * chanBytes + (p / 8) * 16384 + (v / 4) * cg + y % cg

/-- Where a byte of an extent lies: none when its frame is reserved or beyond the stack (R213, R214, R216, R20). -/
def locate (s : State) (pl : Place) (l : Nat) : Option Nat :=
  if rsvBase s ≤ l then none
  else if pl.affEn then
    let f := (l / ellBytes) % framesOf s pl.affStack
    if pl.affStack ∈ members s ∧ f < framesOf s pl.affStack - rsvFrames s then
      some (frameByte s pl.affStack f (l % ellBytes) (profGrain s pl.icls))
    else none
  else
    let list := profList s pl.icls
    let m := list.length
    let g := profGrain s pl.icls
    let r := l / (m * ellBytes)
    let x := l % (m * ellBytes)
    let q := x / g
    if list.all (fun k => decide (r < framesOf s k - rsvFrames s)) then
      some (frameByte s (list.getD (q % m) 0) r ((q / m) * g + x % g) g)
    else none

/-- Where a byte of reserved memory lies (R211). -/
def locateRsv (s : State) (l : Nat) : Option Nat :=
  if rsvBase s ≤ l ∧ l < capacity s then
    let list := members s
    let m := list.length
    let o := l - rsvBase s
    let r := o / (m * ellBytes)
    let x := o % (m * ellBytes)
    let q := x / 4096
    let st := list.getD (q % m) 0
    some (frameByte s st (framesOf s st - rsvFrames s + r) ((q / m) * 4096 + x % 4096) 4096)
  else none

/-- Where a byte of a structure addressed by PPA lies: reserved memory by address alone (R218); elsewhere by profile 0
without affinity (DESIGN CHOICE, log 12: the spec names no layout for such a structure). -/
def hwLocate (s : State) (l : Nat) : Option Nat :=
  if rsvBase s ≤ l then locateRsv s l else locate s ⟨0, false, 0⟩ l

/-- Stack of a physical address. -/
def stackOf (p : Nat) : Nat := p / chanBytes / 32

/-- Stack × 32 + channel of a physical address. -/
def chanOf (p : Nat) : Nat := p / chanBytes

/-- Channel address z of a physical address. -/
def zOf (p : Nat) : Nat := p % chanBytes

/-- The physical frame a physical address lies in (R215). -/
def frameOfPhys (p : Nat) : Nat := 8 * (zOf p / 16384) + (chanOf p % 32) / 4

/-- The member index that holds the parity of a physical frame (R251). -/
def parityMember (pf : Nat) : Nat := pf % 11

/-- A physical address lies in reserved memory (R211), whose blocks are never elided (R230). -/
def isRsvPhys (s : State) (p : Nat) : Bool :=
  let st := stackOf p
  let pf := frameOfPhys p
  if s.mem.prot then
    let i := memberIndex s st
    let j := pf % 11
    j ≠ i && decide (framesOf s st - rsvFrames s ≤ 10 * (pf / 11) + (if i < j then j - 1 else j))
  else decide (framesOf s st - rsvFrames s ≤ pf)

/-- The channel unit of a placement (R215). -/
def chanUnit (s : State) (pl : Place) : Nat := min (profGrain s pl.icls) 16384

/-- The node's own fabric address (spec 01 R20; spec 19). -/
def ownerOf (ppa : Nat) : Nat := ppa / 2 ^ 42 % 2 ^ 14

/-- The local offset of a PPA (R30). -/
def localOf (ppa : Nat) : Nat := ppa % 2 ^ 42

end Sys2Proof.Machine
end

