-- ==== Sys2Proof/Machine/Mem.lean ====
section
/-!
DEFINITION. Machine/Mem.lean: pool memory as granules in codewords (spec 10 R230 to R234, spec 11 R235 to R253), the
structures the hardware keeps by PPA (spec 17 R444), and the rings it writes (spec 01 R441, R442).
-/
namespace Sys2Proof.Machine
open Sys2Proof

/-- A codeword that nothing has written: the zero codeword of R230 and R254. -/
def metaZero : GranMeta := { poison := false, key := none, gxor := 0, errs := [], zero := true }

/-- The poisoned codeword (R235). -/
def metaPoison : GranMeta := { poison := true, key := none, gxor := 0, errs := [] }

/-- The byte at a physical address; an unlisted byte reads zero (R230, R254). -/
def byteAt (s : State) (p : Nat) : Byte := ngetD 0 s.mem.bytes p

/-- What an unlisted granule g holds: the zero codeword, or poison where a lost zero-map granule covers it (R233, R256). -/
def granDef (m : MemState) (g : Nat) : GranMeta := if ngetD false m.pdef (g / 32768) then metaPoison else metaZero

/-- What an unlisted zero-map bit reads as: set, or clear where its map granule was lost (R230, R233). -/
def zbitDef (m : MemState) (n : Nat) : Bool := !ngetD false m.pdef (n / 512)

/-- The one canonical form of memory: addresses strictly rising and no entry equal to what an unlisted one reads as. -/
def Memory.wf (m : MemState) : Bool :=
  nwf 0 m.bytes && nwfBy (granDef m) m.gran && nwfBy (zbitDef m) m.zmap && nwf false m.zlost && nwf false m.pdef && nwf false m.lostCh

/-- What an unlisted granule of this machine holds. -/
def metaDef (s : State) (g : Nat) : GranMeta := granDef s.mem g

/-- The stored metadata of physical granule g. -/
def metaAt (s : State) (g : Nat) : GranMeta := ngetD (metaDef s g) s.mem.gran g

/-- Set the byte at a physical address. -/
def putByte (s : State) (p : Nat) (b : Byte) : State :=
  { s with mem := { s.mem with bytes := nset 0 s.mem.bytes p b } }

/-- Set bytes from a physical address on. -/
def putBytes : State → Nat → List Byte → State
  | s, _, [] => s
  | s, p, b :: bs => putBytes (putByte s p b) (p + 1) bs

/-- Set the stored metadata of physical granule g. -/
def putMeta (s : State) (g : Nat) (m : GranMeta) : State :=
  { s with mem := { s.mem with gran := nset (metaDef s g) s.mem.gran g m } }

/-- The 64 bytes of physical granule g. -/
def granBytes (s : State) (g : Nat) : List Byte := (List.range 64).map (fun i => byteAt s (g * 64 + i))

/-- The zero-map bit of physical block n (R230): clear in reserved memory and where the map granule was lost (R256). -/
def zbit (s : State) (n : Nat) : Bool :=
  !(isRsvPhys s (n * 4096)) && !(ngetD false s.mem.zlost (n / 512)) && ngetD (zbitDef s.mem n) s.mem.zmap n

/-- Set or clear the zero-map bit of block n; a lost map granule ignores writes (R256). -/
def setZbit (s : State) (n : Nat) (b : Bool) : State :=
  if ngetD false s.mem.zlost (n / 512) then s
  else { s with mem := { s.mem with zmap := nset (zbitDef s.mem n) s.mem.zmap n b } }

/-- Store zero codewords in every granule of block n (R232, R235). -/
def zeroBlock (s : State) (n : Nat) : State :=
  let s := { s with mem := { s.mem with
      bytes := s.mem.bytes.filter (fun p => p.1 / 4096 ≠ n)
      gran := s.mem.gran.filter (fun p => p.1 / 64 ≠ n) } }
  if ngetD false s.mem.pdef (n / 512) then (List.range 64).foldl (fun s i => putMeta s (n * 64 + i) metaZero) s else s

/-- Materialise block n before a partial write to it (R232). -/
def materialise (s : State) (n : Nat) : State := if zbit s n then setZbit (zeroBlock s n) n false else s

/-- A write cancels the repair of its granule (R249). -/
def cancelRepair (s : State) (g : Nat) : State :=
  let c := chanOf (g * 64)
  { s with ras := { s.ras with repairTab := nset [] s.ras.repairTab c ((ngetD [] s.ras.repairTab c).filter (fun x => x ≠ g)) } }

/-! Keys -/

/-- The key that slot t now holds (spec 17 R356). -/
def slotKey (s : State) (t : Nat) : MemKey := ⟨t, ngetD 0 s.sec.serial t⟩

/-- Under which key a structure addressed by PPA stands (spec 17 R444). -/
inductive HwKey where
  | device
  | tenant (t : Nat)
  | deviceIfReserved
deriving DecidableEq, Repr

/-- The key of a structure at a local offset, none when it is stored with enc 0 (R358, R444). -/
def hwKeyOf (s : State) (k : HwKey) (l : Nat) : Option MemKey :=
  if getB s Reg.secCtl_mem_enc_en then
    match k with
    | .device => some (slotKey s 4096)
    | .tenant t => some (slotKey s t)
    | .deviceIfReserved => if rsvBase s ≤ l then some (slotKey s 4096) else none
  else none

/-- The key under which tenant granules of slot t are written, none while encryption is off (R358). -/
def dataKey (s : State) (t : Nat) : Option MemKey :=
  if getB s Reg.secCtl_mem_enc_en then some (slotKey s t) else none

/-! Failed and lost members -/

/-- A granule lies on memory lost for good (spec 11 R256, R258). -/
def isLost (s : State) (p : Nat) : Bool :=
  ngetD false s.mem.lostCh (chanOf p)
  || (s.ras.lostMember == some (stackOf p) && decide (ngetD 0 s.ras.rebuilt (chanOf p % 32) ≤ zOf p))

/-- A granule lies on a failed member and is not yet rebuilt: reads of it are reconstructed (R255, R257). -/
def isFailedAt (s : State) (p : Nat) : Bool :=
  s.ras.failedMember == some (stackOf p)
  && (!s.ras.promoted || decide (ngetD 0 s.ras.rebuilt (chanOf p % 32) ≤ zOf p))

/-- The stored codeword at p decodes (R238) and its stack answers. -/
def sourceOk (s : State) (p : Nat) : Bool :=
  !isLost s p && !isFailedAt s p && rsDecode (metaAt s (p / 64)).errs ≠ .uncorrectable

/-- The other codewords of the stripe unit all decode, so the granule can be reconstructed (R251). -/
def canReconstruct (s : State) (p : Nat) : Bool :=
  s.mem.prot && (members s).all (fun m =>
    m == stackOf p || sourceOk s ((m * 32 + chanOf p % 32) * chanBytes + zOf p))

/-- Apply every delta pending for the stripe unit of p before its reconstruction (R253). -/
def settleDeltas (s : State) (p : Nat) : State :=
  { s with mem := { s.mem with deltas := s.mem.deltas.filter (fun d =>
      ¬(zOf (d.gran * 64) = zOf p ∧ chanOf (d.gran * 64) % 32 = chanOf p % 32)) } }

/-! Structures kept by PPA -/

/-- Write one byte of a structure: the block is materialised, the granule takes the key and loses its stored errors. -/
def hwPutByte (s : State) (k : HwKey) (l : Nat) (b : Byte) : State :=
  match hwLocate s l with
  | none => s
  | some p =>
    if isLost s p then s else
      let s := cancelRepair (materialise s (p / 4096)) (p / 64)
      let m := metaAt s (p / 64)
      putMeta (putByte s p b) (p / 64) { m with key := hwKeyOf s k l, errs := [], gxor := 0, zero := false }

/-- Write bytes of a structure from a local offset on. A byte with no place or on lost memory is dropped (log 13). -/
def hwWriteGo : State → HwKey → Nat → List Byte → State
  | s, _, _, [] => s
  | s, k, l, b :: bs => hwWriteGo (hwPutByte s k l b) k (l + 1) bs

/-- A granule that is overwritten whole loses its poison (R243). -/
def unpoisonWhole (s : State) (l n : Nat) : State :=
  (List.range (n / 64 + 1)).foldl (fun s i =>
    let a := (cdiv l 64 + i) * 64
    if a + 64 ≤ l + n then
      match hwLocate s a with
      | some p => putMeta s (p / 64) { metaAt s (p / 64) with poison := false }
      | none => s
    else s) s

/-- Write a structure of this node by PPA. -/
def hwWrite (s : State) (k : HwKey) (ppa : Nat) (bs : List Byte) : State :=
  unpoisonWhole (hwWriteGo s k (localOf ppa) bs) (localOf ppa) bs.length

/-! Rings -/

/-- A ring the SR2 writes: base register, its CTL register's fields, its overflow counter, the entry size and the key rule. -/
structure Ring where
  base : Fld
  log2 : Fld
  ovf : Fld
  size : Nat
  key : HwKey
deriving DecidableEq, Repr

/-- An error ring of 16-byte entries (R442). -/
def errRing (base log2 ovf : Fld) : Ring := ⟨base, log2, ovf, 16, .deviceIfReserved⟩
/-- QMG's error ring (spec 03). -/
def ringQmg : Ring := errRing Reg.qmgErrBase_base Reg.qmgErrCtl_log2_entries Reg.qmgErrOvf_dropped
/-- NME's error ring (spec 04). -/
def ringNme : Ring := errRing Reg.nmeErrBase_base Reg.nmeErrCtl_log2_entries Reg.nmeErrOvf_dropped
/-- XTU's error ring (spec 08). -/
def ringXtu : Ring := errRing Reg.xtuErrBase_base Reg.xtuErrCtl_log2_entries Reg.xtuErrOvf_dropped
/-- DMA's error ring (spec 09). -/
def ringDma : Ring := errRing Reg.dmaErrBase_base Reg.dmaErrCtl_log2_entries Reg.dmaErrOvf_dropped
/-- RAS's error ring, shared by MSL and PAR (spec 11). -/
def ringRas : Ring := errRing Reg.rasErrBase_base Reg.rasErrCtl_log2_entries Reg.rasErrOvf_dropped
/-- DIR's error ring (spec 12). -/
def ringDir : Ring := errRing Reg.dirErrBase_base Reg.dirErrCtl_log2_entries Reg.dirErrOvf_dropped
/-- FPT's error ring (spec 13). -/
def ringFpt : Ring := errRing Reg.fptErrBase_base Reg.fptErrCtl_log2_entries Reg.fptErrOvf_dropped
/-- HIF's error ring (spec 16). -/
def ringHif : Ring := errRing Reg.hifErrBase_base Reg.hifErrCtl_log2_entries Reg.hifErrOvf_dropped
/-- SEC's error ring (spec 17). -/
def ringSec : Ring := errRing Reg.secErrBase_base Reg.secErrCtl_log2_entries Reg.secErrOvf_dropped
/-- MGT's error ring, shared by PWR (spec 18). -/
def ringMgt : Ring := errRing Reg.mgtErrBase_base Reg.mgtErrCtl_log2_entries Reg.mgtErrOvf_dropped
/-- The XTU command ring (spec 08); records that find it full are counted with the error ring's. -/
def ringXccq : Ring := ⟨Reg.xtuCcqBase_base, Reg.xtuCcqCtl_log2_entries, Reg.xtuErrOvf_dropped, 32, .deviceIfReserved⟩
/-- The SEC command ring (spec 17 R372: a dropped record counts in SEC_ERR_OVF). -/
def ringSccq : Ring := ⟨Reg.secCcqBase_base, Reg.secCcqCtl_log2_entries, Reg.secErrOvf_dropped, 32, .deviceIfReserved⟩

/-- The hardware counts of a ring; rings are told apart by their CTL register (R441). -/
def ringCnt (s : State) (r : Ring) : RingCnt := ngetD ⟨0, 0⟩ s.rings r.log2.off

/-- Set the counts of a ring. -/
def setRing (s : State) (r : Ring) (c : RingCnt) : State :=
  { s with rings := nset ⟨0, 0⟩ s.rings r.log2.off c }

/-- Number of entries of a ring: log2_entries below 4 acts as 4 (R441). -/
def ringSize (s : State) (r : Ring) : Nat := 2 ^ max 4 (getF s r.log2)

/-- Entries written and not yet consumed (R441). -/
def ringUsed (c : RingCnt) : Nat := (c.wr + 2 ^ 24 - c.rd) % 2 ^ 24

/-- The ring is full (R441). -/
def ringFull (s : State) (r : Ring) : Bool := decide (ringSize s r ≤ ringUsed (ringCnt s r))

/-- Write one entry, built from its full write count, or drop it and count the drop (R13, R441). -/
def ringPush (s : State) (r : Ring) (entry : Nat → List Byte) : State :=
  if ringFull s r then bumpSat s r.ovf
  else
    let c := ringCnt s r
    let s' := hwWrite s r.key (getF s r.base + (c.wr % ringSize s r) * r.size) (entry c.wr)
    setRing s' r { c with wr := (c.wr + 1) % 2 ^ 24 }

/-- The consumer writes its low b bits of the read count; a step beyond the write count is ignored (R441). -/
def ringHead (s : State) (r : Ring) (b h : Nat) : State :=
  let c := ringCnt s r
  let step := (h + 2 ^ b - c.rd % 2 ^ b) % 2 ^ b
  if step ≤ ringUsed c then setRing s r { c with rd := (c.rd + step) % 2 ^ 24 } else s

/-- What an error entry says beside its cause (R442). -/
structure ErrInfo where
  tenant : Option Nat
  kind : Nat
  unit : Nat
  addr : Nat
  aux : Nat
deriving DecidableEq, Repr

/-- The 16 bytes of an error entry (R442). -/
def errEntry (cause : Nat) (e : ErrInfo) (wc : Nat) : List Byte :=
  natToLe 4 (cause % 256 + wc % 2 ^ 24 * 256)
    ++ natToLe 4 (e.tenant.getD 0 % 4096 + b2n e.tenant.isSome * 4096 + e.kind % 8 * 8192 + e.unit % 65536 * 65536)
    ++ natToLe 8 (e.addr % 2 ^ 56 + e.aux % 256 * 2 ^ 56)

/-- Write an entry to an error ring (R13, R442). -/
def logErr (s : State) (r : Ring) (cause : Nat) (e : ErrInfo) : State := ringPush s r (errEntry cause e)

/-- An entry of the RAS ring about a stack and channel, with a channel address (kind 4) (R442). -/
def logRas (s : State) (cause p : Nat) : State :=
  logErr s ringRas cause ⟨none, 4, stackOf p + 16 * (chanOf p % 32), zOf p, 0⟩

/-- An entry of the RAS ring about a whole stack (R442). Its address is none: R442 gives RAS entries a channel address or a PPA, and a
whole stack has neither (DESIGN CHOICE, log 124). -/
def logRasStack (s : State) (cause st : Nat) : State := logErr s ringRas cause ⟨none, 0, st + 16 * 31, 0, 0⟩

/-! Corrected and uncorrectable codewords -/

/-- The fields that name the row of a physical address: pseudo-channel, bank, row (R215). -/
def rowOf (p : Nat) : Nat × Nat × Nat := (bitsOf (zOf p) 10 1, bitsOf (zOf p) 11 6, bitsOf (zOf p) 17 15)

/-- Log entry n is valid and names the row of p (R242). -/
def logMatches (s : State) (p n : Nat) : Bool :=
  getB s Reg.rasCeLogA_valid n && getF s Reg.rasCeLogA_stack n == stackOf p
  && getF s Reg.rasCeLogA_channel n == chanOf p % 32
  && (getF s Reg.rasCeLogA_pseudo_channel n, getF s Reg.rasCeLogA_bank n, getF s Reg.rasCeLogA_row n) == rowOf p

/-- The log entry a correction goes to: the row's own, a free one, or the one updated least recently (R242). -/
def logSlot (s : State) (p : Nat) : Nat × Bool × Bool :=
  match (List.range 64).find? (logMatches s p) with
  | some n => (n, true, false)
  | none =>
    match (List.range 64).find? (fun n => !getB s Reg.rasCeLogA_valid n) with
    | some n => (n, false, false)
    | none => (s.ras.logAge.getLastD 0, false, true)

/-- Record a correction in the correctable-error log (R242). -/
def logCe (s : State) (p symbol : Nat) (two : Bool) : State :=
  let r := logSlot s p
  let n := r.1
  let s := if r.2.2 then bumpSat s Reg.rasCeEvict_count else s
  let cnt := if r.2.1 then satAdd 16 (getF s Reg.rasCeLogB_count n) 1 else 1
  let row := rowOf p
  let s := setF s Reg.rasCeLogA_stack (stackOf p) n
  let s := setF s Reg.rasCeLogA_channel (chanOf p % 32) n
  let s := setF s Reg.rasCeLogA_pseudo_channel row.1 n
  let s := setF s Reg.rasCeLogA_bank row.2.1 n
  let s := setF s Reg.rasCeLogA_row row.2.2 n
  let s := setF s Reg.rasCeLogA_column (zOf p) n
  let s := setF s Reg.rasCeLogA_symbol symbol n
  let s := setB s Reg.rasCeLogA_two_symbol two n
  let s := setB s Reg.rasCeLogA_valid true n
  let s := if r.2.1 then s else setB s Reg.rasCeLogB_repaired false n
  let s := setF s Reg.rasCeLogB_count cnt n
  let s := setF s Reg.rasCeLogB_last_seen (s.nowNs / 1000000) n
  { s with ras := { s.ras with logAge := n :: s.ras.logAge.filter (fun x => x ≠ n) } }

/-- Place a granule in its stack's repair queue of 256 entries, or count the drop (R239). -/
def queueRepair (s : State) (p : Nat) : State :=
  let st := stackOf p
  let q := ngetD [] s.ras.repairQ st
  if q.length < 256 then { s with ras := { s.ras with repairQ := nset [] s.ras.repairQ st (q ++ [p / 64]) } }
  else bumpSat s Reg.mslRepairDrop_count

/-- Steps for a corrected codeword met by a read (R239). -/
def noteCe (s : State) (p : Nat) (changed : SymErr) : State :=
  let s := bump s Reg.rasStkCe_count 1 (stackOf p)
  queueRepair (logCe s p ((changed.head?.map (·.1)).getD 0) (decide (changed.length = 2))) p

/-- Count an uncorrectable codeword, in the stack's counter and in the window of ue_limit (R240, R255). -/
def noteUe (s : State) (p : Nat) : State :=
  let st := stackOf p
  let w := ngetD (s.nowNs, 0) s.ras.ueWindow st
  let w := if 1000000000 < s.nowNs - w.1 then (s.nowNs, 1) else (w.1, w.2 + 1)
  let s := bump s Reg.rasStkUe_count 1 st
  { s with ras := { s.ras with ueWindow := nput s.ras.ueWindow st w } }

/-- Rewrite a stored codeword as the poisoned codeword (R235, R240). -/
def poisonInPlace (s : State) (g : Nat) : State :=
  putMeta (putBytes s (g * 64) (List.replicate 64 0)) g metaPoison

/-! Granules -/

/-- The offset in reserved memory of a physical address that lies there (R211, R215). -/
def rsvOffset (s : State) (p : Nat) : Nat :=
  let st := stackOf p
  let pf := frameOfPhys p
  let f := if s.mem.prot then 10 * (pf / 11) + (if memberIndex s st < pf % 11 then pf % 11 - 1 else pf % 11) else pf
  let v := 4 * (zOf p % 16384 / 4096) + chanOf p % 4
  let m := (members s).length
  (f - (framesOf s st - rsvFrames s)) * (m * ellBytes) + (v * m + memberIndex s st) * 4096 + p % 4096

/-- The zero-map granule that a physical address holds, if it holds one: the map begins at the first byte of reserved memory and has
301,989,888 bits (R211, R230). -/
def mapGranAt (s : State) (p : Nat) : Option Nat :=
  if !isRsvPhys s p then none
  else if rsvOffset s p / 64 < 589824 then some (rsvOffset s p / 64) else none

/-- The 64 bytes of zero-map granule n (R230). -/
def mapBytes (s : State) (n : Nat) : List Byte :=
  (List.range 64).map (fun i => BitVec.ofNat 8 ((List.range 8).foldl (fun a j => a + b2n (zbit s (n * 512 + i * 8 + j)) * 2 ^ j) 0))

/-- The plaintext bytes of physical granule g: a zero-map granule holds the map's bits. -/
def storedBytes (s : State) (g : Nat) : List Byte :=
  match mapGranAt s (g * 64) with
  | some n => mapBytes s n
  | none => granBytes s g

/-- What a codeword with residual pattern e yields under a key (R238, R359): a poisoned granule, the stored granule, or,
with another key or a changed ciphertext, bytes and guard that nothing constrains (log 14). -/
def yieldGran (s : State) (g : Nat) (key : Option MemKey) (e : SymErr) : Gran × State :=
  let m := metaAt s g
  if m.poison != (ngetD 0 e 66 % 2 == 1) then (poisonGran, s)
  else
    match m.key with
    | some k =>
      if key = some k ∧ e = [] then
        let b := storedBytes s g
        ({ data := b, guard := Nat.xor (crc16 b) m.gxor, poison := false, zero := m.zero && b.all (fun x => x == 0) }, s)
      else
        let r := freshBytes 66 s
        ({ data := r.1.take 64, guard := leToNat (r.1.drop 64), poison := false }, r.2)
    | none =>
      let b := storedBytes s g
      let d := (List.range 64).map (fun i => BitVec.ofNat 8 (Nat.xor ((b.getD i 0).toNat) (ngetD 0 e i)))
      let gd := Nat.xor (Nat.xor (crc16 b) m.gxor) (ngetD 0 e 64 + 256 * ngetD 0 e 65)
      ({ data := d, guard := gd, poison := false, zero := (m.zero && b.all (fun x => x == 0)) != (ngetD 0 e 66 / 2 % 2 == 1) }, s)

/-- A guard that fails after decryption is logged with its PPA; the stored codeword stays (R241). -/
def noteGuard (s : State) (p ppa : Nat) (g : Gran) : State :=
  if granOk g then s else logErr s ringRas 3 ⟨none, 2, stackOf p + 16 * (chanOf p % 32), ppa, 0⟩

/-! The zero map (R230, R233) -/

/-- Every codeword becomes the zero codeword, every zero-map bit outside reserved memory is set and the cache slices are empty
(R230, R254). -/
def zeroMemory (s : State) : State :=
  { s with mem := { s.mem with bytes := [], gran := [], zmap := [], zlost := [], zcache := [], pdef := [], deltas := [] } }

/-- A zero-map granule whose bits are not known: the 512 blocks it covers are poisoned and their bits cleared (R233). `lost`: its
memory is gone, so its bits stay clear (R256). -/
def loseMapGran (s : State) (n : Nat) (lost : Bool) : State :=
  { s with mem := { s.mem with
      bytes := s.mem.bytes.filter (fun p => p.1 / 4096 / 512 ≠ n)
      gran := s.mem.gran.filter (fun p => p.1 / 32768 ≠ n)
      zmap := s.mem.zmap.filter (fun p => p.1 / 512 ≠ n)
      pdef := nset false s.mem.pdef n true
      zlost := if lost then nset false s.mem.zlost n true else s.mem.zlost } }

/-- Where zero-map granule n lies (R211). -/
def mapGranPlace (s : State) (n : Nat) : Option Nat := locateRsv s (rsvBase s + n * 64)

/-- Zero-map granule n at p, which nothing restores (R233): its blocks are poisoned, it is written afresh, cause 0x0A is logged. -/
def mapGranLostAt (s : State) (n p : Nat) : State := putMeta (logRas (loseMapGran s n false) 0x0A p) (p / 64) metaZero

/-- As mapGranLostAt, for a physical address that may hold a zero-map granule. -/
def mapGranLost (s : State) (p : Nat) : State :=
  match mapGranAt s p with
  | none => s
  | some n => mapGranLostAt s n p

/-- The full-capacity action on an uncorrectable codeword (R240); a zero-map granule takes its blocks along (R233). -/
def uePoison (s : State) (p : Nat) : Gran × State := (poisonGran, mapGranLost (logRas (poisonInPlace s (p / 64)) 1 p) p)

/-- Reconstruct the granule at p, which is uncorrectable or on a failed member (R251); `back` writes it back (R240). -/
def reconstruct (s : State) (p : Nat) (key : Option MemKey) (back : Bool) : Gran × State :=
  let s := settleDeltas s p
  if canReconstruct s p then
    let s := bump s Reg.parRecon_count
    let s := if back then logRas (putMeta s (p / 64) { metaAt s (p / 64) with errs := [] }) 2 p else s
    yieldGran s (p / 64) key []
  else
    let s := bump s Reg.parUnrecov_count
    uePoison s p

/-- The physical place of the stack of number st: the spare's once it was promoted to that number (R255, R398). -/
def placeOf (s : State) (st : Nat) : Nat :=
  if getF s Reg.parStatus_rebuild_stack = st ∨ s.ras.startFor = some st then s.mem.spare else st

/-- The set of the cache slice that a zero-map granule maps to: each die's slice serves its six SMCs, 1,024 sets of 16 lines (R230). -/
def zSet (s : State) (n : Nat) : Nat := (if placeOf s (n / 49152) < 6 then 0 else 1024) + n % 1024

/-- A zero-map granule is read from reserved memory into its slice (R233, R234): corrected, reconstructed, or lost with its blocks. -/
def zFill (s : State) (n : Nat) : State :=
  match mapGranPlace s n with
  | none => s
  | some p =>
    if isLost s p then s
    else if isFailedAt s p then
      let s := settleDeltas s p
      if canReconstruct s p then bump s Reg.parRecon_count else mapGranLostAt (bump s Reg.parUnrecov_count) n p
    else match rsDecode (metaAt s (p / 64)).errs with
      | .clean _ => if (metaAt s (p / 64)).poison then mapGranLostAt s n p else s
      | .corrected c _ => noteCe s p c
      | .uncorrectable =>
        let s := settleDeltas (noteUe s p) p
        if canReconstruct s p then
          logRas (putMeta (bump s Reg.parRecon_count) (p / 64) { metaAt s (p / 64) with errs := [] }) 2 p
        else mapGranLostAt s n p

/-- A line that leaves its slice is written back if it is dirty: a fresh codeword (R230). -/
def zWriteBack (s : State) (e : Nat × Bool) : State :=
  if !e.2 then s
  else match mapGranPlace s e.1 with
    | none => s
    | some p => if isLost s p then s else putMeta (cancelRepair s (p / 64)) (p / 64) { metaAt s (p / 64) with errs := [], zero := false }

/-- Look block b's map granule up in its slice: a hit becomes the most recent line; a miss makes room and fills it (R230). -/
def zTouch (s : State) (b : Nat) (dirty : Bool) : State :=
  if isRsvPhys s (b * 4096) then s
  else
    let n := b / 512
    let k := zSet s n
    let l := ngetD [] s.mem.zcache k
    match l.find? (fun e => e.1 == n) with
    | some e => { s with mem := { s.mem with zcache := nput s.mem.zcache k ((n, e.2 || dirty) :: l.filter (fun x => x.1 ≠ n)) } }
    | none =>
      let s := if l.length < 16 then s else match l.getLast? with
        | some e => zWriteBack s e
        | none => s
      let s := zFill s n
      { s with mem := { s.mem with zcache := nput s.mem.zcache k ((n, dirty) :: l.take 15) } }

/-- An uncorrectable error in the line that holds block b's bit: the granule is treated as lost (R233). -/
def zLineError (s : State) (b : Nat) : State :=
  let n := b / 512
  match mapGranPlace s n with
  | none => s
  | some p => if isRsvPhys s (b * 4096) then s else zTouch (mapGranLostAt s n p) b false

/-- Read one granule under a key, with the errors `extra` on the first read of its codeword only (R231, R238 to R241). -/
def memReadX (s : State) (p ppa : Nat) (key : Option MemKey) (extra : SymErr) : Gran × State :=
  let s := bump (attribPpa s ppa) Reg.smcRdBytes_count 64 (stackOf p)
  let s := zTouch s (p / 4096) false
  if zbit s (p / 4096) then (zeroGran, bump s Reg.smcZreads_count 1 (stackOf p))
  else if isLost s p then (poisonGran, s)
  else if isFailedAt s p then
    let r := reconstruct s p key false
    (r.1, noteGuard r.2 p ppa r.1)
  else
    let stored := (metaAt s (p / 64)).errs
    let first := rsDecode (errAdd stored extra)
    let out := if first = .uncorrectable then rsDecode stored else first
    let r : Gran × State :=
      match out with
      | .clean e => yieldGran s (p / 64) key e
      | .corrected c e => yieldGran (noteCe s p c) (p / 64) key e
      | .uncorrectable => if s.mem.prot then reconstruct (noteUe s p) p key true else uePoison (noteUe s p) p
    (r.1, noteGuard r.2 p ppa r.1)

/-- Read one granule under a key. -/
def memRead (s : State) (p ppa : Nat) (key : Option MemKey) : Gran × State := memReadX s p ppa key []

/-- A store over a zero-map granule sets the bits that it carries (R230). -/
def storeMap (s : State) (p : Nat) (g : Gran) : State :=
  match mapGranAt s p with
  | none => s
  | some n => (List.range 512).foldl (fun s i => setZbit s (n * 512 + i) (bitOf ((g.data.getD (i / 8) 0).toNat) (i % 8))) s

/-- Store one granule whole: its block is materialised, a pending repair is cancelled and its stored errors end
(R232, R249). A write to lost memory is discarded (R256). -/
def memStore (s : State) (p ppa : Nat) (g : Gran) (key : Option MemKey) : State :=
  let s := bump (attribPpa s ppa) Reg.smcWrBytes_count 64 (stackOf p)
  if isLost s p then s else
    let s := zTouch s (p / 4096) (zbit s (p / 4096))
    let s := cancelRepair (materialise s (p / 4096)) (p / 64)
    if g.poison then poisonInPlace s (p / 64)
    else storeMap (putMeta (putBytes s (p / 64 * 64) g.data) (p / 64)
      { poison := false, key := key, gxor := Nat.xor g.guard (crc16 g.data), errs := [] }) p g

/-- Every granule of a block write is zero bytes with guard 0x0000 and poison clear (R232). -/
def allZero (gs : List Gran) : Bool := gs.all (fun g => !g.poison && g.guard == 0 && g.data.all (fun b => b == 0))

/-- A block write of 64 granules at a channel unit of 4 KiB or more (R232): zero data only sets the map bit. -/
def memStoreBlock (s : State) (p ppa : Nat) (gs : List Gran) (key : Option MemKey) : State :=
  let n := p / 4096
  let s := zTouch s n true
  if feature s 5 && allZero gs && !isRsvPhys s p && !isLost s p then
    (List.range 64).foldl (fun s i => cancelRepair s (n * 64 + i)) (setZbit s n true)
  else
    (gs.zipIdx).foldl (fun s x => memStore s (n * 4096 + x.2 * 64) (ppa + x.2 * 64) x.1 key) (setZbit s n false)

/-! Structures read by PPA -/

/-- What reading a structure met: nothing wrong, a poisoned granule or a failing guard, with the granule's PPA. -/
inductive HwErr where
  | none
  | poison (ppa : Nat)
  | guard (ppa : Nat)
deriving DecidableEq, Repr

/-- Read granule after granule of a structure, n of them, collecting bytes and the first error. A granule with no place
reads as poisoned (log 13). -/
def hwReadGo : Nat → State → HwKey → Nat → (List Byte × HwErr × State)
  | 0, s, _, _ => ([], .none, s)
  | n + 1, s, k, ppa =>
    let r : Gran × State :=
      match hwLocate s (localOf ppa) with
      | none => (poisonGran, s)
      | some p => memRead s p ppa (hwKeyOf s k (localOf ppa))
    let rest := hwReadGo n r.2 k (ppa + 64)
    let bytes := if r.1.poison then List.replicate 64 0 else r.1.data
    let err := if r.1.poison then .poison ppa else if granOk r.1 then rest.2.1 else .guard ppa
    (bytes ++ rest.1, err, rest.2.2)

/-- Read n bytes of a structure of this node by PPA. -/
def hwRead (s : State) (k : HwKey) (ppa n : Nat) : List Byte × HwErr × State :=
  let a := ppa / 64 * 64
  let r := hwReadGo (cdiv (ppa - a + n) 64) s k a
  ((r.1.drop (ppa - a)).take n, r.2.1, r.2.2)

end Sys2Proof.Machine
end

