-- ==== Sys2Proof/Machine/Xlat.lean ====
section
/-!
DEFINITION. Machine/Xlat.lean: extent records and their checks (spec 02 R32 to R41), the extent cache and the table
search (spec 08 R172 to R174), and the translation of one address (spec 08 R171).
-/
namespace Sys2Proof.Machine
open Sys2Proof

/-- The state field of tenant t's record reads ACTIVE (R25). -/
def tenantActive (s : State) (t : Nat) : Bool := getF s Reg.xtuTenant0_state t == 1

/-- A number as an extent record, offset by offset (R32). Bits [39:32] of a window's second word, which R32 says are
zero, count as reserved bits; host_ell and pasid of a record that is not host backed are ignored, since R33 names no
error for them (DESIGN CHOICE, log 143). -/
def parseExt (v : Nat) : ExtRec :=
  let w2 := bitsOf v 64 64
  let at10 := bitsOf v 128 32
  let rr := bitOf at10 13
  { pvaStart := bitsOf v 0 36, length := bitsOf v 36 27, valid := bitOf v 63,
    ppaEll := if rr then bitsOf w2 0 32 else bitsOf w2 0 40,
    rd := bitOf at10 0, wr := bitOf at10 1, rmw := bitOf at10 2, coherent := bitOf at10 3,
    zeroFill := bitOf at10 4, hostBacked := bitOf at10 5,
    place := ⟨bitsOf at10 6 2, bitOf at10 8, bitsOf at10 9 4⟩, regionRef := rr,
    keyTenant := bitsOf at10 16 12, revEpoch := bitsOf v 160 32,
    hostEll := bitsOf v 192 41, pasid := bitsOf v 233 20,
    rsv := bitsOf w2 40 24 ≠ 0 || bitsOf at10 14 2 ≠ 0 || bitsOf at10 28 4 ≠ 0 || bitsOf v 253 3 ≠ 0
      || (rr && bitsOf w2 32 8 ≠ 0) }

/-- The checks of R33 on a valid record. The hot-spare check binds while a spare is set aside. -/
def extOk (s : State) (r : ExtRec) : Bool :=
  !r.rsv && r.length ≠ 0 && decide (r.pvaStart + r.length ≤ 2 ^ 36)
  && (r.regionRef || decide (r.ppaEll % 2 ^ 26 + r.length ≤ 2 ^ 26))
  && (!r.rmw || (r.rd && r.wr))
  && (!r.zeroFill || !(r.wr || r.rmw || r.coherent || r.hostBacked || r.place.affEn))
  && !(r.hostBacked && r.coherent)
  && (!r.place.affEn || (decide (r.place.affStack ≤ 11) && !(s.mem.prot && r.place.affStack == s.mem.spare)))
  && (!r.regionRef || (!r.coherent && !r.zeroFill && !r.hostBacked && r.place.icls == 0 && !r.place.affEn
        && r.place.affStack == 0 && r.keyTenant == 0))
  && (!r.coherent || feature s 4) && (!r.hostBacked || feature s 3) && (!r.place.affEn || feature s 6)

/-- A record covers an ell (R173). -/
def covers (r : ExtRec) (ell : Nat) : Bool := r.valid && decide (r.pvaStart ≤ ell) && decide (ell < r.pvaStart + r.length)

/-- A valid record that a set may hold (R33, R40): no window, no host backing. -/
def setExtOk (s : State) (r : ExtRec) : Bool := extOk s r && !r.regionRef && !r.hostBacked

/-- The record of R40 inside a set of a given length: valid, R33, no window, no host backing, inside the region. -/
def setRecOk (s : State) (r : ExtRec) (length : Nat) : Bool :=
  r.valid && setExtOk s r && decide (r.pvaStart + r.length ≤ length)

/-! The table search -/

/-- What a search found: a record with its index and PPA, nothing, or a granule that could not be read. -/
inductive Found where
  | hit (r : ExtRec) (index ppa : Nat)
  | nothing
  | bad (e : HwErr) (ppa : Nat)
deriving DecidableEq, Repr

/-- Read record i of an array of 32-byte records at a PPA. -/
def readRec (s : State) (k : HwKey) (base i : Nat) : ExtRec × HwErr × State :=
  let r := hwRead s k (base + i * 32) 32
  (parseExt (leToNat r.1), r.2.1, r.2.2)

/-- Binary search for the number of records whose pva_start is at or below the ell (R173), with fuel. -/
def searchGo : Nat → State → HwKey → Nat → Nat → Nat → Nat → (Nat × HwErr × Nat × State)
  | 0, s, _, _, _, lo, _ => (lo, .none, 0, s)
  | n + 1, s, k, base, ell, lo, hi =>
    if hi ≤ lo then (lo, .none, 0, s) else
      let mid := (lo + hi) / 2
      let r := readRec s k base mid
      match r.2.1 with
      | .none =>
        if r.1.pvaStart ≤ ell then searchGo n r.2.2 k base ell (mid + 1) hi
        else searchGo n r.2.2 k base ell lo mid
      | e => (lo, e, base + mid * 32, r.2.2)

/-- Search an array of records for the last one at or below the ell (R173): at most 21 records are read. -/
def searchRecs (s : State) (k : HwKey) (base cap ell : Nat) : Found × State :=
  let r := searchGo 21 s k base ell 0 cap
  match r.2.1 with
  | .none =>
    if r.1 = 0 then (.nothing, r.2.2.2) else
      let q := readRec r.2.2.2 k base (r.1 - 1)
      match q.2.1 with
      | .none => (.hit q.1 (r.1 - 1) (base + (r.1 - 1) * 32), q.2.2)
      | e => (.bad e (base + (r.1 - 1) * 32), q.2.2)
  | e => (.bad e r.2.2.1, r.2.2.2)

/-- PPA and capacity of tenant t's table (R25). -/
def tableOf (s : State) (t : Nat) : Nat × Nat := (getF s Reg.xtuTenant8_ext_table_ppa t, getF s Reg.xtuTenant4_ext_capacity t)

/-- Search tenant t's table, under its own key (R173, R444). -/
def searchTable (s : State) (t ell : Nat) : Found × State :=
  searchRecs s (.tenant t) (tableOf s t).1 (tableOf s t).2 ell

/-- The end of a request that read a granule it could not use: POISONED or GUARD_MISMATCH at its PPA, kind 2 (R174). -/
def badGran (e : HwErr) (ppa : Nat) : Fin :=
  match e with
  | .guard _ => Fin.atPpa .guardMismatch ppa
  | _ => Fin.atPpa .poisoned ppa

/-- An entry of the XTU error ring (R442). -/
def logXtu (s : State) (cause tenant ppa : Nat) : State := logErr s ringXtu cause ⟨some tenant, 2, 0, ppa, 0⟩

/-! The extent cache -/

/-- The set of a span (R172). -/
def cacheSet (t span : Nat) : Nat := Nat.xor span (t * 0x9E5) % 4096

/-- An entry maps the ell of tenant t. -/
def entHits (t ell : Nat) (e : CacheEnt) : Bool :=
  e.tenant == t && (if e.coarse then e.span == ell / 32 else e.span == ell)

/-- Fill the cache with a record: coarse when it covers the whole 2 MiB span; a set holds 16 entries, least recently used
out first (R172). -/
def cacheFill (s : State) (t ell : Nat) (r : ExtRec) (idx ppa : Nat) : State :=
  let coarse := decide (r.pvaStart ≤ ell / 32 * 32) && decide (ell / 32 * 32 + 32 ≤ r.pvaStart + r.length)
  let span := if coarse then ell / 32 else ell
  let e : CacheEnt := ⟨t, coarse, span, r, idx, ppa⟩
  let same := s.xtu.cache.filter (fun x => cacheSet x.tenant x.span == cacheSet t span)
  let rest :=
    if same.length < 16 then s.xtu.cache
    else match same.getLast? with
      | some v => s.xtu.cache.filter (fun x => x ≠ v)
      | none => s.xtu.cache
  { s with xtu := { s.xtu with cache := e :: rest } }

/-- Drop the cache entries of tenant t that overlap ells lo to lo + n - 1 (R178 step 1). -/
def cacheDrop (s : State) (t lo n : Nat) : State :=
  { s with xtu := { s.xtu with cache := s.xtu.cache.filter (fun e =>
      let a := if e.coarse then e.span * 32 else e.span
      let l := if e.coarse then 32 else 1
      !(e.tenant == t && decide (a < lo + n) && decide (lo < a + l))) } }

/-- Drop every cache entry of tenant t (R176). -/
def cacheDropTenant (s : State) (t : Nat) : State :=
  { s with xtu := { s.xtu with cache := s.xtu.cache.filter (fun e => e.tenant ≠ t) } }

/-! One translation -/

/-- The right a request needs (R34). -/
inductive Need where
  | rd
  | wr
  | rmw
deriving DecidableEq, Repr

/-- The outcome of a translation: done, failed, or waiting. -/
inductive XRes where
  | ok (x : Xl)
  | fail (f : Fin)
  | wait (w : HeldWhy)
deriving DecidableEq, Repr

/-- Node and index of a region ID (R38). -/
def regionHome (id : Nat) : Nat := id / 2 ^ 18 % 2 ^ 14

/-- A number as a region record (R38). -/
def parseRgn (v : Nat) : RgnRec :=
  ⟨bitOf v 0, bitsOf v 16 12, bitsOf v 32 32, bitsOf v 64 56, bitsOf v 128 16, bitsOf v 160 32⟩

/-- A region record as a number (R38). -/
def rgnNat (r : RgnRec) : Nat :=
  b2n r.opn + r.owner % 4096 * 2 ^ 16 + r.version % 2 ^ 32 * 2 ^ 32 + r.setPpa % 2 ^ 56 * 2 ^ 64
    + r.setCount % 2 ^ 16 * 2 ^ 128 + r.length % 2 ^ 32 * 2 ^ 160

/-- Region records this node holds (spec 08, XTU_RGN_COUNT). -/
def rgnCount (s : State) : Nat := min (getF s Reg.xtuRgnCount_count) 262144

/-- PPA of region record i. -/
def rgnPpa (s : State) (i : Nat) : Nat := getF s Reg.xtuRgnBase_base + i * 32

/-- Read region record i under the device slot (R444). -/
def readRgn (s : State) (i : Nat) : RgnRec × HwErr × State :=
  let r := hwRead s .device (rgnPpa s i) 32
  (parseRgn (leToNat r.1), r.2.1, r.2.2)

/-- The bound version of a region, if a version is bound already (R42). -/
def boundVer (binds : List Bind) (region : Nat) : Option Nat :=
  (binds.find? (fun b => b.region == region)).map (·.version)

/-- A cached set of the region: the bound version's, or the newest when none is bound (R42). -/
def cachedSet (s : State) (region : Nat) (v : Option Nat) : Option SetEnt :=
  s.xtu.sets.find? (fun e => e.region == region && (if v.isNone then !e.withdrawn else v == some e.version))

/-- Where a version's set lies at its home: the current record's, or a live older version's (R43). -/
def homeSet (s : State) (region : Nat) (r : RgnRec) (v : Option Nat) : Option (Nat × Nat × Nat × Nat) :=
  match v with
  | none => some (r.version, r.setPpa, r.setCount, r.length)
  | some n =>
    if n = r.version then some (n, r.setPpa, r.setCount, r.length)
    else (s.xtu.live.find? (fun e => e.region == region && e.version == n)).map
      (fun e => (e.version, e.setPpa, e.setCount, e.length))

/-- What a window resolves to: a set record with the version that was bound, a failure, or a wait for the set (R41, R42). -/
inductive WinRes where
  | ok (r : ExtRec) (version : Nat)
  | fail (f : Fin)
  | wait
deriving DecidableEq, Repr

/-- Resolve region offset `off` (in ells) at the region's home for tenant t (R39, R41). The record that covers the offset resolves it;
one that R33 or the set's own form rejects is absent and logged. -/
def winHome (s : State) (t region off pva : Nat) (v : Option Nat) : WinRes × State :=
  let i := region % 2 ^ 18
  if rgnCount s ≤ i then (.fail (Fin.atPva .unmapped pva), s) else
    let q := readRgn s i
    match q.2.1 with
    | .none =>
      if !q.1.opn then (.fail (Fin.atPva .unmapped pva), q.2.2) else
        match homeSet q.2.2 region q.1 v with
        | none => (.fail (Fin.atPva .unmapped pva), q.2.2)
        | some (ver, setPpa, cnt, len) =>
          if len ≤ off then (.fail (Fin.atPva .unmapped pva), q.2.2) else
            let f := searchRecs q.2.2 (.tenant q.1.owner) setPpa cnt off
            match f.1 with
            | .hit r _ ppa =>
              if r.valid && !setExtOk f.2 r then (.fail (Fin.atPva .unmapped pva), logXtu f.2 1 t ppa)
              else if covers r off then (.ok r ver, f.2) else (.fail (Fin.atPva .unmapped pva), f.2)
            | .nothing => (.fail (Fin.atPva .unmapped pva), f.2)
            | .bad e ppa => (.fail (badGran e ppa), logXtu f.2 3 t ppa)
    | e => (.fail (badGran e (rgnPpa q.2.2 i)), logXtu q.2.2 3 t (rgnPpa q.2.2 i))

/-- The record of a cached set that a binary search for an offset ends at: the last one at or below it (R173, R174). -/
def lastAt (recs : List ExtRec) (off : Nat) : Option (Nat × ExtRec) :=
  ((recs.zipIdx).filter (fun x => decide (x.1.pvaStart ≤ off))).getLast?.map (fun x => (x.2, x.1))

/-- Resolve region offset `off` of tenant t at another node, from the set cache (R42, R174). A record that R33 or the set's own form rejects
counts as absent and is logged (R33). Its entry names no PPA: the set lies at its home (DESIGN CHOICE, log 83). -/
def winCached (s : State) (t region off pva : Nat) (v : Option Nat) : WinRes × State :=
  match cachedSet s region v with
  | none => (.wait, s)
  | some e =>
    if e.length ≤ off then (.fail (Fin.atPva .unmapped pva), s) else
      match lastAt e.recs off with
      | some (_, r) =>
        if r.valid && !setExtOk s r then (.fail (Fin.atPva .unmapped pva), logErr s ringXtu 1 ⟨some t, 0, 0, 0, 0⟩)
        else if covers r off then (.ok r e.version, s) else (.fail (Fin.atPva .unmapped pva), s)
      | none => (.fail (Fin.atPva .unmapped pva), s)

/-- The residency bit of a local ell, or the granule that could not be read (R183). -/
def residentBit (s : State) (ell : Nat) : Bool × HwErr × State :=
  let r := hwRead s .device (getF s Reg.xtuResmapBase_base + ell / 8) 1
  (bitOf (leToNat r.1) (ell % 8), r.2.1, r.2.2)

/-- Set or clear the residency bit of a local ell (R183, R184). -/
def setResident (s : State) (ell : Nat) (b : Bool) : State :=
  let a := getF s Reg.xtuResmapBase_base + ell / 8
  let r := hwRead s .device a 1
  hwWrite r.2.2 .device a (natToLe 1 (putBits (leToNat r.1) (ell % 8) 1 (b2n b)))

/-- Poison every granule of a local range of ells under a placement (R244, R256). -/
def poisonEll (s : State) (pl : Place) (ell : Nat) : State :=
  (List.range 1024).foldl (fun s i =>
    match locate s pl (ell * ellBytes + i * 64) with
    | some p => poisonInPlace (materialise s (p / 4096)) (p / 64)
    | none => s) s

/-- A residency-map granule that is poisoned: its 512 ells are poisoned and their bits set (R244). -/
def resmapLost (s : State) (pl : Place) (ell : Nat) : State :=
  let base := ell / 512 * 512
  let s := (List.range 512).foldl (fun s i => poisonEll s pl (base + i)) s
  hwWrite s .device (getF s Reg.xtuResmapBase_base / 64 * 64 + base / 8) (List.replicate 64 255)

/-- Whether a record is to be found for the ell, from the cache or by a search that fills the cache (R172 to R174, R183). -/
def findRec (s : State) (t ell pva : Nat) : ((ExtRec × Nat) ⊕ Fin) × State :=
  match s.xtu.cache.find? (entHits t ell) with
  | some e =>
    let s := { s with xtu := { s.xtu with cache := e :: s.xtu.cache.filter (fun x => x ≠ e) } }
    (.inl (e.ext, e.recPpa), bump s Reg.xtuHits_count)
  | none =>
    let q := searchTable (bump s Reg.xtuMisses_count) t ell
    match q.1 with
    | .nothing => (.inr (Fin.atPva .unmapped pva), q.2)
    | .bad e ppa => (.inr (badGran e ppa), logXtu q.2 3 t ppa)
    | .hit r idx ppa =>
      if r.valid && !extOk q.2 r then (.inr (Fin.atPva .unmapped pva), logXtu q.2 1 t ppa)
      else if !covers r ell then (.inr (Fin.atPva .unmapped pva), q.2)
      else if r.hostBacked && r.ppaEll / 2 ^ 26 ≠ q.2.dev.node then
        (.inr (Fin.atPva .unmapped pva), logXtu q.2 4 t ppa)
      else (.inl (r, ppa), cacheFill q.2 t ell r idx ppa)

/-- The rights that a record gives (R34). -/
def hasRight (rd wr rmw : Bool) : Need → Bool
  | .rd => rd
  | .wr => wr
  | .rmw => rmw

/-- The residency check of a host-backed ell (R171, R184, R186, XTU_CTL.mig_en). -/
def checkResident (s : State) (t pva recPpa : Nat) (r : ExtRec) (x : Xl) : XRes × State :=
  let ell := localOf x.ppa / ellBytes
  let iova := (r.hostEll + (pva / ellBytes - r.pvaStart)) * ellBytes
  let b := residentBit s ell
  match b.2.1 with
  | .none =>
    if b.1 then (.ok x, b.2.2)
    else if getB s Reg.xtuCtl_mig_en then (.wait (.migrate ⟨ell, iova, t, pva / ellBytes, recPpa, r.pasid, x.ppa / ellBytes, x.place, x.keyTenant⟩), b.2.2)
    else (.fail ⟨.unmapped, iova, .iova, 0⟩, b.2.2)
  | _ => (.ok x, resmapLost b.2.2 x.place ell)

/-- A PPA of this node lies in a range under erase (spec 17 R373). -/
def inErase (s : State) (ppa : Nat) : Bool :=
  s.sec.erases.any (fun e => decide (e.offset ≤ localOf ppa) && decide (localOf ppa < e.offset + e.ells * ellBytes))

/-- Local backing whose key_tenant is not ACTIVE (R35), or that is under erase (R373); zero-fill has no backing. -/
def keyGone (s : State) (x : Xl) : Bool :=
  !x.zeroFill && ownerOf x.ppa == s.dev.node && (!tenantActive s x.keyTenant || inErase s x.ppa)

/-- The record for an ell: of a lease that its holder keeps and that is not stale, or as findRec (R175 to R177). -/
def recVia (s : State) (leases : List Lease) (t ell pva : Nat) : ((ExtRec × Nat) ⊕ Fin) × State :=
  match leases.find? (fun l => l.tenant == t && !l.stale && covers l.ext ell) with
  | some l => (.inl (l.ext, l.recPpa), s)
  | none => findRec s t ell pva

/-- Translate one address of a tenant for a right (R171), through leases its holder keeps. `binds` are the versions bound so
far; the second result has the version this translation bound. Checks that fail together are ordered by R65. -/
def xlateVia (s : State) (leases : List Lease) (t pva : Nat) (need : Need) (binds : List Bind) : XRes × List Bind × State :=
  if ngetD false s.xtu.tblLost t then (.fail (Fin.of .fatal), binds, s)
  else if !tenantActive s t then (.fail (Fin.of .tenantGone), binds, s)
  else if 2 ^ 52 ≤ pva then (.fail (Fin.atPva .unmapped pva), binds, s)
  else if t ∈ s.sec.pendingLoad then (.wait (.key t), binds, s)
  else if !getB s Reg.smcLock_zmap_ready then (.wait .zmap, binds, s)
  else
    let ell := pva / ellBytes
    let q := recVia s leases t ell pva
    match q.1 with
    | .inr f => (.fail f, binds, q.2)
    | .inl (r, recPpa) =>
      if !r.regionRef then
        if !hasRight r.rd r.wr r.rmw need then (.fail (Fin.atPva .accessDenied pva), binds, q.2)
        else if r.revEpoch % 2 = 1 then (.fail (Fin.atPva .revoked pva), binds, q.2)
        else
          let x : Xl := ⟨(r.ppaEll + (ell - r.pvaStart)) * ellBytes + pva % ellBytes, r.place, r.keyTenant,
            r.coherent, r.zeroFill, r, recPpa⟩
          if keyGone q.2 x then (.fail (Fin.of .tenantGone), binds, q.2)
          else if r.hostBacked then
            let c := checkResident q.2 t pva recPpa r x
            (c.1, binds, c.2)
          else (.ok x, binds, q.2)
      else
        let region := r.ppaEll
        let off := ell - r.pvaStart
        let v := boundVer binds region
        let w : WinRes × State :=
          if regionHome region = q.2.dev.node then winHome q.2 t region off pva v
          else winCached q.2 t region off pva v
        match w.1 with
        | .wait => (.wait (.set region v), binds, w.2)
        | .fail f =>
          if !hasRight r.rd r.wr r.rmw need then (.fail (Fin.atPva .accessDenied pva), binds, w.2)
          else if r.revEpoch % 2 = 1 then (.fail (Fin.atPva .revoked pva), binds, w.2)
          else (.fail f, binds, w.2)
        | .ok c ver =>
          let binds := if v.isSome then binds else ⟨region, ver⟩ :: binds
          if !hasRight (r.rd && c.rd) (r.wr && c.wr) (r.rmw && c.rmw) need then
            (.fail (Fin.atPva .accessDenied pva), binds, w.2)
          else if r.revEpoch % 2 = 1 then (.fail (Fin.atPva .revoked pva), binds, w.2)
          else
            let x : Xl := ⟨(c.ppaEll + (off - c.pvaStart)) * ellBytes + pva % ellBytes, c.place, c.keyTenant,
              c.coherent, c.zeroFill, r, recPpa⟩
            if keyGone w.2 x then (.fail (Fin.of .tenantGone), binds, w.2) else (.ok x, binds, w.2)

/-- Translate one address with no lease. -/
def xlate (s : State) (t pva : Nat) (need : Need) (binds : List Bind) : XRes × List Bind × State :=
  xlateVia s [] t pva need binds

end Sys2Proof.Machine
end

