-- ==== Sys2Proof/Machine/OpsServe.lean ====
section
/-!
DEFINITION. Machine/OpsServe.lean: the operators for attention and mixture of experts (spec 06): layout checks, pre-passes,
tiles and the computation of one tile or one unit of output.
-/
namespace Sys2Proof.Machine
open Sys2Proof

/-- Bytes per element of a plain format code. -/
def fmtBytes (code : Nat) : Nat := fmtBits code / 8

/-- The element format of a code. -/
def elOf (code : Nat) : Elem := (elemOf code).getD (.fl ffFp32)

/-- exp(a − m), where a score of −∞ contributes 0 (R156). -/
def expDiff (a m : Px) : Px :=
  if a.p || m.p then pVal ⟨fpZero, 0⟩
  else if a.x.v = .inf true then pVal ⟨fpZero, a.x.fl⟩
  else pVal (fExp (fAdd a.x (fNeg m.x)))

/-! ATTEND_DECODE (R126 to R131) -/

/-- head_dim of an hd code. -/
def hdDim (hd : Nat) : Nat := 64 * 2 ^ hd
/-- n_seq -/
def adSeqs (raw : Nat) : Nat := dfld raw 0x40 0 32
/-- page_tokens -/
def adTok (raw : Nat) : Nat := 2 ^ dfld raw 0x48 0 4
/-- n_kv_heads -/
def adKv (raw : Nat) : Nat := dfld raw 0x49 0 7
/-- n_q_heads -/
def adQ (raw : Nat) : Nat := dfld raw 0x4A 0 8
/-- head_dim -/
def adDim (raw : Nat) : Nat := hdDim (dfld raw 0x4B 0 2)
/-- lse_en -/
def adLse (raw : Nat) : Bool := dbit raw 0x4B 2
/-- Bytes of one token's keys. -/
def adTokBytes (raw : Nat) : Nat := adKv raw * adDim raw * fmtBytes (dfld raw 0x4C 4 4)
/-- page_bytes -/
def adPage (raw : Nat) : Nat := 2 * adTok raw * adTokBytes raw
/-- Bytes of a query row. -/
def adQRow (raw : Nat) : Nat := adQ raw * adDim raw * fmtBytes (dfld raw 0x4C 0 4)
/-- Bytes of an output row. -/
def adORow (raw : Nat) : Nat := adQ raw * adDim raw * fmtBytes (dfld raw 0x4D 0 4)

/-- A 32-bit pattern is a finite FP32 value. -/
def fin32 (b : Nat) : Bool := match fpDecode ffFp32 b with | .fin _ _ _ => true | _ => false

/-- An ATTEND_DECODE is refused (R101, R126). -/
def badAttend (raw : Nat) : Bool :=
  [0x10, 0x18, 0x20, 0x28, 0x30].any (fun o => !pvaOk (dfld raw o 0 64) 64)
  || (if adLse raw then !pvaOk (dfld raw 0x38 0 64) 1 else dfld raw 0x38 0 64 != 0)
  || adSeqs raw == 0 || decide (512 < adSeqs raw) || dfld raw 0x44 0 32 == 0
  || decide (8 < dfld raw 0x48 0 4) || dfld raw 0x48 4 4 != 0
  || adKv raw == 0 || decide (64 < adKv raw) || dbit raw 0x49 7
  || adQ raw == 0 || decide (128 < adQ raw) || adQ raw % adKv raw != 0 || decide (16 * adKv raw < adQ raw)
  || dfld raw 0x4B 0 2 == 3 || dfld raw 0x4B 3 5 != 0
  || decide (2 < dfld raw 0x4C 0 4) || !([1, 2, 3, 4].contains (dfld raw 0x4C 4 4))
  || decide (2 < dfld raw 0x4D 0 4) || dfld raw 0x4D 4 4 != 0 || !numctlOk (dfld raw 0x4E 0 8) || dfld raw 0x4F 0 8 != 0
  || decide (8192 < adQ raw * adDim raw) || decide (65536 < adPage raw)
  || (adLse raw && adQ raw % 16 != 0)
  || !fin32 (dfld raw 0x50 0 32) || !fin32 (dfld raw 0x54 0 32) || !fin32 (dfld raw 0x58 0 32) || !dzero raw 0x5C 0x80

/-- Page-table entries that a record reaches. -/
def recEntries (pt lo hi : Nat) : Nat := if lo = hi then 0 else (hi - 1) / pt - lo / pt + 1

/-- Record j of the pre-pass as (tok_lo, tok_hi, pt_first). -/
def adRec (p : Pre) (j : Nat) : Nat × Nat × Nat := (p.xs.getD (3 * j) 0, p.xs.getD (3 * j + 1) 0, p.xs.getD (3 * j + 2) 0)

/-- Entries reached by records before j. -/
def adBefore (raw : Nat) (p : Pre) (j : Nat) : Nat :=
  ((List.range j).map (fun i => recEntries (adTok raw) (adRec p i).1 (adRec p i).2.1)).sum

/-- The first pass reads the sequence records (R127). A record of a granule that is poisoned or could not be read is not judged, and none
after it (R65). -/
def attendRecs (raw : Nat) (v : View) : Pre ⊕ Fin :=
  let base := dfld raw 0x18 0 64
  let js := List.range (adSeqs raw)
  let p : Pre := ⟨js.flatMap (fun j => [vNat v (base + 16 * j + 4) 4, vNat v (base + 16 * j) 4, vNat v (base + 16 * j + 8) 4]), []⟩
  match js.find? (fun j =>
      let r := adRec p j
      (List.range (j + 1)).all (fun i => vSure v (base + 16 * i) 16) && (decide (r.2.1 < r.1) || decide (4194304 < r.2.1) || vNat v (base + 16 * j + 12) 4 != 0
      || decide (262144 < adBefore raw p (j + 1)))) with
  | some j => .inr (Fin.atPva .badDescriptor (base + 16 * j))
  | none => .inl p

/-- What the second pass reads: each record's entries. -/
def attendEntryRanges (raw : Nat) (p : Pre) : List (Nat × Nat) :=
  ((List.range (adSeqs raw)).map (fun j =>
    let r := adRec p j
    (dfld raw 0x20 0 64 + 4 * (r.2.2 + r.1 / adTok raw), 4 * recEntries (adTok raw) r.1 r.2.1))).filter (fun x => x.2 ≠ 0)

/-- The second pass reads the page numbers (R127). -/
def attendEntries (raw : Nat) (p : Pre) (v : View) : Pre ⊕ Fin :=
  let addrs := (attendEntryRanges raw p).flatMap (fun r => (List.range (r.2 / 4)).map (fun i => r.1 + 4 * i))
  let ys := addrs.map (fun a => vNat v a 4)
  match (addrs.zip ys).find? (fun x => decide (dfld raw 0x44 0 32 ≤ x.2) && vSure v x.1 4) with
  | some x => .inr (Fin.atPva .badDescriptor x.1)
  | none => .inl ⟨p.xs, ys⟩

/-- One tile for each pair of a sequence and a page it reaches, in ascending page order (R129); one tile for a sequence that
reaches no page (DEDUCED, log 21). -/
def tilesAttend (raw : Nat) (p : Pre) : List Tile :=
  let pt := adTok raw
  let pairs := (List.range (adSeqs raw)).flatMap (fun j =>
    let r := adRec p j
    (List.range (recEntries pt r.1 r.2.1)).map (fun i =>
      let l := r.1 / pt + i
      (p.ys.getD (adBefore raw p j + i) 0, j, max r.1 (l * pt) - l * pt, min r.2.1 ((l + 1) * pt) - l * pt)))
  let hit := (dedupSort (pairs.map (·.1))).flatMap (fun g => (pairs.filter (fun x => x.1 == g)).map (fun x =>
    let a := dfld raw 0x28 0 64 + g * adPage raw + x.2.2.1 * adTokBytes raw
    let n := (x.2.2.2 - x.2.2.1) * adTokBytes raw
    ({ num := 0, anchor := a,
       reads := [(dfld raw 0x10 0 64 + x.2.1 * adQRow raw, adQRow raw), (a, n), (a + adPage raw / 2, n)],
       selfReads := [], writes := [], bytes := 0, alen := 2 * n, arg := [x.2.1, x.2.2.1, x.2.2.2, g], phase := 1 } : Tile)))
  let none := ((List.range (adSeqs raw)).filter (fun j => recEntries pt (adRec p j).1 (adRec p j).2.1 == 0)).map (fun j =>
    ({ num := 0, anchor := dfld raw 0x30 0 64 + j * adORow raw, reads := [], selfReads := [], writes := [], bytes := 0,
       alen := adORow raw, arg := [j], phase := 1 } : Tile))
  numberTiles (hit ++ none)

/-- The state of one query head: running maximum, sum and accumulator. -/
structure HeadSt where
  m : Fx
  l : Fx
  acc : List Fx
deriving DecidableEq, Repr

/-- Before the first token. -/
def headInit (dim : Nat) : HeadSt := ⟨⟨.inf true, 0⟩, ⟨fpZero, 0⟩, List.replicate dim ⟨fpZero, 0⟩⟩

/-- A product kept exact where FP32 can hold its magnitude, and the infinity of FP32 where it cannot (R163). -/
def mulWide (a b : Fx) : Fx :=
  let r := xMul a b
  let f := toF32 r.v r.fl
  match f.v with
  | .inf _ => f
  | _ => r

/-- An exact sum rounded once to FP32 (R163). -/
def sumOnce (xs : List Fx) : Fx :=
  let r := xs.tail.foldl xAdd (xs.headD ⟨fpZero, 0⟩)
  toF32 r.v r.fl

/-- exp(a − m) within k last places, the difference kept exact; a score of −∞ contributes 0 (R156, R163). -/
def expTo (k : Nat) (a m : Fx) : Fx :=
  if a.v = .inf true then ⟨fpZero, flOr a.fl m.fl⟩ else expWithin k (xAdd a (fNeg m))

/-- The format that key and value products run in. -/
def kvFmt (code : Nat) : FFmt := match elemOf code with | some (.fl f) => f | _ => ffBf16

/-- The format that probabilities are rounded to (spec 06, after R127). -/
def probFmt (code : Nat) : FFmt := if code = 3 ∨ code = 4 then ffE4m3 else kvFmt code

/-- A value rounded to a format with no flag (R153). -/
def quiet (f : FFmt) (sat : Bool) (x : Fx) : Fx := ⟨(fpRound f .nearest sat x.v).v, x.fl⟩

/-- A query head as the products take it, with the power of two to undo (spec 06, after R127; R157). -/
def qConv (code : Nat) (q : List Fx) : List Fx × Int :=
  let f := kvFmt code
  if code = 3 ∨ code = 4 then
    let p := rowScale f q
    (q.map (fun x => quiet f true ⟨fpScale x.v p, x.fl⟩), p)
  else (q.map (quiet f false), 0)

/-- The score of one token: the dot product, scaled exactly. -/
def headScore (raw : Nat) (q : List Fx × Int) (k : List Fx) : Fx :=
  let d := dot q.1 (k.map (mulWide (val32 (dfld raw 0x54 0 32))))
  mulWide (val32 (dfld raw 0x50 0 32)) (toF32 (fpScale d.v (-q.2)) d.fl)

/-- The tokens of one page for one head, after the pseudocode of ATTEND_DECODE (R127, R128). The bound of R163 has no term in the number
of tokens, so that the sums of a page are exact and rounded once (DEDUCED, log 130). -/
def headPage (raw : Nat) (q : List Fx × Int) (toks : List (List Fx × List Fx)) : HeadSt :=
  let dim := adDim raw
  let vs := val32 (dfld raw 0x58 0 32)
  let ss := toks.map (fun t => headScore raw q t.1)
  let m := ss.foldl (fun a s => fMax a (toF32 s.v s.fl)) ⟨.inf true, 0⟩
  let es := ss.map (fun s => let f := toF32 s.v s.fl; expTo 2 (match f.v with | .inf _ => f | _ => s) m)
  let ps := es.map (quiet (probFmt (dfld raw 0x4C 4 4)) false)
  ⟨m, sumOnce es, (List.range dim).map (fun d =>
    sumOnce ((ps.zip toks).map (fun x => xMul x.1 (mulWide vs (x.2.2.getD d ⟨fpZero, 0⟩)))))⟩

/-- Flags of a head's state. -/
def headFl (h : HeadSt) : Nat := h.acc.foldl (fun a x => flOr a x.fl) (flOr h.m.fl h.l.fl)

/-- Compute one tile of an ATTEND_DECODE: partial states of every head (R129); poison poisons the whole contribution (R131). -/
def computeAttend (raw : Nat) (t : Tile) (v : View) : CompOut :=
  let j := t.arg.getD 0 0
  let dim := adDim raw
  if t.arg.length = 1 then ⟨[], [], [⟨t.num, j, 0, [], 0, false⟩], 0, none⟩
  else if t.reads.any (fun r => vPois v r.1 r.2) then ⟨[], [], [⟨t.num, j, 1, [(0, true)], 0, false⟩], 0, none⟩
  else
    let i0 := t.arg.getD 1 0
    let page := dfld raw 0x28 0 64 + t.arg.getD 3 0 * adPage raw
    let qel := elOf (dfld raw 0x4C 0 4)
    let kel := elOf (dfld raw 0x4C 4 4)
    let group := adQ raw / adKv raw
    let hs := (List.range (adQ raw)).map (fun h =>
      let g := h / group
      let q := qConv (dfld raw 0x4C 4 4)
        ((List.range dim).map (fun d => (vLoad v qel (dfld raw 0x10 0 64 + j * adQRow raw) (h * dim + d)).x))
      headPage raw q ((List.range (t.arg.getD 2 0 - i0)).map (fun n =>
        let e := ((i0 + n) * adKv raw + g) * dim
        ((List.range dim).map (fun d => (vLoad v kel page (e + d)).x),
         (List.range dim).map (fun d => (vLoad v kel (page + adPage raw / 2) (e + d)).x)))))
    let fl := hs.foldl (fun a h => flOr a (headFl h)) 0
    ⟨[], [], [⟨t.num, j, 1, hs.flatMap (fun h => (h.m :: h.l :: h.acc).map (fun x => partVal (pVal x))), fl, false⟩], fl, none⟩

/-- The state of head h in a partial. -/
def partHead (dim : Nat) (q : Part) (h : Nat) : HeadSt :=
  let at' := fun i => val32 (q.vals.getD (h * (dim + 2) + i) (0, false)).1
  ⟨at' 0, at' 1, (List.range dim).map (fun d => at' (d + 2))⟩

/-- Combine two partial states of a head: each sum is rounded once, and the rescaling lies within one last place, which is what the
3P of R163 leaves (DEDUCED, log 130). -/
def headMerge (a b : HeadSt) : HeadSt :=
  let m := fMax a.m b.m
  let ca := expTo 1 a.m m
  let cb := expTo 1 b.m m
  ⟨m, sumOnce [xMul a.l ca, xMul b.l cb], (a.acc.zip b.acc).map (fun x => sumOnce [xMul x.1 ca, xMul x.2 cb])⟩

/-- Write a sequence's output row and lse values once its last tile has contributed (R129). -/
def finishAttend (raw j : Nat) (parts : List Part) (base : Nat) : CompOut :=
  let dim := adDim raw
  let nc := dfld raw 0x4E 0 8
  let oel := elOf (dfld raw 0x4D 0 4)
  let ps := parts.filter (fun q => q.cnt ≠ 0)
  let pois := ps.any (fun q => q.vals.any (·.2))
  runsOf ((List.range (adQ raw)).flatMap (fun h =>
    let st := if pois then headInit dim else
      match ps.map (fun q => partHead dim q h) with
      | [] => headInit dim
      | a :: rest => rest.foldl headMerge a
    let zero := fpEqv st.l.v fpZero
    let outs := (List.range dim).map (fun d =>
      let x := pVal (if zero then ⟨fpZero, 0⟩ else fDiv (st.acc.getD d ⟨fpZero, 0⟩) st.l)
      elemRun oel (ncRnd nc base (j * 8192 + h * dim + d)) (ncSat nc) (dfld raw 0x30 0 64 + j * adORow raw) (h * dim + d)
        ⟨x.x, pois⟩)
    let lse := pVal (if zero then ⟨.inf true, 0⟩ else fAdd st.m (fLn st.l))
    outs ++ (if adLse raw then
      [elemRun (.fl ffFp32) .nearest false (dfld raw 0x38 0 64) (j * adQ raw + h) ⟨lse.x, pois⟩] else [])))

/-! ATTEND_MERGE (R132, R133) -/

/-- n_seq -/
def amSeqs (raw : Nat) : Nat := dfld raw 0x28 0 32
/-- n_heads -/
def amHeads (raw : Nat) : Nat := dfld raw 0x2C 0 8
/-- head_dim -/
def amDim (raw : Nat) : Nat := hdDim (dfld raw 0x2D 0 2)
/-- nsrc -/
def amSrcs (raw : Nat) : Nat := dfld raw 0x2D 2 4
/-- lse_en -/
def amLse (raw : Nat) : Bool := dbit raw 0x2D 6

/-- An ATTEND_MERGE is refused by its own fields (R101, R132). -/
def badMerge (raw : Nat) : Bool :=
  !pvaOk (dfld raw 0x10 0 64) 64 || !pvaOk (dfld raw 0x18 0 64) 64
  || (if amLse raw then !pvaOk (dfld raw 0x20 0 64) 64 else dfld raw 0x20 0 64 != 0)
  || amSeqs raw == 0 || decide (65536 < amSeqs raw) || amHeads raw == 0 || decide (128 < amHeads raw) || amHeads raw % 16 != 0
  || dfld raw 0x2D 0 2 == 3 || decide (amSrcs raw < 2) || decide (8 < amSrcs raw) || dbit raw 0x2D 7
  || decide (2 < dfld raw 0x2E 0 4) || decide (2 < dfld raw 0x2E 4 4) || !numctlOk (dfld raw 0x2F 0 8) || !dzero raw 0x30 0x40

/-- The source table (R132): o addresses, then lse addresses. The first bad address of a readable entry fails at that entry (R64). -/
def mergePre (raw : Nat) (v : View) : Pre ⊕ Fin :=
  let base := dfld raw 0x10 0 64
  let os := (List.range (amSrcs raw)).map (fun k => vNat v (base + 16 * k) 8)
  let ls := (List.range (amSrcs raw)).map (fun k => vNat v (base + 16 * k + 8) 8)
  match (List.range (2 * amSrcs raw)).find? (fun i => vSure v (base + 8 * i) 8 && !pvaOk (vNat v (base + 8 * i) 8) 64) with
  | some i => .inr (Fin.atPva .badDescriptor (base + 8 * i))
  | none => .inl ⟨os, ls⟩

/-- The tile of an ATTEND_MERGE that forms n elements from e0 on. A head's merged lse goes with its first element. -/
def mergeTile (raw : Nat) (p : Pre) (e0 n : Nat) : Tile :=
  let ow := fmtBytes (dfld raw 0x2E 4 4)
  let iw := fmtBytes (dfld raw 0x2E 0 4)
  let dim := amDim raw
  let c := (dfld raw 0x18 0 64 + e0 * ow, n * ow)
  let h0 := e0 / dim
  let hn := (e0 + n - 1) / dim + 1 - h0
  let l0 := cdiv e0 dim
  let ln := cdiv (e0 + n) dim - l0
  { num := 0, anchor := c.1,
    reads := p.xs.map (fun a => (a + e0 * iw, n * iw)) ++ p.ys.map (fun a => (a + h0 * 4, hn * 4)), selfReads := [],
    writes := c :: (if amLse raw && ln != 0 then [(dfld raw 0x20 0 64 + l0 * 4, ln * 4)] else []),
    bytes := c.2, alen := c.2, arg := [e0, n], phase := 1 }

/-- Tiles of an ATTEND_MERGE: the 4 KiB blocks of out. -/
def tilesMerge (raw : Nat) (p : Pre) : List Tile :=
  let out := dfld raw 0x18 0 64
  let ow := fmtBytes (dfld raw 0x2E 4 4)
  numberTiles ((blockCuts out (amSeqs raw * amHeads raw * amDim raw * ow)).map (fun c => mergeTile raw p ((c.1 - out) / ow) (c.2 / ow)))

/-- The merged weights of a head: big_m, w_k and their sum, or none when every source is at −∞ (R133). -/
def mergeWeights (ls : List Px) : Px × List Px × Px :=
  let big := ls.tail.foldl (pOp fMax) (ls.headD (pVal ⟨fpZero, 0⟩))
  let ws := ls.map (fun l => if l.p || big.p then ⟨⟨fpZero, 0⟩, true⟩ else expDiff l big)
  (big, ws, ws.tail.foldl (pOp fAdd) (ws.headD (pVal ⟨fpZero, 0⟩)))

/-- Compute one tile of an ATTEND_MERGE (R133). -/
def computeMerge (raw : Nat) (p : Pre) (t : Tile) (v : View) (base : Nat) : CompOut :=
  let nc := dfld raw 0x2F 0 8
  let dim := amDim raw
  let iel := elOf (dfld raw 0x2E 0 4)
  let oel := elOf (dfld raw 0x2E 4 4)
  runsOf ((List.range (t.arg.getD 1 0)).flatMap (fun i =>
    let e := t.arg.getD 0 0 + i
    let h := e / dim
    let w := mergeWeights (p.ys.map (fun a => vLoad v (.fl ffFp32) a h))
    let none := !w.1.p && decide (w.1.x.v = .inf true)
    let terms := (p.xs.zip w.2.1).map (fun x => pOp fMul x.2 (vLoad v iel x.1 e))
    let x := if none then pVal ⟨fpZero, w.1.x.fl⟩
      else pOp fDiv (terms.tail.foldl (pOp fAdd) (terms.headD (pVal ⟨fpZero, 0⟩))) w.2.2
    let o := elemRun oel (ncRnd nc base e) (ncSat nc) (dfld raw 0x18 0 64) e x
    if amLse raw && e % dim == 0 then
      let m := if none then pVal ⟨.inf true, w.1.x.fl⟩ else pOp fAdd w.1 (pOp (fun a _ => fLn a) w.2.2 w.2.2)
      [o, elemRun (.fl ffFp32) .nearest false (dfld raw 0x20 0 64) h m]
    else [o]))

/-! TOPK (R134 to R136) -/

/-- n_rows -/
def tkRows (raw : Nat) : Nat := dfld raw 0x28 0 32
/-- row_len -/
def tkLen (raw : Nat) : Nat := dfld raw 0x2C 0 32
/-- k -/
def tkK (raw : Nat) : Nat := dfld raw 0x30 0 16
/-- Bytes of a source element. -/
def tkW (raw : Nat) : Nat := fmtBytes (dfld raw 0x32 0 4)
/-- Bytes of an output value. -/
def tkVw (raw : Nat) : Nat := fmtBytes (dfld raw 0x33 0 4)

/-- A TOPK is refused (R101, R134). -/
def badTopk (raw : Nat) : Bool :=
  let d := dfld raw 0x32 0 4
  let vf := dfld raw 0x33 0 4
  !pvaOk (dfld raw 0x10 0 64) 64 || !pvaOk (dfld raw 0x18 0 64) 64 || !pvaOk (dfld raw 0x20 0 64) 64
  || tkRows raw == 0 || decide (65536 < tkRows raw) || tkLen raw == 0 || decide (16777216 < tkLen raw)
  || tkK raw == 0 || decide (1024 < tkK raw) || decide (tkLen raw < tkK raw)
  || !([0, 1, 2, 12].contains d) || dfld raw 0x32 6 2 != 0 || dfld raw 0x33 4 4 != 0
  || !([0, 1, 2, 12].contains vf) || (vf == 12 && (d != 12 || dbit raw 0x32 5)) || (d == 12 && dbit raw 0x32 5)
  || !numctlOk (dfld raw 0x34 0 8) || dfld raw 0x35 1 7 != 0 || !dzero raw 0x37 0x40
  || tkLen raw * tkW raw % 64 != 0

/-- Rows whose outputs share granules: no output granule belongs to two groups (R134). -/
def tkGroup (raw : Nat) : Nat := 64 / Nat.gcd 64 (Nat.gcd (tkK raw * tkVw raw) (tkK raw * 4))
/-- Number of groups. -/
def tkGroups (raw : Nat) : Nat := cdiv (tkRows raw) (tkGroup raw)
/-- Rows of group g. -/
def tkGroupRows (raw g : Nat) : List Nat :=
  (List.range (min (tkRows raw) ((g + 1) * tkGroup raw) - g * tkGroup raw)).map (fun i => g * tkGroup raw + i)
/-- Source range of group g. -/
def tkRange (raw g : Nat) : Nat × Nat :=
  let rb := tkLen raw * tkW raw
  (dfld raw 0x10 0 64 + g * tkGroup raw * rb, (tkGroupRows raw g).length * rb)
/-- Output ranges of group g. -/
def tkWrites (raw g : Nat) : List (Nat × Nat) :=
  let r := g * tkGroup raw * tkK raw
  let n := (tkGroupRows raw g).length * tkK raw
  [(dfld raw 0x18 0 64 + r * tkVw raw, n * tkVw raw), (dfld raw 0x20 0 64 + r * 4, n * 4)]
/-- Result bytes of group g. -/
def tkBytes (raw g : Nat) : Nat := (tkGroupRows raw g).length * tkK raw * (tkVw raw + 4)

/-- Tiles of a TOPK: groups of at most 4 KiB by the block of their first byte, larger groups block by block (R80, R134). -/
def tilesTopk (raw : Nat) : List Tile :=
  let gs := List.range (tkGroups raw)
  let short := gs.filter (fun g => decide ((tkRange raw g).2 ≤ 4096))
  let a := (dedupSort (short.map (fun g => (tkRange raw g).1 / 4096))).map (fun k =>
    let mine := short.filter (fun g => (tkRange raw g).1 / 4096 == k)
    let rs := mine.map (tkRange raw)
    ({ num := 0, anchor := (rs.headD (0, 0)).1, reads := rs, selfReads := [], writes := mine.flatMap (tkWrites raw),
       bytes := (mine.map (tkBytes raw)).sum, alen := (rs.map (·.2)).sum, arg := 0 :: mine, phase := 1 } : Tile))
  let b := (gs.filter (fun g => decide (4096 < (tkRange raw g).2))).flatMap (fun g =>
    (blockCuts (tkRange raw g).1 (tkRange raw g).2).map (fun c =>
      ({ num := 0, anchor := c.1, reads := [c], selfReads := [], writes := [], bytes := 0, alen := c.2,
         arg := [1, g, c.1, c.2], phase := 1 } : Tile)))
  let all := a ++ b
  numberTiles ((dedupSort (all.map (·.anchor))).flatMap (fun x => all.filter (fun t => t.anchor == x)))

/-- A candidate: column, element bits. -/
structure Cand where
  col : Nat
  bits : Nat
deriving DecidableEq, Repr

/-- The value order of R135: −∞, finite, +∞, NaN; −0 and +0 equal. -/
def tkLess (a b : Fp) : Bool :=
  match a, b with
  | .nan, _ => false
  | _, .nan => true
  | x, y => !fpEqv x y && fpLt x y

/-- Candidate a ranks before b (R135). -/
def tkBefore (el : Elem) (smallest : Bool) (a b : Cand) : Bool :=
  let x := (widen el 127 a.bits).v
  let y := (widen el 127 b.bits).v
  let ab := tkLess x y
  let ba := tkLess y x
  if smallest then ab || (!ba && decide (a.col < b.col)) else ba || (!ab && decide (a.col < b.col))

/-- Insert into a ranked list. -/
def tkInsert (el : Elem) (smallest : Bool) (c : Cand) : List Cand → List Cand
  | [] => [c]
  | x :: xs => if tkBefore el smallest c x then c :: x :: xs else x :: tkInsert el smallest c xs

/-- The k best of a list, in rank order. -/
def tkBest (el : Elem) (smallest : Bool) (k : Nat) (cs : List Cand) : List Cand :=
  cs.foldl (fun acc c => (tkInsert el smallest c acc).take k) []

/-- What the columns c0 to c0 + n - 1 of row r give: candidates, poison, NaN flag. -/
def tkScan (raw : Nat) (v : View) (r c0 n : Nat) : List Cand × Bool × Nat :=
  let el := elOf (dfld raw 0x32 0 4)
  let w := tkW raw
  let base := dfld raw 0x10 0 64 + r * tkLen raw * w
  if vPois v (base + c0 * w) (n * w) then ([], true, 0) else
    let cs := (List.range n).map (fun i => (⟨c0 + i, vElem v base (8 * w) (c0 + i)⟩ : Cand))
    (tkBest el (dbit raw 0x32 4) (tkK raw) cs, false, cs.foldl (fun a c => flOr a (widen el 127 c.bits).fl) 0)

/-- The output of one row (R135). -/
def tkRow (raw r : Nat) (cs : List Cand) (pois : Bool) (base : Nat) : List (Run × Nat) :=
  let el := elOf (dfld raw 0x32 0 4)
  let vel := elOf (dfld raw 0x33 0 4)
  let nc := dfld raw 0x34 0 8
  let k := tkK raw
  let best := if pois then List.replicate k ⟨0, 0⟩ else tkBest el (dbit raw 0x32 4) k cs
  let vs := best.map (fun c => (⟨(widen el 127 c.bits).v, 0⟩ : Fx))
  let v0 := vs.foldl (fun a x => if tkLess a.v x.v then x else a) (vs.headD ⟨fpZero, 0⟩)
  let es := vs.map (fun x => fExp (fAdd x (fNeg v0)))
  let sum := es.tail.foldl fAdd (es.headD ⟨fpZero, 0⟩)
  let outs := if dbit raw 0x32 5 then es.map (fun e => fDiv e sum) else vs
  (outs.zipIdx).map (fun x =>
    elemRun vel (ncRnd nc base (r * k + x.2)) (ncSat nc) (dfld raw 0x18 0 64) (r * k + x.2) ⟨x.1, pois⟩)
  ++ (best.zipIdx).map (fun x => (⟨dfld raw 0x20 0 64 + (r * k + x.2) * 4, natToLe 4 x.1.col, pois⟩, 0))

/-- Compute one tile of a TOPK: whole groups, or candidates of a part of one (R134). -/
def computeTopk (raw : Nat) (t : Tile) (v : View) (base : Nat) : CompOut :=
  if t.arg.headD 0 = 0 then
    let rs := (t.arg.tail.flatMap (tkGroupRows raw)).map (fun r => (r, tkScan raw v r 0 (tkLen raw)))
    let o := runsOf (rs.flatMap (fun x => tkRow raw x.1 x.2.1 x.2.2.1 base))
    { o with fl := rs.foldl (fun a x => flOr a x.2.2.2) o.fl }
  else
    let g := t.arg.getD 1 0
    let w := tkW raw
    let lo := (t.arg.getD 2 0 - dfld raw 0x10 0 64) / w
    let hi := lo + t.arg.getD 3 0 / w
    let rows := (List.range ((hi - 1) / tkLen raw + 1 - lo / tkLen raw)).map (fun i => lo / tkLen raw + i)
    let rs := rows.map (fun r =>
      let c0 := max lo (r * tkLen raw) - r * tkLen raw
      let c1 := min hi ((r + 1) * tkLen raw) - r * tkLen raw
      (r, tkScan raw v r c0 (c1 - c0)))
    let fl := rs.foldl (fun a x => flOr a x.2.2.2) 0
    let vals := rs.flatMap (fun x =>
      if x.2.2.1 then [(x.1, true), (0, true), (0, true)]
      else x.2.1.flatMap (fun c => [(x.1, false), (c.col, false), (c.bits, false)]))
    ⟨[], [], [⟨t.num, g, 1, vals, fl, false⟩], fl, none⟩

/-- The candidates of row r in a partial, and whether the row met poison. -/
def partCands (r : Nat) (q : Part) : List Cand × Bool :=
  let n := q.vals.length / 3
  let es := (List.range n).filter (fun i => (q.vals.getD (3 * i) (0, false)).1 == r)
  (es.map (fun i => ⟨(q.vals.getD (3 * i + 1) (0, false)).1, (q.vals.getD (3 * i + 2) (0, false)).1⟩),
   es.any (fun i => (q.vals.getD (3 * i) (0, false)).2))

/-- Write a group of rows once every tile has passed its candidates (R134). -/
def finishTopk (raw g : Nat) (parts : List Part) (base : Nat) : CompOut :=
  runsOf ((tkGroupRows raw g).flatMap (fun r =>
    let xs := parts.map (partCands r)
    tkRow raw r (xs.flatMap (·.1)) (xs.any (·.2)) base))

/-! MOE_DISPATCH (R137 to R139) -/

/-- Bytes of a token row. -/
def mdRow (raw : Nat) : Nat := dfld raw 0x40 0 16 * fmtBytes (dfld raw 0x45 0 4)
/-- n_tok × top_k -/
def mdN (raw : Nat) : Nat := dfld raw 0x38 0 32 * dfld raw 0x44 0 5

/-- A MOE_DISPATCH is refused (R101, R137). -/
def badDispatch (raw : Nat) : Bool :=
  [0x10, 0x18, 0x20, 0x28, 0x30].any (fun o => !pvaOk (dfld raw o 0 64) 64)
  || dfld raw 0x38 0 32 == 0 || decide (65536 < dfld raw 0x38 0 32)
  || dfld raw 0x3C 0 32 == 0 || decide (65536 < dfld raw 0x3C 0 32)
  || dfld raw 0x42 0 9 == 0 || decide (256 < dfld raw 0x42 0 9) || dfld raw 0x42 9 7 != 0
  || dfld raw 0x44 0 5 == 0 || decide (16 < dfld raw 0x44 0 5) || dfld raw 0x44 5 3 != 0
  || !([1, 2, 3, 4].contains (dfld raw 0x45 0 4)) || dfld raw 0x45 4 4 != 0
  || dfld raw 0x46 1 7 != 0 || !dzero raw 0x48 0x80
  || mdRow raw % 64 != 0 || decide (65536 < mdRow raw) || decide (262144 < mdN raw)

/-- Positions assigned in ascending order of token and choice (R138): 0xFFFF_FFFF for none or dropped. -/
def mdPositions (cap : Nat) : List Nat → NMap Nat → List Nat
  | [], _ => []
  | e :: es, cnt =>
    let c := ngetD 0 cnt e
    if e = 0xFFFFFFFF then 0xFFFFFFFF :: mdPositions cap es cnt
    else if c < cap then c :: mdPositions cap es (nput cnt e (c + 1))
    else 0xFFFFFFFF :: mdPositions cap es cnt

/-- The pre-pass of a MOE_DISPATCH (R137, R138). -/
def dispatchPre (raw : Nat) (v : View) : Pre ⊕ Fin :=
  let base := dfld raw 0x18 0 64
  let xs := listEntries v base (mdN raw) 4
  match (xs.zipIdx).find? (fun e => e.1 != 0xFFFFFFFF && decide (dfld raw 0x42 0 9 ≤ e.1) && vSure v (base + 4 * e.2) 4) with
  | some e => .inr (Fin.atPva .badDescriptor (base + 4 * e.2))
  | none => .inl ⟨xs, mdPositions (dfld raw 0x3C 0 32) xs []⟩

/-- The copies of token t as (expert, position). -/
def mdCopies (raw : Nat) (p : Pre) (t : Nat) : List (Nat × Nat) :=
  let k := dfld raw 0x44 0 5
  ((List.range k).map (fun c => (p.xs.getD (t * k + c) 0, p.ys.getD (t * k + c) 0))).filter (fun x => x.2 ≠ 0xFFFFFFFF)

/-- Address of a row in an expert's buffer. -/
def mdBuf (raw : Nat) (x : Nat × Nat) : Nat := dfld raw 0x20 0 64 + (x.1 * dfld raw 0x3C 0 32 + x.2) * mdRow raw

/-- Rows that expert e received. -/
def mdCount (p : Pre) (e : Nat) : Nat := ((p.xs.zip p.ys).filter (fun x => x.1 == e && x.2 != 0xFFFFFFFF)).length

/-- Choices dropped at a full buffer. -/
def mdDropped (p : Pre) : Nat := ((p.xs.zip p.ys).filter (fun x => x.1 != 0xFFFFFFFF && x.2 == 0xFFFFFFFF)).length

/-- The tile of a MOE_DISPATCH that copies the rows of some tokens. -/
def dispatchTile (raw : Nat) (p : Pre) (ts : List Nat) : Tile :=
  let x := dfld raw 0x10 0 64
  let rb := mdRow raw
  let cs := ts.flatMap (mdCopies raw p)
  { num := 0, anchor := x + ts.headD 0 * rb, reads := ts.map (fun t => (x + t * rb, rb)), selfReads := [],
    writes := cs.map (fun c => (mdBuf raw c, rb)), bytes := cs.length * rb, alen := ts.length * rb, arg := ts, phase := 1 }

/-- The tile of a MOE_DISPATCH that writes n entries of pos from entry a on, and m of counts from b on. -/
def dispatchLast (raw a n b m : Nat) : Tile :=
  { num := 0, anchor := dfld raw 0x30 0 64, reads := [], selfReads := [],
    writes := [(dfld raw 0x30 0 64 + 4 * a, 4 * n), (dfld raw 0x28 0 64 + 4 * b, 4 * m)].filter (fun r => r.2 ≠ 0), bytes := 0, alen := 0,
    arg := [a, n, b, m], phase := 2 }

/-- Tiles of a MOE_DISPATCH: token rows, then, as a second phase, the pos and counts arrays (R138). -/
def tilesDispatch (raw : Nat) (p : Pre) : List Tile :=
  let x := dfld raw 0x10 0 64
  let rb := mdRow raw
  let toks := (List.range (dfld raw 0x38 0 32)).filter (fun t => mdCopies raw p t ≠ [])
  let rows := (dedupSort (toks.map (rowKey x rb))).map (fun k => dispatchTile raw p (toks.filter (fun t => rowKey x rb t == k)))
  numberTiles (rows ++ [dispatchLast raw 0 (mdN raw) 0 (dfld raw 0x42 0 9)])

/-- Compute one tile of a MOE_DISPATCH: rows are copied whole (R138). -/
def computeDispatch (raw : Nat) (p : Pre) (t : Tile) (v : View) : CompOut :=
  let rb := mdRow raw
  if t.phase = 1 then
    ⟨[], t.arg.flatMap (fun k => (mdCopies raw p k).flatMap (fun c => (List.range (rb / 64)).map (fun g =>
      (mdBuf raw c / 64 + g, vGran v (dfld raw 0x10 0 64 + k * rb + 64 * g))))), [], 0, none⟩
  else
    let span := fun (a n : Nat) => (List.range n).map (fun i => a + i)
    compRuns ((span (t.arg.getD 0 0) (t.arg.getD 1 0)).map (fun i => ⟨dfld raw 0x30 0 64 + 4 * i, natToLe 4 (p.ys.getD i 0), false⟩)
      ++ (span (t.arg.getD 2 0) (t.arg.getD 3 0)).map (fun e => ⟨dfld raw 0x28 0 64 + 4 * e, natToLe 4 (mdCount p e), false⟩)) 0

/-! EXPERT_FFN (R140 to R142, R165 to R167) -/

/-- A weight row's length in bytes for k elements (R167). -/
def wrow (wfmt : Nat) (sparse : Bool) (k : Nat) : Nat :=
  let up := fun n => cdiv n 64 * 64
  if wfmt = 1 ∨ wfmt = 2 then 2 * k
  else if sparse then up (k / 2 + k / 8)
  else if fmtMx wfmt then up (k * fmtBits wfmt / 8 + k / 32)
  else k

/-- d_model -/
def ffModel (raw : Nat) : Nat := dfld raw 0x4C 0 16
/-- d_ff -/
def ffFf (raw : Nat) : Nat := dfld raw 0x4E 0 16
/-- wfmt -/
def ffW (raw : Nat) : Nat := dfld raw 0x50 4 4
/-- sparse -/
def ffSparse (raw : Nat) : Bool := dbit raw 0x52 2
/-- Bytes of an input row. -/
def ffXRow (raw : Nat) : Nat := ffModel raw * fmtBytes (dfld raw 0x50 0 4)
/-- Bytes of a hidden row. -/
def ffHRow (raw : Nat) : Nat := ffFf raw * fmtBytes (dfld raw 0x51 4 4)
/-- Bytes of an output row. -/
def ffYRow (raw : Nat) : Nat := ffModel raw * fmtBytes (dfld raw 0x51 0 4)

/-- An EXPERT_FFN is refused (R101, R140). -/
def badFfn (s : State) (raw : Nat) : Bool :=
  [0x10, 0x18, 0x20, 0x28, 0x30, 0x38].any (fun o => !pvaOk (dfld raw o 0 64) 64)
  || !pvaOk (dfld raw 0x40 0 64) 4 || dfld raw 0x48 0 32 == 0 || decide (65536 < dfld raw 0x48 0 32)
  || decide (ffModel raw < 64) || decide (16384 < ffModel raw) || ffModel raw % 64 != 0
  || decide (ffFf raw < 64) || decide (32768 < ffFf raw) || ffFf raw % 64 != 0
  || !([1, 2, 3, 4].contains (dfld raw 0x50 0 4)) || ffW raw == 0 || decide (10 < ffW raw) || !fmtOk s (ffW raw)
  || decide (2 < dfld raw 0x51 0 4) || decide (1 < dfld raw 0x51 4 4)
  || dfld raw 0x52 0 2 == 3 || dfld raw 0x52 3 5 != 0 || !numctlOk (dfld raw 0x53 0 8)
  || dfld raw 0x54 1 7 != 0 || !dzero raw 0x56 0x80
  || (ffSparse raw && (!feature s 9 || !(ffW raw == 3 || ffW raw == 4)))
  || decide (65536 < wrow (ffW raw) (ffSparse raw) (ffModel raw)) || decide (65536 < wrow (ffW raw) (ffSparse raw) (ffFf raw))
  || decide (65536 < ffXRow raw)

/-- Batches of consecutive input rows (R142). -/
def ffBatches (rows rowBytes : Nat) : List (Nat × Nat) :=
  let b := min 512 (524288 / rowBytes)
  (List.range (cdiv rows b)).map (fun i => (i * b, min b (rows - i * b)))

/-- Groups of weight rows as (first, count), by the block of their first byte (R80). -/
def ffGroups (base wr n : Nat) : List (Nat × Nat) :=
  (dedupSort ((List.range n).map (rowKey base wr))).map (fun k =>
    let mine := (List.range n).filter (fun f => rowKey base wr f == k)
    (mine.headD 0, mine.length))

/-- The tile of an EXPERT_FFN of a phase: weight rows g (first, count) on input rows b (first, count). -/
def ffnTile (raw phase : Nat) (g b : Nat × Nat) : Tile :=
  let w1 := wrow (ffW raw) (ffSparse raw) (ffModel raw)
  let w2 := wrow (ffW raw) (ffSparse raw) (ffFf raw)
  let hw := fmtBytes (dfld raw 0x51 4 4)
  let yw := fmtBytes (dfld raw 0x51 0 4)
  if phase = 1 then
    { num := 0, anchor := dfld raw 0x18 0 64 + g.1 * w1,
      reads := [(dfld raw 0x18 0 64 + g.1 * w1, g.2 * w1), (dfld raw 0x20 0 64 + g.1 * w1, g.2 * w1),
                (dfld raw 0x10 0 64 + b.1 * ffXRow raw, b.2 * ffXRow raw)], selfReads := [],
      writes := (List.range b.2).map (fun i => (dfld raw 0x30 0 64 + (b.1 + i) * ffHRow raw + g.1 * hw, g.2 * hw)),
      bytes := 0, alen := g.2 * w1, arg := [g.1, g.2, b.1, b.2], phase := 1 }
  else
    { num := 0, anchor := dfld raw 0x28 0 64 + g.1 * w2,
      reads := [(dfld raw 0x28 0 64 + g.1 * w2, g.2 * w2), (dfld raw 0x30 0 64 + b.1 * ffHRow raw, b.2 * ffHRow raw)],
      selfReads := [],
      writes := (List.range b.2).map (fun i => (dfld raw 0x38 0 64 + (b.1 + i) * ffYRow raw + g.1 * yw, g.2 * yw)),
      bytes := b.2 * g.2 * yw, alen := g.2 * w2, arg := [g.1, g.2, b.1, b.2], phase := 2 }

/-- Tiles of an EXPERT_FFN in its two phases (R141, R142). -/
def tilesFfn (raw : Nat) (p : Pre) : List Tile :=
  let rows := p.xs.headD 0
  let w1 := wrow (ffW raw) (ffSparse raw) (ffModel raw)
  let w2 := wrow (ffW raw) (ffSparse raw) (ffFf raw)
  let one := (ffGroups (dfld raw 0x18 0 64) w1 (ffFf raw)).flatMap (fun g => (ffBatches rows (ffXRow raw)).map (ffnTile raw 1 g))
  let two := (ffGroups (dfld raw 0x28 0 64) w2 (ffModel raw)).flatMap (fun g => (ffBatches rows (ffHRow raw)).map (ffnTile raw 2 g))
  if rows = 0 then [] else numberTiles (one ++ two)

/-- Kept positions of a 2:4 code (R165). -/
def sparsePos : Nat → Option (Nat × Nat)
  | 0 => some (0, 1) | 1 => some (0, 2) | 2 => some (0, 3) | 3 => some (1, 2) | 4 => some (1, 3) | 5 => some (2, 3)
  | _ => none

/-- The 4-bit code of group g of a sparse row of k elements at an address (R165). -/
def sparseCode (v : View) (a k g : Nat) : Nat := bitsOf (vByte v (a + k / 2 + g / 2)).toNat (4 * (g % 2)) 4

/-- A code from 0x6 to 0xF in a row: the PVA of its granule (R166). A poisoned granule is not judged. -/
def sparseBad (v : View) (a k : Nat) : Option Fin :=
  ((List.range (k / 4)).find? (fun g => !vPois v (a + k / 2 + g / 2) 1 && (sparsePos (sparseCode v a k g)).isNone)).map
    (fun g => Fin.atPva .badDescriptor ((a + k / 2 + g / 2) / 64 * 64))

/-- The k elements of a weight row at an address (R165 to R167). -/
def wElems (raw : Nat) (v : View) (a k : Nat) : List Px :=
  let el := elOf (ffW raw)
  if ffSparse raw then
    (List.range k).map (fun i =>
      let g := i / 4
      if vPois v (a + k / 2 + g / 2) 1 || vPois v (a + 2 * g) 2 then ⟨⟨fpZero, 0⟩, true⟩ else
        match sparsePos (sparseCode v a k g) with
        | some (x, y) => if i % 4 = x then vLoad v el a (2 * g) else if i % 4 = y then vLoad v el a (2 * g + 1) else pVal ⟨fpZero, 0⟩
        | none => pVal ⟨fpZero, 0⟩)
  else (List.range k).map (fun i => vLoadMx v el a (a + k * fmtBits (ffW raw) / 8) i)

/-- An input row converted to match the weights, with the power of two to undo (R142). A conversion to MX keeps the flags that R149 names
(R153). -/
def convRow (wfmt : Nat) (xs : List Px) : List Px × Int :=
  let keep := fun (ys : List Fx) => (xs.zip ys).map (fun a => (⟨a.2, a.1.p⟩ : Px))
  let fs := xs.map (·.x)
  if wfmt = 1 ∨ wfmt = 2 then (keep (fs.map (quiet (kvFmt wfmt) false)), 0)
  else if wfmt = 3 ∨ wfmt = 4 then
    let p := rowScale ffE4m3 fs
    (keep (fs.map (fun x => quiet ffE4m3 true ⟨fpScale x.v p, x.fl⟩)), p)
  else
    let el := if wfmt = 10 then Elem.mxInt else .mx ffE4m3 8
    let ys := (List.range (fs.length / 32)).flatMap (fun b =>
      let blk := (fs.drop (32 * b)).take 32
      let y := mxEncode el (List.replicate 32 .nearest) false blk
      (y.2.1.zip blk).map (fun z => (⟨(widen el y.1 z.1).v, flOr z.2.fl (Nat.land y.2.2 (flInvalid + flOverflow))⟩ : Fx)))
    (keep ys, 0)

/-- A dot product of a converted row with a weight row (R142, R157). -/
def rowDot (x : List Px × Int) (w : List Px) : Px :=
  if x.1.any (·.p) || w.any (·.p) then ⟨⟨fpZero, 0⟩, true⟩
  else
    let d := dot (x.1.map (·.x)) (w.map (·.x))
    pVal (toF32 (fpScale d.v (-x.2)) d.fl)

/-- The activation (R141). -/
def ffAct (raw : Nat) (g : Fx) : Fx :=
  if dfld raw 0x52 0 2 = 0 then fSilu g else if dfld raw 0x52 0 2 = 1 then fGelu g else fRelu g

/-- Compute one tile of an EXPERT_FFN (R141, R142, R166). -/
def computeFfn (raw : Nat) (t : Tile) (v : View) (base : Nat) : CompOut :=
  let nc := dfld raw 0x53 0 8
  let f0 := t.arg.getD 0 0
  let fs := List.range (t.arg.getD 1 0)
  let r0 := t.arg.getD 2 0
  let rs := List.range (t.arg.getD 3 0)
  let k := if t.phase = 1 then ffModel raw else ffFf raw
  let wr := wrow (ffW raw) (ffSparse raw) k
  let bases := if t.phase = 1 then [dfld raw 0x18 0 64, dfld raw 0x20 0 64] else [dfld raw 0x28 0 64]
  let bad := if ffSparse raw then
    (bases.flatMap (fun b => fs.map (fun i => b + (f0 + i) * wr))).findSome? (fun a => sparseBad v a k) else none
  match bad with
  | some f => { compNone with stop := some f }
  | none =>
    let xel := if t.phase = 1 then elOf (dfld raw 0x50 0 4) else elOf (dfld raw 0x51 4 4)
    let xrow := fun r => if t.phase = 1 then dfld raw 0x10 0 64 + r * ffXRow raw else dfld raw 0x30 0 64 + r * ffHRow raw
    let xs := rs.map (fun i => convRow (ffW raw) ((List.range k).map (fun e => vLoad v xel (xrow (r0 + i)) e)))
    runsOf (fs.flatMap (fun i =>
      let f := f0 + i
      let ws := bases.map (fun b => wElems raw v (b + f * wr) k)
      (rs.zip xs).map (fun x =>
        let r := r0 + x.1
        let g := rowDot x.2 (ws.getD 0 [])
        if t.phase = 1 then
          let h := pOp fMul (pOp (fun a _ => ffAct raw a) g g) (rowDot x.2 (ws.getD 1 []))
          elemRun (elOf (dfld raw 0x51 4 4)) (ncRnd nc base (r * ffFf raw + f)) (ncSat nc) (dfld raw 0x30 0 64 + r * ffHRow raw) f h
        else
          elemRun (elOf (dfld raw 0x51 0 4)) (ncRnd nc base (r * ffModel raw + f)) (ncSat nc) (dfld raw 0x38 0 64 + r * ffYRow raw) f g)))

/-! MOE_COMBINE (R143 to R145) -/

/-- Bytes of an expert output row. -/
def mcYRow (raw : Nat) : Nat := dfld raw 0x40 0 16 * fmtBytes (dfld raw 0x45 0 4)
/-- Bytes of a destination row. -/
def mcORow (raw : Nat) : Nat := dfld raw 0x40 0 16 * fmtBytes (dfld raw 0x45 4 4)
/-- top_k -/
def mcK (raw : Nat) : Nat := dfld raw 0x44 0 5

/-- A MOE_COMBINE is refused (R101, R143). -/
def badCombine (raw : Nat) : Bool :=
  [0x10, 0x28, 0x30].any (fun o => !pvaOk (dfld raw o 0 64) 64)
  || !pvaOk (dfld raw 0x18 0 64) 1 || !pvaOk (dfld raw 0x20 0 64) 1
  || dfld raw 0x38 0 32 == 0 || decide (65536 < dfld raw 0x38 0 32)
  || dfld raw 0x3C 0 32 == 0 || decide (65536 < dfld raw 0x3C 0 32)
  || dfld raw 0x42 0 9 == 0 || decide (256 < dfld raw 0x42 0 9) || dfld raw 0x42 9 7 != 0
  || mcK raw == 0 || decide (16 < mcK raw) || dfld raw 0x44 5 3 != 0
  || decide (2 < dfld raw 0x45 0 4) || decide (2 < dfld raw 0x45 4 4) || dfld raw 0x46 2 6 != 0
  || !numctlOk (dfld raw 0x47 0 8) || dfld raw 0x49 0 8 != 0 || decide (256 < dfld raw 0x4A 0 9) || dfld raw 0x4A 9 7 != 0
  || !dzero raw 0x4C 0x80
  || mcYRow raw % 64 != 0 || decide (65536 < mcYRow raw) || mcORow raw % 64 != 0 || decide (65536 < mcORow raw)

/-- The tile of a MOE_COMBINE that forms the rows of consecutive tokens. -/
def combineTile (raw : Nat) (ts : List Nat) : Tile :=
  let out := dfld raw 0x30 0 64
  let rb := mcORow raw
  let k := mcK raw
  let t0 := ts.headD 0
  let n := ts.length * k * 4
  let rows := ts.map (fun t => (out + t * rb, rb))
  { num := 0, anchor := out + t0 * rb,
    reads := [(dfld raw 0x18 0 64 + t0 * k * 4, n), (dfld raw 0x20 0 64 + t0 * k * 4, n), (dfld raw 0x28 0 64 + t0 * k * 4, n)],
    selfReads := if dbit raw 0x46 0 then rows else [], writes := rows, bytes := ts.length * rb, alen := ts.length * rb,
    arg := ts, phase := 1 }

/-- Tiles of a MOE_COMBINE: destination rows. -/
def tilesCombine (raw : Nat) : List Tile :=
  let out := dfld raw 0x30 0 64
  let rb := mcORow raw
  let toks := List.range (dfld raw 0x38 0 32)
  numberTiles ((dedupSort (toks.map (rowKey out rb))).map (fun key => combineTile raw (toks.filter (fun t => rowKey out rb t == key))))

/-- Choice number i: its entries of idx and pos, and whether they derive from poison. -/
def mcChoice (raw : Nat) (v : View) (i : Nat) : Nat × Nat × Bool :=
  let a := dfld raw 0x18 0 64 + 4 * i
  let b := dfld raw 0x20 0 64 + 4 * i
  (vNat v a 4, vNat v b 4, vPois v a 4 || vPois v b 4)

/-- The choices of a tile. -/
def mcChoices (raw : Nat) (t : Tile) : List Nat := t.arg.flatMap (fun k => (List.range (mcK raw)).map (fun c => k * mcK raw + c))

/-- The first entry of a tile that is out of range (R143). -/
def mcBad (raw : Nat) (t : Tile) (v : View) : Option Fin :=
  (mcChoices raw t).findSome? (fun i =>
    let x := mcChoice raw v i
    let a := dfld raw 0x18 0 64 + 4 * i
    let b := dfld raw 0x20 0 64 + 4 * i
    if !vPois v a 4 && x.1 != 0xFFFFFFFF && decide (dfld raw 0x42 0 9 ≤ x.1) then some (Fin.atPva .badDescriptor a)
    else if !vPois v b 4 && x.2.1 != 0xFFFFFFFF && decide (dfld raw 0x3C 0 32 ≤ x.2.1) then some (Fin.atPva .badDescriptor b)
    else none)

/-- A choice that is kept (R145). -/
def mcKept (x : Nat × Nat × Bool) : Bool := !x.2.2 && x.1 != 0xFFFFFFFF && x.2.1 != 0xFFFFFFFF

/-- Address of the expert output row of a choice. -/
def mcY (raw : Nat) (x : Nat × Nat × Bool) : Nat :=
  dfld raw 0x10 0 64 + (x.1 * dfld raw 0x3C 0 32 + x.2.1) * mcYRow raw

/-- What a tile of a MOE_COMBINE reads once its entries are known. -/
def moreCombine (raw : Nat) (t : Tile) (v : View) : List (Nat × Nat) :=
  ((mcChoices raw t).map (mcChoice raw v)).filterMap (fun x => if mcKept x then some (mcY raw x, mcYRow raw) else none)

/-- Compute one tile of a MOE_COMBINE (R145). -/
def computeCombine (raw : Nat) (t : Tile) (v : View) (base : Nat) : CompOut :=
  match mcBad raw t v with
  | some f => { compNone with stop := some f }
  | none =>
    let nc := dfld raw 0x47 0 8
    let dim := dfld raw 0x40 0 16
    let yel := elOf (dfld raw 0x45 0 4)
    let oel := elOf (dfld raw 0x45 4 4)
    runsOf (t.arg.flatMap (fun k =>
      let cs := (List.range (mcK raw)).map (fun c => k * mcK raw + c)
      let pois := cs.any (fun i => (mcChoice raw v i).2.2)
      let kept := cs.filter (fun i => mcKept (mcChoice raw v i))
      let gates := kept.map (fun i => vLoad v (.fl ffFp32) (dfld raw 0x28 0 64) i)
      let wsum := gates.tail.foldl (pOp fAdd) (gates.headD (pVal ⟨fpZero, 0⟩))
      let ws := if dbit raw 0x46 1 then gates.map (fun g => pOp fDiv g wsum) else gates
      (List.range dim).map (fun e =>
        let a0 := if dbit raw 0x46 0 then vLoad v oel (dfld raw 0x30 0 64 + k * mcORow raw) e else pVal ⟨fpZero, 0⟩
        let a := (kept.zip ws).foldl (fun a x =>
          pOp fAdd a (pOp fMul x.2 (vLoad v yel (mcY raw (mcChoice raw v x.1)) e))) a0
        elemRun oel (ncRnd nc base (k * dim + e)) (ncSat nc) (dfld raw 0x30 0 64 + k * mcORow raw) e ⟨a.x, a.p || pois⟩)))

/-! The descriptors of the XTU: PUBLISH and REVOKE (spec 02, spec 08) -/

/-- region_id -/
def pbRegion (raw : Nat) : Nat := dfld raw 0x10 0 32
/-- expected_version -/
def pbExpected (raw : Nat) : Nat := dfld raw 0x14 0 32
/-- set_ppa -/
def pbSet (raw : Nat) : Nat := dfld raw 0x18 0 56
/-- set_count -/
def pbCount (raw : Nat) : Nat := dfld raw 0x20 0 16
/-- drain -/
def pbDrain (raw : Nat) : Bool := dbit raw 0x22 0
/-- length -/
def pbLength (raw : Nat) : Nat := dfld raw 0x24 0 32

/-- check_common_fields beyond R59 (R451). -/
def badPublish (s : State) (raw : Nat) : Bool :=
  !hRsvZero raw || pbSet raw % 64 != 0 || ownerOf (pbSet raw) != regionHome (pbRegion raw) || decide (4096 < pbCount raw)
  || pbLength raw == 0 || decide (67108864 < pbLength raw) || (pbDrain raw && !feature s 14)
  || dfld raw 0x18 56 8 != 0 || dfld raw 0x22 1 15 != 0 || !dzero raw 0x28 0x40

/-- The pva of a REVOKE names a record's start. -/
def revPvaOk (pva : Nat) : Bool := decide (pva < 2 ^ 52) && pva % ellBytes == 0

/-- A REVOKE is refused (R189). -/
def badRevoke (raw : Nat) : Bool := !revPvaOk (dfld raw 0x10 0 64) || !dzero raw 0x18 0x40

/-! By operator code -/

/-- The operator's own layout is refused (spec 05, spec 06). -/
def opBad (s : State) (raw : Nat) : Bool :=
  match hOpcode raw with
  | 0x10 => badCopy2d raw | 0x11 => badFill raw | 0x12 => badGather raw | 0x13 => badScatter raw
  | 0x14 => badEmbed raw | 0x15 => badReduce raw | 0x16 => badAtomic raw | 0x17 => badQuantize s raw
  | 0x20 => badAttend raw | 0x21 => badMerge raw | 0x22 => badTopk raw | 0x28 => badDispatch raw
  | 0x29 => badFfn s raw | 0x2A => badCombine raw
  | 0x50 => badPublish s raw | 0x51 => badRevoke raw | 0x58 => badScrub raw | _ => false

/-- A limit of the pre-pass is passed before anything is read (R105). -/
def opPreLimit (raw : Nat) : Bool := (hOpcode raw == 0x12 || hOpcode raw == 0x13) && rowPreLimit raw

/-- What pass 0 or 1 of the pre-pass reads (R105, R123). -/
def opPreRanges (raw pass : Nat) (p : Pre) : List (Nat × Nat) :=
  match hOpcode raw, pass with
  | 0x12, 0 => rowPreRanges raw | 0x13, 0 => rowPreRanges raw
  | 0x14, 0 => [(dfld raw 0x20 0 64, 4 * (dfld raw 0x40 0 32 + 1))]
  | 0x14, _ => [(dfld raw 0x18 0 64, p.xs.getLastD 0 * (if dbit raw 0x44 0 then 8 else 4))]
  | 0x20, 0 => [(dfld raw 0x18 0 64, 16 * adSeqs raw)]
  | 0x20, _ => attendEntryRanges raw p
  | 0x21, 0 => [(dfld raw 0x10 0 64, 16 * amSrcs raw)]
  | 0x28, 0 => [(dfld raw 0x18 0 64, 4 * mdN raw)]
  | 0x29, 0 => [(dfld raw 0x40 0 64, 4)]
  | _, _ => []

/-- What pass 0 or 1 makes of what it read (R105, R123). -/
def opPreEval (raw pass : Nat) (p : Pre) (v : View) : Pre ⊕ Fin :=
  match hOpcode raw, pass with
  | 0x12, 0 => rowPre raw v | 0x13, 0 => rowPre raw v
  | 0x14, 0 => embedOffsets raw v | 0x14, _ => embedList raw p v
  | 0x20, 0 => attendRecs raw v | 0x20, _ => attendEntries raw p v
  | 0x21, 0 => mergePre raw v | 0x28, 0 => dispatchPre raw v
  | 0x29, 0 => .inl ⟨[min (vNat v (dfld raw 0x40 0 64) 4) (dfld raw 0x48 0 32)], []⟩
  | _, _ => .inl p

/-- The tiles of a descriptor (R80). -/
def opTiles (raw : Nat) (p : Pre) : List Tile :=
  match hOpcode raw with
  | 0x10 => tilesCopy2d raw | 0x11 => tilesFill raw | 0x12 => tilesGather raw p | 0x13 => tilesScatter raw p
  | 0x14 => tilesEmbed raw p | 0x15 => tilesReduce raw | 0x17 => tilesQuantize raw
  | 0x20 => tilesAttend raw p | 0x21 => tilesMerge raw p | 0x22 => tilesTopk raw | 0x28 => tilesDispatch raw p
  | 0x29 => tilesFfn raw p | 0x2A => tilesCombine raw
  | 0x16 =>
    [{ num := 0, anchor := dfld raw 0x10 0 64, reads := [], selfReads := [], writes := [(dfld raw 0x10 0 64, 8)],
       bytes := if dbit raw 0x30 4 then 8 else 0, alen := 8, arg := [], phase := 1 }]
  | _ => []

/-- What a tile reads once its first operands are known. -/
def opMore (raw : Nat) (t : Tile) (v : View) : List (Nat × Nat) :=
  if hOpcode raw = 0x2A ∧ (mcBad raw t v).isNone then moreCombine raw t v else []

/-- Step 4 of a tile (R81). -/
def opCompute (raw : Nat) (p : Pre) (t : Tile) (v : View) (base : Nat) : CompOut :=
  match hOpcode raw with
  | 0x10 => computeCopy2d raw t v | 0x11 => computeFill raw t | 0x12 => computeGather raw p t v
  | 0x13 => computeScatter raw p t v base | 0x14 => computeEmbed raw p t v | 0x15 => computeReduce raw t v base
  | 0x17 => computeQuantize raw t v base | 0x20 => computeAttend raw t v | 0x21 => computeMerge raw p t v base
  | 0x22 => computeTopk raw t v base | 0x28 => computeDispatch raw p t v | 0x29 => computeFfn raw t v base
  | 0x2A => computeCombine raw t v base | _ => compNone

/-- One of the tiles of a descriptor halved (R80); none for a single element. -/
def opSplit (raw : Nat) (p : Pre) (t : Tile) : Option (Tile × Tile) :=
  let a := t.arg
  match hOpcode raw with
  | 0x10 =>
    let unit := if copyWhole raw then 64 else 1
    let h := a.getD 1 0 / unit / 2 * unit
    if h = 0 then none else some (copyTile raw (a.getD 0 0) h, copyTile raw (a.getD 0 0 + h) (a.getD 1 0 - h))
  | 0x12 =>
    if a.headD 0 = 1 then (halves a.tail).map (fun h => (gatherZero raw h.1, gatherZero raw h.2))
    else (rowHalves p.xs a.tail).map (fun h => (gatherTile raw p h.1, gatherTile raw p h.2))
  | 0x13 => (rowHalves p.xs a).map (fun h => (scatterTile raw p h.1, scatterTile raw p h.2))
  | 0x14 => if a.headD 0 = 1 then none else (rowHalves p.ys a.tail).map (fun h => (embedTile raw p h.1, embedTile raw p h.2))
  | 0x15 =>
    let h := a.getD 1 0 / 2
    if h = 0 then none else some (reduceTile raw (a.getD 0 0) h, reduceTile raw (a.getD 0 0 + h) (a.getD 1 0 - h))
  | 0x21 =>
    let h := a.getD 1 0 / 2
    if h = 0 then none else some (mergeTile raw p (a.getD 0 0) h, mergeTile raw p (a.getD 0 0 + h) (a.getD 1 0 - h))
  | 0x28 =>
    if t.phase = 1 then (halves a).map (fun h => (dispatchTile raw p h.1, dispatchTile raw p h.2))
    else
      let n := a.getD 1 0
      let m := a.getD 3 0
      if n / 2 ≠ 0 then
        some (dispatchLast raw (a.getD 0 0) (n / 2) (a.getD 2 0) 0, dispatchLast raw (a.getD 0 0 + n / 2) (n - n / 2) (a.getD 2 0) m)
      else if m / 2 ≠ 0 then
        some (dispatchLast raw (a.getD 0 0) n (a.getD 2 0) (m / 2), dispatchLast raw (a.getD 0 0) 0 (a.getD 2 0 + m / 2) (m - m / 2))
      else none
  | 0x29 =>
    let g := (a.getD 0 0, a.getD 1 0)
    let b := (a.getD 2 0, a.getD 3 0)
    if b.2 / 2 ≠ 0 then some (ffnTile raw t.phase g (b.1, b.2 / 2), ffnTile raw t.phase g (b.1 + b.2 / 2, b.2 - b.2 / 2))
    else if g.2 / 2 ≠ 0 then some (ffnTile raw t.phase (g.1, g.2 / 2) b, ffnTile raw t.phase (g.1 + g.2 / 2, g.2 - g.2 / 2) b)
    else none
  | 0x2A => (halves a).map (fun h => (combineTile raw h.1, combineTile raw h.2))
  | _ => none

/-- The part of a tile at a path: 1 the whole, 2q and 2q + 1 the halves of path q (R80), with fuel. -/
def atPath (raw : Nat) (p : Pre) (t : Tile) : Nat → Nat → Option Tile
  | 0, _ => none
  | n + 1, q =>
    if q ≤ 1 then some t
    else ((atPath raw p t n (q / 2)).bind (opSplit raw p)).map (fun h => if q % 2 = 0 then h.1 else h.2)

/-- The parts of a tile, with their paths, of which none is too wide; none where a single element is (R80). -/
def splitTile (raw : Nat) (p : Pre) (wide : Tile → Bool) : Nat → Nat → Tile → Option (List (Nat × Tile))
  | 0, _, _ => none
  | n + 1, q, t =>
    if !wide t then some [(q, t)]
    else match opSplit raw p t with
      | none => none
      | some h =>
        match splitTile raw p wide n (2 * q) h.1, splitTile raw p wide n (2 * q + 1) h.2 with
        | some a, some b => some (a ++ b)
        | _, _ => none

/-- Fuel for the halves of one tile. -/
def splitFuel : Nat := 64

/-- Destination operands of a descriptor (R103). -/
def opDests (raw : Nat) (p : Pre) : List (Nat × Nat) :=
  match hOpcode raw with
  | 0x12 => [(dfld raw 0x20 0 64, p.xs.length * dfld raw 0x30 0 32)]
  | 0x13 => [(dfld raw 0x10 0 64, dfld raw 0x28 0 32 * dfld raw 0x30 0 32)]
  | 0x14 => [(dfld raw 0x30 0 64, dfld raw 0x40 0 32 * ebOut raw)]
  | 0x15 => if dbit raw 0x1C 6 then [] else [(dfld raw 0x10 0 64, dfld raw 0x18 0 32 * rdDstW raw)]
  | 0x17 => [(dfld raw 0x18 0 64, dfld raw 0x30 0 32 * fmtBits (dfld raw 0x34 4 4) / 8)]
      ++ (if fmtMx (dfld raw 0x34 4 4) then [(dfld raw 0x28 0 64, dfld raw 0x30 0 32 / 32)] else [])
  | 0x20 => (dfld raw 0x30 0 64, adSeqs raw * adORow raw) :: (if adLse raw then [(dfld raw 0x38 0 64, adSeqs raw * adQ raw * 4)] else [])
  | 0x21 => (dfld raw 0x18 0 64, amSeqs raw * amHeads raw * amDim raw * fmtBytes (dfld raw 0x2E 4 4))
      :: (if amLse raw then [(dfld raw 0x20 0 64, amSeqs raw * amHeads raw * 4)] else [])
  | 0x22 => [(dfld raw 0x18 0 64, tkRows raw * tkK raw * tkVw raw), (dfld raw 0x20 0 64, tkRows raw * tkK raw * 4)]
  | 0x28 => [(dfld raw 0x20 0 64, dfld raw 0x42 0 9 * dfld raw 0x3C 0 32 * mdRow raw), (dfld raw 0x28 0 64, 4 * dfld raw 0x42 0 9),
      (dfld raw 0x30 0 64, 4 * mdN raw)]
  | 0x29 => [(dfld raw 0x30 0 64, p.xs.headD 0 * ffHRow raw), (dfld raw 0x38 0 64, p.xs.headD 0 * ffYRow raw)]
  | 0x2A => [(dfld raw 0x30 0 64, dfld raw 0x38 0 32 * mcORow raw)]
  | _ => []

/-- Source operands, lists included, of a descriptor (R103). -/
def opSrcs (raw : Nat) (p : Pre) : List (Nat × Nat) :=
  let list := if hOpcode raw = 0x12 ∨ hOpcode raw = 0x13 then rowPreRanges raw else []
  list ++ match hOpcode raw with
  | 0x12 => [(dfld raw 0x10 0 64, dfld raw 0x28 0 32 * dfld raw 0x30 0 32)]
  | 0x13 => [(dfld raw 0x20 0 64, p.xs.length * dfld raw 0x30 0 32)]
  | 0x14 => [(dfld raw 0x10 0 64, dfld raw 0x38 0 32 * ebRow raw), (dfld raw 0x20 0 64, 4 * (dfld raw 0x40 0 32 + 1)),
      (dfld raw 0x18 0 64, p.ys.length * (if dbit raw 0x44 0 then 8 else 4))]
      ++ (if dbit raw 0x44 4 then [(dfld raw 0x28 0 64, 4 * p.ys.length)] else [])
  | 0x15 => (List.range (dfld raw 0x1C 0 4)).map (fun k => (rdSrc raw k, dfld raw 0x18 0 32 * rdSrcW raw))
  | 0x17 => [(dfld raw 0x10 0 64, dfld raw 0x30 0 32 * fmtBits (dfld raw 0x34 0 4) / 8)]
      ++ (if fmtMx (dfld raw 0x34 0 4) then [(dfld raw 0x20 0 64, dfld raw 0x30 0 32 / 32)] else [])
  | 0x20 => [(dfld raw 0x10 0 64, adSeqs raw * adQRow raw), (dfld raw 0x18 0 64, 16 * adSeqs raw),
      (dfld raw 0x28 0 64, dfld raw 0x44 0 32 * adPage raw)]
      ++ ((List.range (adSeqs raw)).map (fun j =>
        (dfld raw 0x20 0 64 + 4 * ((adRec p j).2.2 + (adRec p j).1 / adTok raw), 4 * recEntries (adTok raw) (adRec p j).1 (adRec p j).2.1)))
  | 0x21 => (dfld raw 0x10 0 64, 16 * amSrcs raw)
      :: (p.xs.map (fun a => (a, amSeqs raw * amHeads raw * amDim raw * fmtBytes (dfld raw 0x2E 0 4)))
        ++ p.ys.map (fun a => (a, amSeqs raw * amHeads raw * 4)))
  | 0x22 => [(dfld raw 0x10 0 64, tkRows raw * tkLen raw * tkW raw)]
  | 0x28 => [(dfld raw 0x10 0 64, dfld raw 0x38 0 32 * mdRow raw), (dfld raw 0x18 0 64, 4 * mdN raw)]
  | 0x29 => [(dfld raw 0x10 0 64, p.xs.headD 0 * ffXRow raw), (dfld raw 0x40 0 64, 4),
      (dfld raw 0x18 0 64, ffFf raw * wrow (ffW raw) (ffSparse raw) (ffModel raw)),
      (dfld raw 0x20 0 64, ffFf raw * wrow (ffW raw) (ffSparse raw) (ffModel raw)),
      (dfld raw 0x28 0 64, ffModel raw * wrow (ffW raw) (ffSparse raw) (ffFf raw))]
  | 0x2A => [(dfld raw 0x10 0 64, dfld raw 0x42 0 9 * dfld raw 0x3C 0 32 * mcYRow raw),
      (dfld raw 0x18 0 64, 4 * dfld raw 0x38 0 32 * mcK raw), (dfld raw 0x20 0 64, 4 * dfld raw 0x38 0 32 * mcK raw),
      (dfld raw 0x28 0 64, 4 * dfld raw 0x38 0 32 * mcK raw)]
  | _ => []

/-- A destination overlaps a source or list of the same descriptor: its contents are undefined (R103). -/
def opOverlap (raw : Nat) (p : Pre) : Bool :=
  if hOpcode raw = 0x10 then copyOverlap raw else (opDests raw p).any (fun d => (opSrcs raw p).any (overlaps d))

/-- Results whose contents are undefined: every byte is free (R103, log 131). -/
def freeOut (out : CompOut) (base : Nat) : CompOut :=
  let bs := fun (at' n : Nat) => (List.range n).map (fun i => Config.freeByte (base + at' * 2 ^ 17 + i))
  { out with runs := (out.runs.zipIdx).map (fun r => { r.1 with data := bs r.2 r.1.data.length }),
             grans := (out.grans.zipIdx).map (fun g => (g.1.1, if g.1.2.poison then g.1.2 else freshGran (bs (2 ^ 23 + g.2) 64))) }

/-- Ranges of which a descriptor rewrites every byte while its tiles share granules (R124): what stood there before does not matter. -/
def opWhole (raw : Nat) (p : Pre) : List (Nat × Nat) :=
  if hOpcode raw = 0x29 then opDests raw p
  else if hOpcode raw = 0x21 ∧ amLse raw = true then [(dfld raw 0x20 0 64, amSeqs raw * amHeads raw * 4)]
  else if hOpcode raw = 0x20 ∧ adLse raw = true then [(dfld raw 0x38 0 64, adSeqs raw * adQ raw * 4)]
  else if hOpcode raw = 0x28 then [(dfld raw 0x28 0 64, 4 * dfld raw 0x42 0 9), (dfld raw 0x30 0 64, 4 * mdN raw)]
  else if hOpcode raw = 0x10 ∧ (c2DstLines raw = 1 ∨ c2DstStride raw = c2DstLine raw) then [(c2Dst raw, c2Total raw)]
  else if hOpcode raw = 0x15 ∧ dbit raw 0x1C 6 = false then opDests raw p
  else if hOpcode raw = 0x17 ∨ hOpcode raw = 0x2A ∧ dbit raw 0x46 0 = false then opDests raw p
  else []

/-- The tiles that contribute to a unit of output combined from partial states. -/
def unitTiles (raw : Nat) (p : Pre) (ts : List Tile) (u : Nat) : List Nat :=
  (ts.filter (fun t =>
    match hOpcode raw with
    | 0x14 => if t.arg.headD 0 = 1 then t.arg.getD 1 0 == u else t.arg.tail.any (fun k => bagOf p k == u)
    | 0x20 => t.arg.headD 0 == u
    | 0x22 => t.arg.headD 0 == 1 && t.arg.getD 1 0 == u
    | _ => false)).map (·.num)

/-- The output of a unit from its partial states, in the order they arrived. -/
def unitFinish (raw u : Nat) (parts : List Part) (base : Nat) : CompOut :=
  match hOpcode raw with
  | 0x14 => finishEmbed raw u parts base
  | 0x20 => finishAttend raw u parts base
  | 0x22 => finishTopk raw u parts base
  | _ => compNone

/-- Result bytes of a unit. -/
def unitBytes (raw u : Nat) : Nat :=
  match hOpcode raw with
  | 0x14 => ebOut raw | 0x20 => adORow raw | 0x22 => tkBytes raw u | _ => 0

/-- Ranges that a unit writes. -/
def unitWrites (raw u : Nat) : List (Nat × Nat) :=
  match hOpcode raw with
  | 0x14 => [(dfld raw 0x30 0 64 + u * ebOut raw, ebOut raw)]
  | 0x20 => (dfld raw 0x30 0 64 + u * adORow raw, adORow raw)
      :: (if adLse raw then [(dfld raw 0x38 0 64 + u * adQ raw * 4, adQ raw * 4)] else [])
  | 0x22 => tkWrites raw u
  | _ => []

/-- Total result bytes of a descriptor (R98, R109 to R145). -/
def opTotal (raw : Nat) (p : Pre) : Nat :=
  match hOpcode raw with
  | 0x10 => c2Total raw
  | 0x14 => dfld raw 0x40 0 32 * ebOut raw
  | 0x20 => adSeqs raw * adORow raw
  | 0x22 => tkRows raw * tkK raw * (tkVw raw + 4)
  | 0x58 => 64
  | _ => ((opTiles raw p).map (·.bytes)).sum

/-- The hint of a descriptor that ends DONE. -/
def opHint (raw : Nat) (p : Pre) : Nat :=
  if hOpcode raw = 0x28 then min (mdDropped p) 0xFFFFFFFF else if hOpcode raw = 0x16 then p.ys.headD 0 else 0

/-- Values that a producer writes to its slots when it completes (R136, R139, R141). -/
def slotValues (raw : Nat) (p : Pre) : List Nat :=
  match hOpcode raw with
  | 0x22 => [tkRows raw]
  | 0x29 => [p.xs.headD 0]
  | 0x28 => (List.range (dfld raw 0x42 0 9)).map (mdCount p)
  | _ => []

/-- The numeric control byte of an operator (R100). -/
def opNumctl (raw : Nat) : Nat :=
  match hOpcode raw with
  | 0x13 => dfld raw 0x35 0 8 | 0x14 => dfld raw 0x46 0 8 | 0x15 => dfld raw 0x1E 0 8 | 0x17 => dfld raw 0x35 0 8
  | 0x20 => dfld raw 0x4E 0 8 | 0x21 => dfld raw 0x2F 0 8 | 0x22 => dfld raw 0x34 0 8 | 0x29 => dfld raw 0x53 0 8
  | 0x2A => dfld raw 0x47 0 8 | _ => 0

/-- The rights a tile's destination pages need (R34, R114, R117, R140). -/
def writeNeeds (raw : Nat) : List Need :=
  match hOpcode raw with
  | 0x13 => [.rmw] | 0x16 => [.rmw] | 0x29 => [.rd, .wr] | _ => [.wr]

/-- The right a tile needs to read its own destination. -/
def selfNeed (raw : Nat) : Need := if hOpcode raw = 0x13 ∨ hOpcode raw = 0x16 then .rmw else .rd

end Sys2Proof.Machine
end

