-- ==== Sys2Proof/Machine/Sample.lean ====
section
/-!
DEFINITION. Machine/Sample.lean: sampling of requests and descriptors (spec 20 R426, R427).
-/
namespace Sys2Proof.Machine
open Sys2Proof

/-- Nanoseconds since T0 (R418, R420). -/
def sinceT0 (s : State) : Nat := s.nowNs - s.dev.t0

/-- The sample ring (R427). -/
def ringSamp : Ring := ⟨Reg.telSampBase_base, Reg.telSampCtl_log2_entries, Reg.telSampOvf_count, 128, .deviceIfReserved⟩

/-- The counts of the dump ring are kept under this ring; its slots and place are its own (R424). -/
def ringDump : Ring := ⟨Reg.telDumpBase_base, Reg.telDumpCtl_log2_slots, Reg.telDumpOvf_count, 0, .deviceIfReserved⟩

/-- The draw at an entry point (R426): the generator's values are free (log 2). A hidden item takes part and its tag is discarded
(R422). -/
def sampleDraw (s : State) (t : TelTag) : State :=
  if !getB s Reg.telSampCtl_en then s
  else
    let r := fresh s
    if r.1 % 2 ^ clamp 4 24 (getF s Reg.telSampCtl_k) ≠ 0 || t.attr.hidden then r.2
    else if 256 ≤ s.tel.tags.length then bumpSat r.2 Reg.telSampSkip_count
    else { r.2 with tel := { r.2.tel with tags := r.2.tel.tags ++ [{ t with t0 := sinceT0 s, stamps := [] }] } }

/-- Change the tag of an item. -/
def modTag (s : State) (desc : Bool) (id : Nat) (f : TelTag → TelTag) : State :=
  { s with tel := { s.tel with tags := s.tel.tags.map (fun t => if t.desc == desc && t.id == id then f t else t) } }

/-- Stamp k of an item: the first time it is reached, or with `last` the last time (R427). -/
def sampleStamp (s : State) (desc : Bool) (id k : Nat) (last : Bool := false) : State :=
  modTag s desc id (fun t =>
    if (nfind t.stamps k).isSome && !last then t else { t with stamps := nput t.stamps k (sinceT0 s - t.t0) })

/-- An item is translated to a PPA under a key_tenant: stamp 4; a confidential key_tenant discards the tag (R422). -/
def sampleXlate (s : State) (desc : Bool) (id ppa key : Nat) : State :=
  let s := sampleStamp s desc id 4
  if getB s Reg.xtuTenant0_confidential key then
    { s with tel := { s.tel with tags := s.tel.tags.filter (fun t => !(t.desc == desc && t.id == id)) } }
  else modTag s desc id (fun t => if t.attr.ppa.isSome then t else { t with addr := ppa, attr := { t.attr with ppa := some ppa } })

/-- The 128 bytes of a sample record (R427). The word of a stamp that was not reached is free. -/
def sampleRecord (t : TelTag) (st cls fathom : Nat) (s : State) : List Byte × State :=
  let w := (List.range 11).foldl (fun (a : List Byte × State) i =>
    match nfind t.stamps (i + 1) with
    | some v => (a.1 ++ natToLe 4 v, a.2)
    | none => let r := freshBytes 4 a.2; (a.1 ++ r.1, r.2)) ([], s)
  let valid := t.stamps.foldl (fun m e => m + 2 ^ e.1) 1
  (natToLe 4 (t.attr.tenant % 4096 + t.job % 4096 * 2 ^ 12 + t.kind % 256 * 2 ^ 24) ++ natToLe 4 (t.reqId % 2 ^ 24 + st % 256 * 2 ^ 24)
    ++ natToLe 8 (t.addr % 2 ^ 56 + cls % 4 * 2 ^ 56 + fathom % 16 * 2 ^ 58 + b2n t.fwd * 2 ^ 62 + b2n t.desc * 2 ^ 63)
    ++ natToLe 8 t.t0 ++ w.1 ++ natToLe 4 (valid % 4096 + t.source % 65536 * 2 ^ 16) ++ natToLe 56 0, w.2)

/-- An item's record is finished at stamp 11: it is written if it matches the filter set of TEL_SAMP_CTL (R427). -/
def sampleEnd (s : State) (desc : Bool) (id st cls fathom : Nat) : State :=
  let s := sampleStamp s desc id 11
  match s.tel.tags.find? (fun t => t.desc == desc && t.id == id) with
  | none => s
  | some t =>
    let s := { s with tel := { s.tel with tags := s.tel.tags.filter (fun t => !(t.desc == desc && t.id == id)) } }
    if telMatches s (getF s Reg.telSampCtl_filter) t.attr then
      let r := sampleRecord t st cls fathom s
      ringPush r.2 ringSamp (fun _ => r.1)
    else s

/-- The number under which a request is tagged: its tenant, request ID and source. -/
def reqTag (p : Pkt) : Nat := (p.tenant * 2 ^ 24 + p.reqId) * 2 ^ 14 + p.src

/-- A request is stamped. -/
def stampReq (s : State) (p : Pkt) (k : Nat) : State := if p.isPpa then s else sampleStamp s false (reqTag p) k (k == 7)

/-- The draw for a request at its entry node (R426): `port` 12 and above stand for HIF's function PF1. -/
def drawReq (s : State) (port : Nat) (p : Pkt) : State :=
  let cls := if p.ptype = 1 then 0 else if p.ptype = 2 then 1 else if p.ptype = 3 then 2 else 3
  let a : TelAttr := ⟨0, if port < 12 then 2 else 1, cls, p.tenant, none, getB s Reg.xtuTenant0_confidential p.tenant⟩
  sampleDraw s { desc := false, id := reqTag p, attr := a, job := p.job, kind := p.ptype, reqId := p.reqId, addr := p.addr, fwd := false,
                 source := if port < 12 then port else 0x101, t0 := 0, stamps := [] }

/-- A request ends with a response of this node. -/
def endReq (s : State) (p : Pkt) (st cls fathom : Nat) : State :=
  if p.isPpa then s else sampleEnd s false (reqTag p) st cls fathom

/-- The draw for a descriptor at its fetch (R426). -/
def drawDesc (s : State) (d : Desc) : State :=
  let a : TelAttr := ⟨0, 7, 4, d.tenant, none, getB s Reg.xtuTenant0_confidential d.tenant⟩
  sampleDraw s { desc := true, id := d.uid, attr := a, job := 0, kind := d.opcode, reqId := d.reqId, addr := d.raw / 2 ^ 128 % 2 ^ 56, fwd := false,
                 source := d.queue, t0 := 0, stamps := [] }

/-- The first translation of a map counts as the item's (R427). -/
def sampleFirst (s : State) (desc : Bool) (id : Nat) (xl : NMap Xl) : State :=
  xl.foldl (fun s e => sampleXlate s desc id e.2.ppa e.2.keyTenant) s

end Sys2Proof.Machine
end

