-- ==== Sys2Proof/Machine/Packet.lean ====
section
/-!
DEFINITION. Machine/Packet.lean: the fabric packet header (spec 14 R302, R303), the table of packet types (R304), and the
injection of packets by the node's own units.
-/
namespace Sys2Proof.Machine
open Sys2Proof

/-- Header word 0x00 (R302). -/
def hdr0 (p : Pkt) : Nat :=
  p.dst % 2 ^ 14 + p.src % 2 ^ 14 * 2 ^ 14 + p.job % 2 ^ 12 * 2 ^ 28 + p.tenant % 2 ^ 12 * 2 ^ 40
    + p.ptype % 2 ^ 8 * 2 ^ 52 + p.vc % 8 * 2 ^ 60 + b2n p.epoch * 2 ^ 63
/-- Header word 0x08 (R302). -/
def hdr1 (p : Pkt) : Nat :=
  p.flow % 2 ^ 16 + p.seq % 2 ^ 16 * 2 ^ 16 + p.reqId % 2 ^ 24 * 2 ^ 32 + p.length % 2 ^ 8 * 2 ^ 56
/-- Header word 0x10 (R302); the low two bits of `rsv` are bits [63:62]. -/
def hdr2 (p : Pkt) : Nat :=
  p.addr % 2 ^ 56 + p.admClass % 4 * 2 ^ 56 + p.fathom % 16 * 2 ^ 58 + p.rsv % 4 * 2 ^ 62
/-- Header bits [47:0] of word 0x18 (R302); bits 2 and up of `rsv` are bits [47:37]. -/
def hdr3 (p : Pkt) : Nat :=
  p.icls % 4 + b2n p.affEn * 4 + p.affStack % 16 * 8 + p.keyTenant % 2 ^ 12 * 2 ^ 7 + b2n p.isPpa * 2 ^ 19
    + p.hops % 2 ^ 8 * 2 ^ 20 + p.status % 2 ^ 8 * 2 ^ 28 + b2n p.dstRank * 2 ^ 36 + p.rsv / 4 % 2 ^ 11 * 2 ^ 37

/-- Header bytes 0x00 to 0x1D, which hcrc covers (R303). -/
def hdrBytes (p : Pkt) : List Byte :=
  natToLe 8 (hdr0 p) ++ natToLe 8 (hdr1 p) ++ natToLe 8 (hdr2 p) ++ natToLe 6 (hdr3 p)

/-- The header CRC (R303). -/
def hcrcOf (p : Pkt) : Nat := crc16 (hdrBytes p)

/-- The packet with its header CRC recomputed (R303). -/
def sealHdr (p : Pkt) : Pkt := { p with hcrc := hcrcOf p }

/-! Packet types (R304) -/

/-- What the table of packet types fixes: the channel, the DATA flit range and whether only SR2s send it. -/
structure PktRow where
  ptype : Nat
  vc : Nat
  lo : Nat
  hi : Nat
  sr2 : Bool
deriving DecidableEq, Repr

/-- The packet types of R304; the coherence types 0x40 to 0x4F follow R264. -/
def pktTable : List PktRow :=
  [⟨0x01, 0, 0, 0, false⟩, ⟨0x02, 0, 1, 128, false⟩, ⟨0x03, 0, 0, 0, false⟩, ⟨0x04, 0, 0, 0, false⟩,
   ⟨0x05, 0, 1, 128, true⟩, ⟨0x06, 0, 1, 1, true⟩, ⟨0x07, 0, 0, 0, true⟩,
   ⟨0x81, 1, 0, 128, false⟩, ⟨0x82, 1, 0, 0, false⟩, ⟨0x83, 1, 0, 0, false⟩, ⟨0x85, 1, 0, 128, true⟩,
   ⟨0x86, 1, 0, 0, true⟩, ⟨0x87, 1, 1, 128, true⟩, ⟨0x8F, 1, 0, 0, false⟩,
   ⟨0xC0, 4, 0, 0, false⟩, ⟨0xC1, 4, 0, 0, false⟩, ⟨0xC2, 4, 0, 0, false⟩, ⟨0xC3, 4, 0, 0, false⟩,
   ⟨0xC4, 4, 0, 0, true⟩, ⟨0xC5, 4, 0, 0, true⟩]

/-- Response fields of a body (R304). -/
def rspBody (bytesDone hint faultAddr faultKind value : Nat) : Nat :=
  bytesDone % 2 ^ 32 + hint % 2 ^ 32 * 2 ^ 32 + faultAddr % 2 ^ 56 * 2 ^ 64 + faultKind % 16 * 2 ^ 120
    + value % 2 ^ 64 * 2 ^ 128

/-- A packet of this node with everything not named zero. -/
def pkt0 (s : State) (dst ptype vc : Nat) : Pkt :=
  { dst := dst, src := s.dev.node, job := 0, tenant := 0, ptype := ptype, vc := vc, epoch := false, flow := 0, seq := 0,
    reqId := 0, length := 0, addr := 0, admClass := 0, fathom := 0, icls := 0, affEn := false, affStack := 0,
    keyTenant := 0, isPpa := false, hops := 0, status := 0, dstRank := false, rsv := 0, hcrc := 0, body := 0, data := [] }

/-- A packet waits in the input region of the west internal port (R305: packets with no target on a die use the west one). -/
def enterWest (s : State) (p : Pkt) : State :=
  let k := 12 * 8 + p.vc
  let r : RtrPkt := ⟨s.rtr.nextId, p, none, 0, 12, false, s.nowNs, 0⟩
  { s with rtr := { s.rtr with inq := nset [] s.rtr.inq k (ngetD [] s.rtr.inq k ++ [r]), nextId := s.rtr.nextId + 1 } }

/-- Inject a packet: it takes the injection epoch (R311), its length and its header CRC, and enters by the west internal port. -/
def inject (s : State) (p : Pkt) : State :=
  enterWest s (sealHdr { p with epoch := getB s Reg.routerEpoch_inject_epoch, length := p.data.length })

/-- The response type that matches a request type (R445). -/
def rspType (ptype : Nat) : Nat :=
  if ptype = 0x01 then 0x81 else if ptype = 0x02 then 0x82 else if ptype = 0x03 then 0x83
  else if ptype = 0x05 then 0x85 else if ptype = 0x06 then 0x86 else if ptype = 0x07 then 0x87 else 0x8F

/-- This node's Fathom level (spec 15 R331). -/
def fathomNow (s : State) : Nat := getF s Reg.admFathom_level

/-- A response of this node to request p (R304, R445). -/
def response (s : State) (p : Pkt) (ptype cls : Nat) (f : Fin) (bytesDone value : Nat) (data : List Gran) : Pkt :=
  { pkt0 s p.src ptype 1 with
    job := p.job, tenant := p.tenant, reqId := p.reqId, admClass := cls, fathom := fathomNow s,
    flow := p.flow, seq := p.seq, status := f.st.code, body := rspBody bytesDone f.hint f.addr f.kind.code value,
    data := data }

/-- ERR_RSP to a request that fails before service (R445). -/
def errRsp (s : State) (p : Pkt) (cls : Nat) (f : Fin) : State :=
  endReq (inject s (response s p 0x8F cls f 0 0 [])) p f.st.code cls (fathomNow s)

end Sys2Proof.Machine
end

