-- ==== Sys2Proof/Machine/Queues.lean ====
section
/-!
DEFINITION. Machine/Queues.lean: queue contexts, doorbells, completion records, interrupts, predicate slots and the queue
commands (spec 03).
-/
namespace Sys2Proof.Machine
open Sys2Proof

/-! Contexts (R51) -/

/-- A 64-byte context as fields (R51). -/
def parseCtx (v : Nat) : QCtx :=
  { state := bitsOf v 0 2, sqHost := bitOf v 2, cqHost := bitOf v 3, sqLog2 := bitsOf v 4 5, cqLog2 := bitsOf v 9 5,
    tenant := bitsOf v 14 12, qprio := bitsOf v 28 2, predCount := bitsOf v 32 9, predBase := bitsOf v 48 16,
    sqBase := bitsOf v 64 64, cqBase := bitsOf v 128 64, pasid := bitsOf v 192 20, intMode := bitsOf v 224 2,
    intVector := bitsOf v 226 11, modCount := bitsOf v 240 8, modTime := bitsOf v 256 10, notifyNode := bitsOf v 272 14,
    sqTail := bitsOf v 288 32, sqHead := bitsOf v 320 32, cqTail := bitsOf v 352 32, cqHead := bitsOf v 384 32,
    inflight := bitsOf v 416 17, errCause := bitsOf v 448 8,
    rsv := bitsOf v 26 2 ≠ 0 || bitsOf v 30 2 ≠ 0 || bitsOf v 41 7 ≠ 0 || bitsOf v 212 12 ≠ 0 || bitsOf v 237 3 ≠ 0
      || bitsOf v 248 8 ≠ 0 || bitsOf v 266 6 ≠ 0 || bitsOf v 286 2 ≠ 0 || bitsOf v 433 15 ≠ 0 || bitsOf v 456 56 ≠ 0 }

/-- Fields as a 64-byte context (R51); reserved bits are zero. -/
def ctxNat (c : QCtx) : Nat :=
  [(c.state, 0, 2), (b2n c.sqHost, 2, 1), (b2n c.cqHost, 3, 1), (c.sqLog2, 4, 5), (c.cqLog2, 9, 5), (c.tenant, 14, 12),
   (c.qprio, 28, 2), (c.predCount, 32, 9), (c.predBase, 48, 16), (c.sqBase, 64, 64), (c.cqBase, 128, 64), (c.pasid, 192, 20),
   (c.intMode, 224, 2), (c.intVector, 226, 11), (c.modCount, 240, 8), (c.modTime, 256, 10), (c.notifyNode, 272, 14),
   (c.sqTail, 288, 32), (c.sqHead, 320, 32), (c.cqTail, 352, 32), (c.cqHead, 384, 32), (c.inflight, 416, 17),
   (c.errCause, 448, 8)].foldl (fun a x => a + x.1 % 2 ^ x.2.2 * 2 ^ x.2.1) 0

/-- PPA of queue q's context (R51). -/
def ctxPpa (s : State) (q : Nat) : Nat := getF s Reg.qmgQctxBase_base + q * 64

/-- Read a context under the device slot (R444). A context that was lost is what QMG keeps of it (R72). -/
def readCtx (s : State) (q : Nat) : QCtx × HwErr × State :=
  match nfind s.qmg.lost q with
  | some c => (c, .none, s)
  | none =>
    let r := hwRead s .device (ctxPpa s q) 64
    (parseCtx (leToNat r.1), r.2.1, r.2.2)

/-- The context of queue q. -/
def ctxOf (s : State) (q : Nat) : QCtx := (readCtx s q).1

/-- A queue's context lies on memory that is lost for good (R256). -/
def ctxGone (s : State) (q : Nat) : Bool :=
  match hwLocate s (localOf (ctxPpa s q)) with
  | some p => isLost s p
  | none => false

/-- Write a context; the queues that are not DISABLED are kept in a list. A context that was lost, or that lies on lost memory, stays with
QMG (R72). -/
def putCtx (s : State) (q : Nat) (c : QCtx) : State :=
  let gone := (nfind s.qmg.lost q).isSome || ctxGone s q
  let s := if gone then s else hwWrite s .device (ctxPpa s q) (natToLe 64 (ctxNat c))
  let rest := s.qmg.live.filter (fun x => x ≠ q)
  { s with qmg := { s.qmg with
      live := if c.state = 0 then rest else rest ++ [q]
      tenantOf := nput s.qmg.tenantOf q c.tenant
      lost := if gone then nput s.qmg.lost q c else s.qmg.lost } }

/-- Change fields of a context. -/
def modCtx (s : State) (q : Nat) (f : QCtx → QCtx) : State :=
  let r := readCtx s q
  putCtx r.2.2 q (f r.1)

/-- The function that owns queue q's doorbell page: PF1 is 1, virtual function v is 2 + v; PF1 serves pages owned by the fabric
or by none (R336). -/
def fnOf (s : State) (q : Nat) : Nat :=
  if getF s Reg.qmgDbpage_owner (q / 64) = 2 then 2 + getF s Reg.qmgDbpage_vf (q / 64) else 1

/-- Entries of the MSI-X table of the owner of queue q's page (R335, R336). -/
def msixSize (s : State) (q : Nat) : Nat :=
  if getF s Reg.qmgDbpage_owner (q / 64) = 1 then 2048 else if getF s Reg.qmgDbpage_owner (q / 64) = 2 then 64 else 0

/-- An error logged in the AER status of a function (R346). -/
def aerNote (s : State) (fn : Nat) (e : AerErr) : State :=
  if s.hif.aer.contains (fn, e) then s else { s with hif := { s.hif with aer := s.hif.aer ++ [(fn, e)] } }

/-- A function can reach the host: it exists, the link is up and it is not in D3hot (spec 16 R334, R342, R343). -/
def hostUp (s : State) (fn : Nat) : Bool :=
  s.hif.linkUp && !(s.hif.d3.contains fn) && (decide (fn < 2) || decide (fn - 2 < s.hif.vfs))

/-- A ring base is aligned and, in the pool, names this node (R51, R52). -/
def ringBaseOk (s : State) (host : Bool) (base : Nat) : Bool :=
  if host then base % 4096 == 0 else decide (base < 2 ^ 56) && base % 64 == 0 && ownerOf base == s.dev.node

/-- A context passes R52. -/
def ctxOk (s : State) (q : Nat) (c : QCtx) : Bool :=
  !c.rsv && decide (4 ≤ c.sqLog2) && decide (c.sqLog2 ≤ 16) && decide (4 ≤ c.cqLog2) && decide (c.cqLog2 ≤ 16)
  && decide (c.predCount ≤ 256) && decide (c.predBase + c.predCount ≤ 65536)
  && ringBaseOk s c.sqHost c.sqBase && ringBaseOk s c.cqHost c.cqBase && c.intMode ≠ 3
  && !(c.intMode == 1 && decide (msixSize s q ≤ c.intVector))

/-! Errors (R72, R448) -/

/-- An entry of the QMG error ring (R442). -/
def logQmg (s : State) (cause q fn lost : Nat) (tenant : Option Nat) : State :=
  logErr s ringQmg cause ⟨tenant, 0, q, q / 64 + fn % 128 * 1024 + min lost 0xFFFFFF * 2 ^ 32, 0⟩

/-- A cause of R72 on a queue: ERROR from ENABLED or ERROR; DISABLING and DISABLED keep their state (R448). -/
def queueError (s : State) (q cause fn lost : Nat) : State :=
  let r := readCtx s q
  let c := r.1
  let s := putCtx r.2.2 q { c with state := if c.state = 1 ∨ c.state = 2 then 2 else c.state, errCause := cause }
  logQmg s cause q fn lost (some c.tenant)

/-- A context that was never written. -/
def ctx0 : QCtx := parseCtx 0

/-- A context that cannot be read is lost: QMG keeps the queue in ERROR, or DISABLED where it was, with cause 0x05 (R72, R448). -/
def markLost (s : State) (q : Nat) : State :=
  let t := ngetD 0 s.qmg.tenantOf q
  let st := if s.qmg.live.contains q then 2 else 0
  logQmg { s with qmg := { s.qmg with lost := nput s.qmg.lost q { ctx0 with state := st, tenant := t, errCause := 5 } } } 5 q 0x7F 0 (some t)

/-- A dropped doorbell write (R54, R56, R447). -/
def dropDoorbell (s : State) (q fn : Nat) : State := logQmg (bumpSat s Reg.qmgDbDrop_count) 0x10 q fn 0 none

/-! Predicate slots (R67) -/

/-- A slot that nothing has written. -/
def slot0 : PredSlot := ⟨0, false, none⟩

/-- Slot i of the pool. A slot given to two queues is one slot here, so that each sees what the other wrote (R52 leaves the values each
one sees undefined; DESIGN CHOICE, log 126). -/
def slotAt (s : State) (i : Nat) : PredSlot := ngetD slot0 s.qmg.slots i

/-- Set slot i of the pool. -/
def setSlot (s : State) (i : Nat) (v : PredSlot) : State := { s with qmg := { s.qmg with slots := nset slot0 s.qmg.slots i v } }

/-- Change one descriptor by its number. -/
def modDesc (s : State) (uid : Nat) (f : Desc → Desc) : State :=
  { s with qmg := { s.qmg with descs := s.qmg.descs.map (fun d => if d.uid = uid then f d else d) } }

/-- The descriptor of a number. -/
def descOf (s : State) (uid : Nat) : Option Desc := s.qmg.descs.find? (fun d => d.uid == uid)

/-- A producer writes a slot: the pending mark clears, and descriptors that recorded the slot see it cleared once
(R67, R144). -/
def clearSlot (s : State) (i value : Nat) (failed : Option Status) : State :=
  let s := setSlot s i ⟨value, false, failed⟩
  { s with qmg := { s.qmg with descs := s.qmg.descs.map (fun d =>
      if d.waits.contains i then
        { d with waits := d.waits.filter (fun x => x ≠ i),
                 failedWaits := match failed with | some st => d.failedWaits ++ [(i, st)] | none => d.failedWaits }
      else d) } }

/-- Set every slot of a context to 0, not pending (R67). -/
def clearPreds (s : State) (c : QCtx) : State :=
  (List.range c.predCount).foldl (fun s i => setSlot s (c.predBase + i) slot0) s

/-! Completion records (R62 to R64) -/

/-- The fields that a status carries; the others read zero (R64). A DMA transfer reports bytes_done with every status (spec 09 R206). -/
def maskFin (f : Fin) (bytes : Nat) (dma : Bool := false) : Nat × Nat × Nat × Nat :=
  let b := if dma then bytes else match f.st with
    | .busy => 0 | .versionConflict => 0 | .unmapped => 0 | .accessDenied => 0 | .badDescriptor => 0 | .fatal => 0 | _ => bytes
  let h := match f.st with
    | .done => f.hint | .busy => f.hint | .versionConflict => f.hint | .numeric => f.hint | .replayed => f.hint | _ => 0
  let a := match f.st with
    | .revoked => true | .unmapped => true | .accessDenied => true | .poisoned => true | .guardMismatch => true
    | .timeout => true | .badDescriptor => true | .busError => true | .replayed => true | _ => false
  (b, h, if a then f.addr else 0, if a then f.kind.code else 0)

/-- The 32 bytes of a record (spec 03, completion record). -/
def recordBytes (st cls fathom : Nat) (phase : Bool) (q sqHead opcode : Nat) (progress skipped : Bool)
    (reqId hint bytes faultAddr faultKind : Nat) : List Byte :=
  natToLe 8 (st % 256 + (cls % 4 + fathom % 16 * 4 + b2n phase * 128) * 2 ^ 8 + q % 2 ^ 16 * 2 ^ 16 + sqHead % 2 ^ 16 * 2 ^ 32
    + opcode % 256 * 2 ^ 48 + (b2n progress + b2n skipped * 2) * 2 ^ 56)
  ++ natToLe 8 (reqId % 2 ^ 24 + hint % 2 ^ 32 * 2 ^ 32) ++ natToLe 8 bytes
  ++ natToLe 8 (faultAddr % 2 ^ 56 + faultKind % 16 * 2 ^ 56)

/-- Raise the interrupt or notification of a queue and restart its count (R69, R336). -/
def raiseIrq (s : State) (q : Nat) (c : QCtx) : State :=
  let s := { s with qmg := { s.qmg with modCnt := ndel s.qmg.modCnt q, modOldest := ndel s.qmg.modOldest q } }
  if c.intMode = 1 then
    if c.intVector < msixSize s q then (if hostUp s (fnOf s q) && !(s.hif.mute.contains q) then emit s (.msix (fnOf s q) c.intVector) else s)
    else logErr s ringHif 7 ⟨none, 0, fnOf s q, 0, 0⟩
  else if c.intMode = 2 then
    inject s { pkt0 s c.notifyNode 0xC2 4 with tenant := c.tenant, body := q % 2 ^ 16 + c.cqTail % 2 ^ 32 * 2 ^ 32 }
  else s

/-- Account a written record toward the interrupt (R69); mod_time 0 starts no timer. -/
def irqAfter (s : State) (q : Nat) (now : Bool) : State :=
  let c := ctxOf s q
  if c.intMode = 0 then s else
    let n := ngetD 0 s.qmg.modCnt q + 1
    let timed := c.modTime ≠ 0 && (nfind s.qmg.modOldest q).isNone
    if now || decide (max 1 c.modCount ≤ n) then raiseIrq s q c
    else
      { s with qmg := { s.qmg with
          modCnt := nput s.qmg.modCnt q n
          modOldest := if timed then nput s.qmg.modOldest q s.nowNs else s.qmg.modOldest } }

/-- A CQ slot can be written: a host ring through a function that reaches the host, a pool ring on memory that is not lost. -/
def cqWritable (s : State) (q : Nat) (c : QCtx) : Bool :=
  if c.cqHost then hostUp s (fnOf s q)
  else match hwLocate s (localOf (c.cqBase + c.cqTail % 2 ^ c.cqLog2 * 32)) with
    | some p => !isLost s p
    | none => false

/-! Host translations (spec 08 R180, R181) -/

/-- A cached translation lets a function read or write a host page. -/
def atsHit (s : State) (fn pasid page : Nat) (wr : Bool) : Bool :=
  s.hif.ats.any (fun e => e.fn == fn && e.pasid == pasid && e.page == page && (if wr then e.wr else e.rd))

/-- Ask ATS for a page, unless the same asker waits for it already. -/
def atsAsk (s : State) (fn pasid page : Nat) (wr : Bool) (who : AtsWho) : State :=
  if s.hif.waits.any (fun w => w.fn == fn && w.pasid == pasid && w.page == page && w.who == who) then s
  else emit { s with hif := { s.hif with waits := s.hif.waits ++ [⟨fn, pasid, page, wr, who, none⟩] } } (.translationRequest fn pasid (page * 4096))

/-- A record leaves for a CQ in host memory: at once where its page is translated and none waits before it, and after the translation
otherwise (R180, R181). Records never carry Relaxed Ordering (spec 09 R203). -/
def recordToHost (s : State) (o : CqOut) : State :=
  if s.qmg.cqOut.any (fun x => x.queue == o.queue) then { s with qmg := { s.qmg with cqOut := s.qmg.cqOut ++ [o] } }
  else if atsHit s o.fn o.pasid (o.addr / 4096) true then irqAfter (emit s (.memWrite o.fn o.pasid o.addr o.data false false)) o.queue o.irq
  else atsAsk { s with qmg := { s.qmg with cqOut := s.qmg.cqOut ++ [o] } } o.fn o.pasid (o.addr / 4096) true (.cq o.queue)

/-- The records of queue q that waited for a translation leave in their order (R181). -/
def recordsGo (s : State) (q : Nat) : State :=
  let mine := s.qmg.cqOut.filter (fun o => o.queue == q)
  mine.foldl recordToHost { s with qmg := { s.qmg with cqOut := s.qmg.cqOut.filter (fun o => o.queue ≠ q) } }

/-- The records of queue q that wait are lost: its CQ cannot be written (R72 cause 0x04, R181). -/
def recordsLost (s : State) (q : Nat) : State :=
  let n := (s.qmg.cqOut.filter (fun o => o.queue == q)).length
  queueError { s with qmg := { s.qmg with cqOut := s.qmg.cqOut.filter (fun o => o.queue ≠ q) } } q 4 0x7F n

/-- Post one record to the CQ of queue q; the bytes are built from the context (R62). A CQ that cannot be written puts the
queue in ERROR with cause 0x04, and the error-ring entry counts the one record lost (R72; one entry for each, DESIGN CHOICE, log 126);
after a function reset the records of its queues are discarded (R341). -/
def postRecord (s : State) (q : Nat) (mk : Bool → Nat → List Byte) (irqNow : Bool) : State :=
  let r := readCtx s q
  let c := r.1
  let s := r.2.2
  if c.cqHost && s.hif.mute.contains q then s
  else if !cqWritable s q c then queueError s q 4 0x7F 1
  else
    let depth := 2 ^ c.cqLog2
    let bs := mk (c.cqTail / depth % 2 == 0) c.sqHead
    let off := c.cqTail % depth * 32
    let s := telEvent (putCtx s q { c with cqTail := (c.cqTail + 1) % 2 ^ 32 }) 0x91 0 1
    if c.cqHost then recordToHost s ⟨q, fnOf s q, c.pasid, c.cqBase + off, bs, irqNow⟩
    else irqAfter (hwWrite s (.tenant c.tenant) (c.cqBase + off) bs) q irqNow

/-- A FATAL record on the CQ of every queue of a tenant that remains writable, and the queue in ERROR with cause 0x05 (R73). -/
def fatalTenant (s : State) (t : Nat) : State :=
  ((s.qmg.tenantOf.filter (fun e => e.2 == t)).map (·.1)).foldl (fun s q =>
    let c := ctxOf s q
    if (nfind s.qmg.lost q).isNone ∧ 4 ≤ c.cqLog2 then
      let s := if cqWritable s q c then
        postRecord s q (fun ph hd => recordBytes 14 0 (fathomNow s) ph q hd 0 false false 0 0 0 0 0) false else s
      queueError s q 5 0x7F 0
    else s) s

/-- QMG reads the context of queue q; where it is poisoned, or its guard fails, it is lost, and its tenant's queues receive FATAL
(R72, R73, R244). -/
def noticeCtx (s : State) (q : Nat) : State :=
  let r := readCtx s q
  if r.2.1 = .none then r.2.2
  else fatalTenant (markLost r.2.2 q) (ngetD 0 s.qmg.tenantOf q)

/-- Write one record to the CQ of queue q (R62). A record of a context that is lost is lost with it (R72). -/
def writeRecord (s : State) (q : Nat) (mk : Bool → Nat → List Byte) (irqNow : Bool) : State :=
  let s := noticeCtx s q
  if (nfind s.qmg.lost q).isSome then s else postRecord s q mk irqNow

/-- A tenant's record has sr1_bus_error set (R245). -/
def busMode (s : State) (t : Nat) : Bool := getB s Reg.xtuTenant0_sr1_bus_error t

/-- POISONED becomes BUS_ERROR for a tenant with sr1_bus_error set (R64, R245). -/
def busFin (s : State) (t : Nat) (f : Fin) : Fin := if f.st = .poisoned ∧ busMode s t then { f with st := .busError } else f

/-- Records still reserved on the CQ of queue q (R58). -/
def cqResv (s : State) (q : Nat) : Nat := ngetD 0 s.qmg.cqResv q

/-- Set the records reserved on a CQ. -/
def setResv (s : State) (q n : Nat) : State := { s with qmg := { s.qmg with cqResv := nset 0 s.qmg.cqResv q n } }

/-- A queue that is DISABLING with nothing in flight reaches DISABLED (R74). -/
def drainCheck (s : State) (q : Nat) : State :=
  let c := ctxOf s q
  if c.state = 3 ∧ c.inflight = 0 then putCtx s q { c with state := 0 } else s

/-- The progress record of R70, with the bytes done at the half point. -/
def progressRecord (s : State) (d : Desc) (bytes : Nat) : State :=
  let s := modDesc s d.uid (fun x => { x with halfDone := true, resv := x.resv - 1 })
  let s := setResv s d.queue (cqResv s d.queue - 1)
  writeRecord s d.queue (fun ph hd => recordBytes 0 d.cls d.fathom ph d.queue hd d.opcode true false d.reqId 0 bytes 0 0) true

/-- Write the slots of a producer as it ends: its values, or 0 marked failed (R67, R122). -/
def producerEnd (s : State) (d : Desc) (st : Status) (skipped : Bool) : State :=
  let vals := slotValues d.raw d.pre
  let ok := st = .done && !skipped
  (d.slots.zipIdx).foldl (fun s x =>
    if ok then clearSlot s x.1 (vals.getD x.2 0 % 2 ^ 32) none
    else if st = .done then clearSlot s x.1 0 none
    else clearSlot s x.1 0 (some st)) s

/-- A host COPY2D. -/
def isDma (d : Desc) : Bool := d.opcode == 0x10 && (c2SrcHost d.raw || c2DstHost d.raw)

/-- A DMA engine runs a descriptor. -/
def runs (s : State) (e uid : Nat) : Bool := ((nfind s.dma.run e).map (fun x => x.mig.isNone && x.uid == uid)).getD false

/-- Drop everything that still serves a descriptor: tiles, batches, held items, leases and work counted in flight. Leases of engines stay
as idle ones (R90). -/
def dropWork (s : State) (uid : Nat) : State :=
  holdView { s with
    nme := { s.nme with tiles := s.nme.tiles.filter (fun t => t.uid ≠ uid), batches := s.nme.batches.filter (fun b => b.uid ≠ uid),
                        waitQ := s.nme.waitQ.filter (fun u => u ≠ uid) }
    adm := { s.adm with
      hold := s.adm.hold.filter (fun h => match h.item with | .desc u => u ≠ uid | .tile u _ => u ≠ uid | _ => true)
      redo := s.adm.redo.filter (fun h => match h.item with | .desc u => u ≠ uid | .tile u _ => u ≠ uid | _ => true) }
    dma := { s.dma with chans := (s.dma.chans.map (fun c => (c.1, c.2.filter (fun u => u ≠ uid)))).filter (fun c => c.2 ≠ []),
                        run := s.dma.run.filter (fun r => r.2.mig.isSome || r.2.uid ≠ uid),
                        reads := s.dma.reads.filter (fun r => !runs s r.engine uid),
                        waiting := s.dma.waiting.filter (fun u => u ≠ uid) }
    hif := { s.hif with waits := s.hif.waits.filter (fun w => match w.who with | .dma e => !runs s e uid | _ => true) }
    xtu := { s.xtu with
      held := s.xtu.held.filter (fun h => match h.item with | .desc u => u ≠ uid | .tile u _ => u ≠ uid | _ => true)
      leases := (s.xtu.leases.map (fun l => { l with uids := l.uids.filter (fun u => u ≠ uid) })).filter (fun l =>
        l.uids ≠ [] || (match l.holder with | .engine _ => !l.stale | _ => false))
      flights := s.xtu.flights.filter (fun f => f.uid ≠ uid) } }

/-- End a descriptor: slots, record, interrupt, in-flight count (R62, R67, R69, R74). -/
def endDesc (s : State) (d : Desc) (fin : Fin) (skipped : Bool) : State :=
  let fin := busFin s d.tenant fin
  let s := noticeCtx (dropWork s d.uid) d.queue
  let s := producerEnd (if skipped then telEvent s 0x23 0 1 else s) d fin.st skipped
  let s := { s with qmg := { s.qmg with descs := s.qmg.descs.filter (fun x => x.uid ≠ d.uid) } }
  let s := setResv s d.queue (cqResv s d.queue - d.resv)
  let m := maskFin fin d.bytesDone (isDma d)
  let s :=
    if hCmpReq d.raw || decide (fin.st ≠ .done) then
      writeRecord s d.queue (fun ph hd => recordBytes fin.st.code d.cls d.fathom ph d.queue hd d.opcode false skipped d.reqId
        m.2.1 m.1 m.2.2.1 m.2.2.2) (hIrqFull d.raw)
    else s
  let s := modCtx (sampleEnd s true d.uid fin.st.code d.cls d.fathom) d.queue (fun c => { c with inflight := c.inflight - 1 })
  drainCheck s d.queue

/-! Descriptors from fetch to hand-over (R57 to R59, R66 to R68) -/

/-- The common header of a fetched image is refused (R59), by R65. -/
def headerFin (s : State) (c : QCtx) (raw : Nat) : Option Fin :=
  let op := hOpcode raw
  let featOk := match opRow op with | some r => r.feat == 0 || feature s r.feat | none => false
  if !featOk || !hRsvZero raw
    || (hPredEn raw && (!feature s 7 || decide (c.predCount ≤ hPredSlot raw)))
    || (hIrqHalf raw && !opHalf op) || !slotsValid raw c.predCount (feature s 7) then some (Fin.of .badDescriptor)
  else if !tenantActive s c.tenant then some (Fin.of .tenantGone)
  else if hTenant raw ≠ c.tenant then some (Fin.of .accessDenied)
  else none

/-- A descriptor record for an image fetched from queue q. The Fathom level of this node counts as it stands at the fetch (R63 gives no
moment; DESIGN CHOICE, log 126). -/
def newDesc (s : State) (q : Nat) (c : QCtx) (raw resv : Nat) : Desc :=
  { uid := s.qmg.nextUid, queue := q, raw := raw, opcode := hOpcode raw, tenant := c.tenant, reqId := hReqId raw,
    phase := .ready, bytesDone := 0, fin := Fin.ok, cls := 0, fathom := fathomNow s, halfDone := false, resv := resv,
    slots := [], waits := [], binds := [], pre := ⟨[], []⟩, leaves := [], nextTile := 0, tilesOut := [], tilesOk := [], faultTile := 0,
    touched := [], spread := false, stopping := false, numFlags := 0, acksOut := 0, parts := [], failedWaits := [], charged := false }

/-- Add a descriptor. -/
def addDesc (s : State) (d : Desc) : State :=
  { s with qmg := { s.qmg with descs := s.qmg.descs ++ [d], nextUid := s.qmg.nextUid + 1 } }

/-- Reserve records on a CQ: written and not released, plus reservations, stay at most depth − 1 (R58). -/
def resvFits (s : State) (q : Nat) (c : QCtx) (n : Nat) : Bool :=
  decide ((c.cqTail + 2 ^ 32 - c.cqHead) % 2 ^ 32 + cqResv s q + n ≤ 2 ^ c.cqLog2 - 1)

/-- An engine descriptor the dispatcher has taken. -/
def engActive (d : Desc) : Bool :=
  decide (d.queue < 65536) && (match opRow d.opcode with | some r => r.unit == .engine | none => false)
  && !isDma d
  && (match d.phase with | .ready => true | .running => true | .held => true | .draining => true | .admHold => true | _ => false)

/-- The limits of R87 let the dispatcher take a descriptor of an opcode. -/
def canTake (s : State) (op : Nat) : Bool :=
  let act := s.qmg.descs.filter engActive
  decide (act.length < 2048) && (op ≠ 0x20 || decide ((act.filter (fun d => d.opcode == 0x20)).length < 4))

/-- Charge a descriptor as it starts, once (R324): it becomes ready, waits in the holding queue, or ends BUSY (R330). -/
def startDesc (s : State) (uid : Nat) : State :=
  match descOf s uid with
  | none => s
  | some d =>
    if d.charged then modDesc s uid (fun x => { x with phase := .ready }) else
    let host := hostBkt s (queueEntry s d.queue)
    let r := decideCharge s host d.tenant 0 true
    let s := sampleStamp (countCls r.2 r.1.cls) true uid 2
    let s := if r.1.waitNs = 0 then sampleStamp s true uid 3 else s
    let s := modDesc s uid (fun x => { x with cls := max x.cls r.1.cls, charged := true })
    if r.1.cls = 2 then endDesc s { d with cls := 2 } ⟨.busy, 0, .none, ceilUs r.1.waitNs⟩ false
    else if r.1.waitNs = 0 then modDesc s uid (fun x => { x with phase := .ready })
    else holdWork (modDesc s uid (fun x => { x with phase := .admHold })) d.tenant host 0 r.1 (.desc uid)

/-- The die, engine and channel of a host COPY2D (R193): engine × 8 + channel. -/
def dmaChannel (q : Nat) (east : Bool) : Nat := ((if east then 16 else 0) + q % 16) * 8 + (q / 16) % 7

/-- The right that the pool side of a host COPY2D needs. -/
def poolNeed (raw : Nat) : Need := if c2SrcHost raw then .wr else .rd

/-- The first granule of the pool side lies on this node on one of stacks S6 to S11 (R193). -/
def poolEast (s : State) (d : Desc) : Bool :=
  match (xlate s d.tenant (if c2SrcHost d.raw then c2Dst d.raw else c2Src d.raw) (poolNeed d.raw) []).1 with
  | .ok x => ownerOf x.ppa == s.dev.node && (match locate s x.place (localOf x.ppa) with | some p => decide (6 ≤ stackOf p) | none => false)
  | _ => false

/-- A host COPY2D enters its channel, or waits for room (R193, R194). -/
def toDma (s : State) (d : Desc) : State :=
  let ch := dmaChannel d.queue (poolEast s d)
  let l := ngetD [] s.dma.chans ch
  if l.length < 8 then
    modDesc { s with dma := { s.dma with chans := nput s.dma.chans ch (l ++ [d.uid]) } } d.uid (fun x => { x with phase := .dmaQueued })
  else modDesc { s with dma := { s.dma with waiting := s.dma.waiting ++ [d.uid] } } d.uid (fun x => { x with phase := .waitList })

/-- A free retry-after estimate of the dispatcher: at least 1, at most 0xFFFF_FFFF (R87). -/
def freeRetry (s : State) : Nat × State := let r := fresh s; (1 + r.1 % 0xFFFFFFFF, r.2)

/-- QMG hands a descriptor over: one whose layout is refused has no other effect and is not charged (R101, R109, R451); any other is
routed by opcode (R79), taken at once, put on the wait list or refused (R87, R88). -/
def handOver (s : State) (uid : Nat) : State :=
  match descOf s uid with
  | none => s
  | some d =>
    if opBad s d.raw then endDesc s d (Fin.of .badDescriptor) false
    else if isDma d then toDma s d
    else match opRow d.opcode with
      | none => s
      | some r =>
        if r.unit ≠ .engine then startDesc s uid
        else
          -- the descriptor itself is not yet counted
          let s0 := modDesc s uid (fun x => { x with phase := .waitList })
          if canTake s0 d.opcode && s.nme.waitQ.all (fun u => match descOf s u with
              | some e => ((opRow e.opcode).map (·.cls)) ≠ some r.cls || !canTake s0 e.opcode | none => true) then startDesc s0 uid
          else if s.nme.waitQ.length < 256 then { s0 with nme := { s0.nme with waitQ := s0.nme.waitQ ++ [uid] } }
          else
            let h := freeRetry s0
            endDesc h.2 d ⟨.busy, 0, .none, h.1⟩ false

/-- A descriptor goes on after its predicate: to its recorded slots, or to the dispatcher. -/
def afterPred (s : State) (uid : Nat) : State :=
  match descOf s uid with
  | none => s
  | some d =>
    if d.waits ≠ [] then modDesc s uid (fun x => { x with phase := .waitSlots })
    else match d.failedWaits.foldl (fun (a : Option (Nat × Status)) x =>
        match a with | some b => if x.1 < b.1 then some x else a | none => some x) none with
      | some f => endDesc s d (Fin.of f.2) true
      | none =>
        if waitedSlots d.raw = [] then handOver s uid
        else if opBad s d.raw then endDesc s d (Fin.of .badDescriptor) false
        else
          -- a MOE_COMBINE is charged as it starts under R144, before the dispatcher takes it
          let s := startDesc s uid
          match descOf s uid with
          | some e => if e.phase = .ready then handOver s uid else s
          | none => s

/-- A descriptor leaves the holding queue (R326): it is ready, or a MOE_COMBINE goes on to the dispatcher. -/
def releaseDesc (s : State) (uid : Nat) : State :=
  match descOf s uid with
  | none => s
  | some d =>
    let s := sampleStamp s true uid 3
    if d.phase ≠ .admHold then s
    else if waitedSlots d.raw = [] then modDesc s uid (fun x => { x with phase := .ready })
    else handOver s uid

/-- Read the predicate of a descriptor whose slot is not pending (R68). -/
def judgePred (s : State) (uid : Nat) : State :=
  match descOf s uid with
  | none => s
  | some d =>
    let c := ctxOf s d.queue
    let v := slotAt s (c.predBase + hPredSlot d.raw)
    if v.pending then modDesc s uid (fun x => { x with phase := .waitPred })
    else
      let s := sampleStamp s true uid 1
      match v.failed with
      | some st => endDesc s d (Fin.of st) true
      | none => if (v.value ≠ 0) ≠ hPredInvert d.raw then afterPred s uid else endDesc s d Fin.ok true

/-- A descriptor whose header passed: mark its slots pending, record the slots it waits on, then its predicate (R59, R67,
R68, R144). -/
def admitDesc (s : State) (uid : Nat) : State :=
  match descOf s uid with
  | none => s
  | some d =>
    let c := ctxOf s d.queue
    let slots := (producerSlots d.raw).map (fun i => c.predBase + i)
    let waits := ((waitedSlots d.raw).map (fun i => c.predBase + i)).filter (fun i => (slotAt s i).pending)
    let s := slots.foldl (fun s i => setSlot s i { slotAt s i with pending := true }) s
    let s := modDesc s uid (fun x => { x with slots := slots, waits := waits })
    if hPredEn d.raw then judgePred s uid else afterPred s uid

end Sys2Proof.Machine
end

