-- ==== Sys2Proof/Machine/Coherence.lean ====
section
/-!
DEFINITION. Machine/Coherence.lean: the home directory of one node (spec 12).
-/
namespace Sys2Proof.Machine
open Sys2Proof

/-- Nanoseconds of a count of engine cycles, rounded up. -/
def cyclesNs (s : State) (n : Nat) : Nat := cdiv (n * 1000) (engMHz s)

/-! Places (R259) -/

/-- Bank of a line. -/
def dirBank (line : Nat) : Nat := line % 8
/-- Bank × 32,768 + set of a line. -/
def dirSet (line : Nat) : Nat := line % 8 * 32768 + (line / 8) % 32768
/-- PPA of a line of this node. -/
def linePpa (s : State) (line : Nat) : Nat := s.dev.node * 2 ^ 42 + line * 64
/-- Line of a PPA. -/
def lineOf (ppa : Nat) : Nat := localOf ppa / 64

/-- The entry of a line. -/
def dirEnt (s : State) (line : Nat) : Option DirEnt := nfind s.dir.ents line

/-- Set or clear the entry of a line, most recently used in its set. -/
def putEnt (s : State) (line : Nat) (e : Option DirEnt) : State :=
  let k := dirSet line
  let n := getF s Reg.dirStatus_valid (dirBank line)
  let s := setF s Reg.dirStatus_valid (n + b2n e.isSome - b2n (nfind s.dir.ents line).isSome) (dirBank line)
  let rest := (ngetD [] s.dir.lru k).filter (fun l => l ≠ line)
  match e with
  | some v => { s with dir := { s.dir with ents := nput s.dir.ents line v, lru := nset [] s.dir.lru k (line :: rest) } }
  | none => { s with dir := { s.dir with ents := ndel s.dir.ents line, lru := nset [] s.dir.lru k rest } }

/-- A transaction is open on the line. -/
def lineOpen (s : State) (line : Nat) : Bool := s.dir.txns.any (fun t => t.req.line == line)

/-- The line is pinned: open or held (R271). -/
def linePinned (s : State) (line : Nat) : Bool := lineOpen s line || (nfind s.dir.holds line).isSome

/-! Agents (R261) -/

/-- Agent a is marked failed (R275). -/
def agentFailed (s : State) (a : Nat) : Bool := getB s Reg.dirAgent_failed a

/-- The enabled agent of a node. -/
def agentOf (s : State) (node : Nat) : Option Nat :=
  (List.range 256).find? (fun a => getB s Reg.dirAgent_enable a && getF s Reg.dirAgent_node a == node)

/-- The agents that an entry names: its pointers, or every enabled agent of its groups (R260, R267). -/
def holders (s : State) (e : DirEnt) : List Nat :=
  if e.coarse then (List.range 256).filter (fun a => bitOf e.groups (a / 8) && getB s Reg.dirAgent_enable a) else e.ptrs

/-- An entry of the DIR error ring (R442). -/
def logDir (s : State) (cause line unit : Nat) : State := logErr s ringDir cause ⟨none, 2, unit, linePpa s line, dirBank line⟩

/-! Messages (R264, R265) -/

/-- A coherence flit (R265) as bytes. -/
def cohFlit (state : Nat) (dirty wbPending : Bool) (agent waitHint fwdNode wbCount fwdReq set : Nat) : Gran :=
  freshGran (natToLe 64 (state % 8 + b2n dirty * 8 + b2n wbPending * 16 + agent % 256 * 2 ^ 8 + waitHint % 2 ^ 16 * 2 ^ 16
    + fwdNode % 2 ^ 14 * 2 ^ 32 + wbCount % 2 ^ 16 * 2 ^ 48 + fwdReq % 2 ^ 24 * 2 ^ 64 + set % 2 ^ 15 * 2 ^ 96
    + set / 32768 % 8 * 2 ^ 111))

/-- The coherence flit of a message as a number. -/
def cohOf (p : Pkt) : Nat := leToNat ((p.data.head?.getD zeroGran).data)

/-- Send a coherence message about a line to a node, on VC2 (R264). -/
def cohSend (s : State) (node ptype line reqId : Nat) (flit : Gran) (data : Option Gran) : State :=
  inject s { pkt0 s node ptype 2 with addr := linePpa s line, isPpa := true, reqId := reqId, data := flit :: data.toList }

/-- A snoop to agent a: SNP_INV 0x48, SNP_FWD_SHARED 0x49, SNP_FWD_OWN 0x4A. -/
def snoop (s : State) (ptype line a fwdNode fwdReq : Nat) : State :=
  cohSend s (getF s Reg.dirAgent_node a) ptype line 0 (cohFlit 0 false false a 0 fwdNode 0 fwdReq 0) none

/-! Memory of a line -/

/-- Read a line under a placement and key_tenant. -/
def lineRead (s : State) (line : Nat) (pl : Place) (key : Nat) : Gran × State :=
  match locate s pl (line * 64) with
  | some p => memRead s p (linePpa s line) (dataKey s key)
  | none => (poisonGran, s)

/-- Write a line under a placement and key_tenant. -/
def lineWrite (s : State) (line : Nat) (pl : Place) (key : Nat) (g : Gran) : State :=
  match locate s pl (line * 64) with
  | some p => memStore s p (linePpa s line) g (dataKey s key)
  | none => s

/-- Store data that an agent returned or wrote back: poison travels, a bad guard is not stored and is logged (R276); data under
a key_tenant that is not ACTIVE is discarded (R279). -/
def storeBack (s : State) (line : Nat) (e : DirEnt) (g : Gran) (agent : Nat) : State :=
  if !tenantActive s e.key then bump s Reg.dirStaleWb_count 1 (dirBank line)
  else if granOk g then lineWrite s line e.place e.key g
  else logDir s 3 line agent

/-! Closing and opening transactions -/

/-- Remove the transaction of a line. -/
def dropTxn (s : State) (line : Nat) : State :=
  let n := (s.dir.txns.filter (fun t => dirBank t.req.line == dirBank line && t.req.line != line)).length
  let s := setF s Reg.dirStatus_opn n (dirBank line)
  { s with dir := { s.dir with txns := s.dir.txns.filter (fun t => t.req.line ≠ line) } }

/-- Minimum hold in engine cycles (DIR_CTL.min_hold, clamped). -/
def minHold (s : State) : Nat := clamp 32 1024 (getF s Reg.dirCtl_min_hold)

/-- Snoop timeout in nanoseconds (DIR_CTL.snoop_timeout, clamped). -/
def snoopNs (s : State) : Nat := clamp 10 1000 (getF s Reg.dirCtl_snoop_timeout) * 1000

/-- Close the transaction of a line; a grant of E, M or F starts the hold, which counts from the COMP_ACK (R270). -/
def closeTxn (s : State) (line granted comp : Nat) : State :=
  let s := dropTxn s line
  let t := comp + cyclesNs s (minHold s)
  if granted ≥ 2 ∧ s.nowNs < t then { s with dir := { s.dir with holds := nput s.dir.holds line t } } else s

/-- Add an agent as the F sharer, or as one more sharer of a coarse entry; a fifth pointer makes it coarse (R260). -/
def addSharer (e : DirEnt) (a : Nat) : DirEnt :=
  let rest := e.ptrs.filter (fun x => x ≠ a)
  if e.coarse then { e with groups := Nat.lor e.groups (2 ^ (a / 8)), fValid := false }
  else if rest.length < 4 then { e with st := 1, fValid := true, ptrs := a :: rest }
  else { e with st := 1, coarse := true, fValid := false, ptrs := [],
                groups := (a :: rest).foldl (fun g x => Nat.lor g (2 ^ (x / 8))) 0 }

/-- Remove an agent from an entry; none when no holder is left (R267). A coarse group stays. -/
def dropSharer (e : DirEnt) (a : Nat) : Option DirEnt :=
  if e.coarse then some e
  else
    let rest := e.ptrs.filter (fun x => x ≠ a)
    if rest = [] then none else some { e with ptrs := rest, fValid := e.fValid && e.ptrs.head? ≠ some a }

/-- The response of an error to a caching request, on VC1 (R264). -/
def cohErr (s : State) (p : Pkt) (f : Fin) : State := inject s (response s p 0x8F p.admClass f 0 0 [])

/-- Send a grant: read memory for GRANT_DATA; poisoned data for a tenant with sr1_bus_error set ends in BUS_ERROR and grants
nothing (R276). The result tells whether a state was granted. -/
def sendGrant (s : State) (r : DirReq) (state : Nat) (withData : Bool) : Bool × State :=
  match r.pkt with
  | none => (false, s)
  | some p =>
    if withData then
      let q := lineRead s r.line r.place r.key
      if q.1.poison && busMode s p.tenant then
        (false, cohErr q.2 p (Fin.atPpa .busError (linePpa s r.line)))
      else (true, cohSend q.2 p.src 0x4C r.line p.reqId (cohFlit state false false r.agent 0 0 0 0 0) (some q.1))
    else (true, cohSend s p.src 0x4D r.line p.reqId (cohFlit state false false r.agent 0 0 0 0 0) none)

/-- The entry after a grant in a state. -/
def grantEnt (s : State) (r : DirReq) (state : Nat) : DirEnt :=
  if state = 2 ∨ state = 3 then ⟨2, false, false, [r.agent], 0, r.key, r.place⟩
  else match dirEnt s r.line with
    | some e => { addSharer { e with st := 1 } r.agent with key := r.key, place := r.place }
    | none => ⟨1, false, true, [r.agent], 0, r.key, r.place⟩

/-- Grant and wait for COMP_ACK, or close without a grant (R267, R276). -/
def doGrant (s : State) (t : DirTxn) (state : Nat) (withData : Bool) : State :=
  let g := sendGrant s t.req state withData
  if g.1 then
    let s := putEnt g.2 t.req.line (some (grantEnt g.2 t.req state))
    { s with dir := { s.dir with txns := s.dir.txns.map (fun x =>
        if x.req.line = t.req.line then { x with comp := true, granted := state, next := .forwarded } else x) } }
  else closeTxn g.2 t.req.line 0 0

/-- Open a transaction with its snoops out. -/
def openTxn (s : State) (t : DirTxn) : State :=
  let s := bump s Reg.dirStatus_opn 1 (dirBank t.req.line)
  { s with dir := { s.dir with txns := s.dir.txns ++ [t] } }

/-- A transaction with nothing outstanding yet. -/
def txn0 (s : State) (r : DirReq) (next : DirNext) : DirTxn := ⟨r, [], [], false, s.nowNs, 0, next, dirEnt s r.line, [], 0⟩

/-- Advance a transaction whose snoop responses and writebacks are all in; the plain requests that may be served come back. -/
def advTxn (s : State) (line : Nat) : List DirReq × State :=
  match s.dir.txns.find? (fun t => t.req.line == line) with
  | none => ([], s)
  | some t =>
    if t.snp ≠ [] ∨ t.wb ≠ [] then ([], s)
    else match t.next with
      | .grant st d => ([], doGrant s t st d)
      | .forwarded => if t.comp then ([], s) else ([], closeTxn s line t.granted t.compNs)
      | .toI => ([], closeTxn (putEnt s line none) line 0 0)
      | .serve => ([t.req], closeTxn (if t.req.op = 2 then putEnt s line none else s) line 0 0)

/-- Live holders of an entry but one: failed agents are removed without a snoop (R275). -/
def liveHolders (s : State) (e : DirEnt) (but : Option Nat) : List Nat :=
  (holders s e).filter (fun a => some a ≠ but && !agentFailed s a)

/-- Send SNP_INV to agents. -/
def snoopInv (s : State) (line : Nat) (as : List Nat) : State := as.foldl (fun s a => snoop s 0x48 line a 0 0) s

/-- The owner of an EXC entry. -/
def ownerAgent (e : DirEnt) : Option Nat := if e.st = 2 then e.ptrs.head? else none

/-- Back-invalidate a line: a transaction of its own (R271, R278). -/
def startBinv (s : State) (line : Nat) (e : DirEnt) : List DirReq × State :=
  let as := liveHolders s e none
  let s := bump (snoopInv s line as) Reg.dirBinv_count 1 (dirBank line)
  let r : DirReq := { line := line, op := 0, agent := 0, req := none, pkt := none, key := e.key, place := e.place }
  advTxn (openTxn s { txn0 s r .toI with snp := as }) line

/-- A caching request on a line without an entry, or whose entry is to be treated as I (R267). -/
def grantFresh (s : State) (r : DirReq) : State :=
  let st := if r.op = 0x40 then (if getB s Reg.dirCtl_grant_e then 2 else 4) else 3
  let t := txn0 s r (.grant st true)
  doGrant (openTxn s t) t st true

/-- A caching request on a line with an entry (R267). -/
def grantTracked (s : State) (r : DirReq) (e : DirEnt) : State :=
  let node := (r.pkt.map (·.src)).getD 0
  let req := (r.pkt.map (·.reqId)).getD 0
  match ownerAgent e with
  | some o =>
    if o = r.agent then grantFresh s r
    else if r.op = 0x40 then
      let t := { txn0 s r .forwarded with snp := [o], comp := true, granted := 4 }
      let s := snoop s 0x49 r.line o node req
      openTxn (putEnt s r.line (some { e with st := 1, fValid := true, ptrs := [r.agent, o], key := r.key, place := r.place })) t
    else
      let t := { txn0 s r .forwarded with snp := [o], comp := true, granted := 3 }
      let s := snoop s 0x4A r.line o node req
      openTxn (putEnt s r.line (some ⟨2, false, false, [r.agent], 0, r.key, r.place⟩)) t
  | none =>
    if r.op = 0x40 then
      match e.fValid, e.ptrs with
      | true, f :: _ =>
        if f = r.agent || agentFailed s f then
          let t := txn0 s r (.grant 4 true)
          doGrant (openTxn s t) t 4 true
        else
          let t := { txn0 s r .forwarded with snp := [f], comp := true, granted := 4 }
          let s := snoop s 0x49 r.line f node req
          openTxn (putEnt s r.line (some { addSharer e r.agent with key := r.key, place := r.place })) t
      | _, _ =>
        let st := if e.coarse then 1 else 4
        let t := txn0 s r (.grant st true)
        doGrant (openTxn s t) t st true
    else
      let listed := if e.coarse then bitOf e.groups (r.agent / 8) else e.ptrs.contains r.agent
      let as := liveHolders s e (some r.agent)
      let t : DirTxn := { txn0 s r (.grant 3 (!(r.op == 0x42 && listed))) with snp := as }
      (advTxn (openTxn (snoopInv s r.line as) t) r.line).2

/-- A plain read or write of a line (R268): true when it may be served at once. -/
def plainStart (s : State) (r : DirReq) (e : DirEnt) : Bool × State :=
  if r.op = 1 then
    match ownerAgent e with
    | none => (true, s)
    | some o =>
      let s := snoop s 0x49 r.line o s.dev.node ((r.pkt.map (·.reqId)).getD 0)
      let t := { txn0 s r .serve with snp := [o] }
      (false, openTxn (putEnt s r.line (some { e with st := 1, fValid := true })) t)
  else
    let as := liveHolders s e none
    let s := snoopInv s r.line as
    if as = [] then (true, putEnt s r.line none)
    else (false, openTxn s { txn0 s r .serve with snp := as })

/-- What became of a request at the directory. -/
inductive DirRes where
  | serve
  | wait
  | failed (f : Fin)
deriving DecidableEq, Repr

/-- Ways of a set in use. -/
def setLines (s : State) (line : Nat) : List Nat := ngetD [] s.dir.lru (dirSet line)

/-- A line may be chosen as a victim (R271). -/
def eligible (s : State) (l : Nat) : Bool :=
  !linePinned s l && (match (dirEnt s l).bind ownerAgent with | some o => !agentFailed s o | none => true)

/-- RETRY to a caching request, with a reservation for its set where none stands (R272); the hint is a free estimate. -/
def sendRetry (s : State) (r : DirReq) (reserve : Bool) : State :=
  match r.pkt with
  | none => s
  | some p =>
    let k := dirSet r.line
    let h := fresh s
    let s := bump h.2 Reg.dirRetry_count 1 (dirBank r.line)
    let s := cohSend s p.src 0x4E r.line p.reqId (cohFlit 0 false false r.agent (h.1 % 65536) 0 0 0 0) none
    if reserve && !(s.dir.resv.any (fun x => x.1 == k)) && decide ((s.dir.resv.filter (fun x => x.1 / 32768 == k / 32768)).length < 64)
    then { s with dir := { s.dir with resv := s.dir.resv ++ [(k, r.agent, r.line)] } } else s

/-- Open a caching request on a free line without an entry: a way, a victim, or RETRY (R271, R272). -/
def allocWay (s : State) (r : DirReq) : List DirReq × State :=
  let k := dirSet r.line
  let used := setLines s r.line
  let mine := s.dir.resv.any (fun x => x == (k, r.agent, r.line))
  let others := if mine then 0 else (s.dir.resv.filter (fun x => x.1 == k)).length
  let free := 16 - used.length
  let el := used.filter (eligible s)
  let unres := fun (s : State) => { s with dir := { s.dir with resv := s.dir.resv.filter (fun x => x ≠ (k, r.agent, r.line)) } }
  if others < free then ([], grantFresh (unres s) r)
  else if others < free + el.length then
    match el.getLast?, el.getLast?.bind (dirEnt s) with
    | some v, some e =>
      let s := unres s
      let b := startBinv { s with dir := { s.dir with queue := r :: s.dir.queue } } v e
      b
    | _, _ => ([], sendRetry s r true)
  else ([], sendRetry s r true)

/-- Send SNP_INV_SET to every enabled agent that has not failed (R277). -/
def startFlush (s : State) (line : Nat) : State :=
  let k := dirSet line
  let as := (List.range 256).filter (fun a => getB s Reg.dirAgent_enable a && !agentFailed s a)
  let s := as.foldl (fun s a =>
    cohSend s (getF s Reg.dirAgent_node a) 0x4B line 0 (cohFlit 0 false false a 0 0 0 0 k) none) s
  { s with dir := { s.dir with flushes := s.dir.flushes ++ [⟨k, as, [], []⟩] } }

/-- The set of a line is being flushed. -/
def flushing (s : State) (line : Nat) : Bool := s.dir.flushes.any (fun f => f.set == dirSet line)

/-- The 1,024 transaction buffers of a line's bank are all in use (R266). -/
def bankFull (s : State) (line : Nat) : Bool := decide (1024 ≤ (s.dir.txns.filter (fun t => dirBank t.req.line == dirBank line)).length)

/-- A request waits because its line is open, held or in a set that is being flushed (R269, R277). -/
def lineBusy (s : State) (line : Nat) : Bool := linePinned s line || flushing s line

/-- Put a request on the conflict queue of its bank; a full queue answers a caching request with RETRY (R269). A request that only a full
bank holds back waits in VC0 and takes no place (R266). -/
def dirQueue (s : State) (r : DirReq) : State :=
  if (s.dir.queue.filter (fun q => dirBank q.line == dirBank r.line && lineBusy s q.line)).length < 256 ∨ r.op < 3 ∨ !lineBusy s r.line then
    { s with dir := { s.dir with queue := s.dir.queue ++ [r] } }
  else sendRetry s r false

/-- Run a request on a free line (R267, R268, R275, R279). -/
def dirRun (s : State) (r : DirReq) : DirRes × List DirReq × State :=
  match dirEnt s r.line with
  | none => if r.op < 3 then (.serve, [], s) else let a := allocWay s r; (.wait, a.1, a.2)
  | some e =>
    let s := putEnt s r.line (some e)
    if !tenantActive s e.key then (.failed (Fin.of .tenantGone), [], s)
    else if r.op ≠ 0 && (ownerAgent e).any (agentFailed s) then
      (.failed (Fin.atPpa .timeout (linePpa s r.line)), [], s)
    else if r.op = 0 then
      if (ownerAgent e).any (agentFailed s) then (.wait, [], s) else let b := startBinv s r.line e; (.wait, b.1, b.2)
    else if r.op < 3 then let p := plainStart s r e; (if p.1 then .serve else .wait, [], p.2)
    else (.wait, [], grantTracked s r e)

/-- A request is looked up in its bank, whose arbiter grants it (R226, R269). -/
def dirGrant (s : State) (line port : Nat) : State :=
  let b := dirBank line
  let s := bump s Reg.dirLookups_count 1 b
  { s with dir := { s.dir with arbs := nput s.dir.arbs b (arbOne (arbN s Reg.dirCtl_arb_n) (ngetD arb0 s.dir.arbs b) port) } }

/-- A request reaches its bank (R269). -/
def dirEnter (s : State) (r : DirReq) : DirRes × List DirReq × State :=
  let s := dirGrant s r.line r.port
  if lineBusy s r.line || bankFull s r.line then (.wait, [], dirQueue s r)
  else dirRun s r

/-- Open the waiting requests whose line is free, in order, with fuel; the requests that are served or that failed come back. -/
def dirKick : Nat → State → List (DirReq × Option Fin) × State
  | 0, s => ([], s)
  | n + 1, s =>
    match s.dir.queue.find? (fun r => !lineBusy s r.line && !bankFull s r.line
        && !(s.dir.txns.any (fun t => t.req.op == 0 && dirSet t.req.line == dirSet r.line && (dirEnt s r.line).isNone && decide (3 ≤ r.op)))) with
    | none => ([], s)
    | some r =>
      let o := dirRun { s with dir := { s.dir with queue := s.dir.queue.erase r } } r
      let mine := match o.1 with
        | .serve => [(r, none)]
        | .failed f => [(r, some f)]
        | .wait => []
      let rest := dirKick n o.2.2
      (mine ++ o.2.1.map (fun q => (q, none)) ++ rest.1, rest.2)

/-- The range command ends once every line of its range is I (R278). -/
def binvCheck (s : State) : State :=
  match s.dir.binv with
  | none => s
  | some (lo, hi) =>
    if s.dir.ents.any (fun e => decide (lo ≤ e.1) && decide (e.1 < hi)) then s
    else setB { s with dir := { s.dir with binv := none } } Reg.dirCmd_busy false

/-- After a change of the directory: open what waits, and judge the range command. Plain requests that may be served, and requests
that failed, come back. -/
def dirSettle (s : State) (ready : List DirReq) : List (DirReq × Option Fin) × State :=
  let k := dirKick (s.dir.queue.length + 1) s
  (ready.map (fun q => (q, none)) ++ k.1, binvCheck k.2)

/-- A plain access of this node's own engines, DMA channels and HIF to a line, in one step: snoops go out, and a dirty answer is
taken from the command's operand (R268; DESIGN CHOICE, log 31). -/
def ownAccess (s : State) (ppa : Nat) (pl : Place) (key : Nat) (write : Bool) (env : NMap Gran) : Option Fin × State :=
  let line := lineOf ppa
  let s := dirGrant s line 14
  match dirEnt s line with
  | none => (none, s)
  | some e =>
    if !tenantActive s e.key then (some (Fin.of .tenantGone), s)
    else match ownerAgent e with
      | some o =>
        if agentFailed s o then (some (Fin.atPpa .timeout (linePpa s line)), s)
        else
          let s := snoop s (if write then 0x48 else 0x49) line o s.dev.node 0
          let s := match nfind env (ppa / 64) with | some g => lineWrite s line pl key g | none => s
          (none, putEnt s line (if write then none else some { e with st := 1, fValid := true }))
      | none =>
        if write then (none, putEnt (snoopInv s line (liveHolders s e none)) line none) else (none, s)

end Sys2Proof.Machine
end

