-- ==== Sys2Proof/Machine/Hold.lean ====
section
/-!
DEFINITION. Machine/Hold.lean: requests of this node to others (spec 14 R318), suspension in translation (spec 02 R42,
spec 08 R184, R187) and the translation of many addresses at once.
-/
namespace Sys2Proof.Machine
open Sys2Proof

/-! Requests to other nodes -/

/-- The completion timeout in nanoseconds (NIE_CTL.cto_ms, 1 to 4,000 ms). -/
def ctoNs (s : State) : Nat := clamp 1 4000 (getF s Reg.nieCtl_cto_ms) * 1000000

/-- Send a request packet and wait for its response (R318). An ATOMIC_REQ counts as a forwarded write, as it may store (DEDUCED, log 140). -/
def sendReq (s : State) (p : Pkt) (client uid : Option Nat) (part : Nat) (ell : Option Nat := none) : State :=
  let o : Outst := { dst := p.dst, tenant := p.tenant, reqId := p.reqId, ptype := p.ptype, deadlineNs := s.nowNs + ctoNs s,
                     ppa := if p.isPpa then p.addr else 0, isWrite := p.ptype == 2 || p.ptype == 3, client := client, uid := uid, part := part, ell := ell }
  inject { s with nie := { s.nie with outst := s.nie.outst ++ [o] } } p

/-- A request ID of this node's own for its engines, channels and translations. -/
def nextReqId (s : State) : Nat × State :=
  (s.nme.nextReq, { s with nme := { s.nme with nextReq := (s.nme.nextReq + 1) % 2 ^ 24 } })

/-- What a question for a set names: the region, and for a bound version that version with bit 64 set (DESIGN CHOICE, log 48). -/
def setKey (region : Nat) (version : Option Nat) : Nat :=
  region % 2 ^ 32 + (match version with | some v => v % 2 ^ 32 * 2 ^ 32 + 2 ^ 64 | none => 0)

/-- The version that such a question names. -/
def keyVer (k : Nat) : Option Nat := if bitOf k 64 then some (bitsOf k 32 32) else none

/-- Ask the home of a region for its current set or for a bound version's, unless the question is out already (R42). -/
def askSet (s : State) (t region : Nat) (version : Option Nat) : State :=
  let k := setKey region version
  if s.nie.outst.any (fun o => o.ptype == 0x07 && o.part == k) then s
  else
    let r := nextReqId s
    sendReq r.2 { pkt0 s (regionHome region) 0x07 0 with tenant := t, reqId := r.1, body := k } none none k

/-! The fault buffer and the migration ring -/

/-- The 32 bytes of a migration-ring entry (spec 08). -/
def migEntry (t pasid pvaEll hostEll ppaEll : Nat) : List Byte :=
  natToLe 8 (t % 4096 + pasid % 2 ^ 20 * 4096) ++ natToLe 8 (pvaEll % 2 ^ 36) ++ natToLe 8 (hostEll % 2 ^ 41)
    ++ natToLe 8 (ppaEll % 2 ^ 40)

/-- The first fault on an ell writes a migration-ring entry; later faults merge (R184 step 2). -/
def migFault (s : State) (w : HeldWhy) : State :=
  match w with
  | .migrate m =>
    let s := telEvent s 0x32 0 1
    if s.xtu.migEnts.any (fun e => e.2.ell == m.ell) then s
    else
      let i := getF s Reg.xtuMigCtl_tail
      let s := hwWrite s .device (getF s Reg.xtuMigBase_base + i * 32) (migEntry m.tenant m.pasid m.pvaEll (m.iova / ellBytes) m.ppaEll)
      setF { s with xtu := { s.xtu with migEnts := nput s.xtu.migEnts i m } } Reg.xtuMigCtl_tail (i + 1)
  | _ => s

/-- A wait is for a migration. -/
def isMigrate : HeldWhy → Bool
  | .migrate _ => true
  | _ => false

/-- Items suspended under R184. -/
def faultBuffer (s : State) : Nat := (s.xtu.held.filter (fun h => h.whys.any isMigrate)).length

/-- What an item waits for first: no migration starts while another wait may still end in a failure (R187). -/
def firstWaits (ws : List HeldWhy) : List HeldWhy := if ws.all isMigrate then ws else ws.filter (fun w => !isMigrate w)

/-- Suspend an item of a tenant; every missing ell starts to migrate and every missing set is asked for. False when the fault
buffer is full (R184 step 1). -/
def holdItem (s : State) (t : Nat) (waits : List HeldWhy) (it : HeldItem) : Bool × State :=
  let ws := firstWaits waits
  if ws.any isMigrate && decide (4096 ≤ faultBuffer s) then (false, s)
  else
    let s := ws.foldl (fun s w => match w with
      | .migrate _ => migFault s w
      | .set region v => askSet s t region v
      | _ => s) s
    (true, { s with xtu := { s.xtu with held := s.xtu.held ++ [⟨ws, it⟩] } })

/-- The retry-after estimate of the XTU for a full fault buffer: free, at least 1 (R184). -/
def busyFin (s : State) : Fin × State := let h := freeRetry s; (⟨.busy, 0, .none, h.1⟩, h.2)

/-! Many addresses (R187) -/

/-- The first byte of a range in each ell that it touches. -/
def ellCuts (a n : Nat) : List Nat :=
  if n = 0 then [] else
    (List.range ((a + n - 1) / ellBytes + 1 - a / ellBytes)).map (fun i => max a ((a / ellBytes + i) * ellBytes))

/-- Insert by ascending first component. -/
def insAddr (x : Nat × Need) : List (Nat × Need) → List (Nat × Need)
  | [] => [x]
  | y :: ys => if y.1 ≤ x.1 then y :: insAddr x ys else x :: y :: ys

/-- What translating many addresses gave: the failure that R65 and the lowest address choose, the waits, translations by ell
with the PPA of the ell's first byte, and the versions bound. -/
structure XAll where
  fin : Fin
  waits : List HeldWhy
  xl : NMap Xl
  binds : List Bind
deriving DecidableEq, Repr

/-- Translate addresses in ascending order (R187). -/
def xlateAll (s : State) (leases : List Lease) (t : Nat) (binds : List Bind) (needs : List (Nat × Need)) : XAll × State :=
  (needs.foldl (fun l x => insAddr x l) []).foldl (fun a x =>
    let r := xlateVia a.2 leases t x.1 x.2 a.1.binds
    match r.1 with
    | .ok y => ({ a.1 with xl := nput a.1.xl (x.1 / ellBytes) { y with ppa := y.ppa - x.1 % ellBytes }, binds := r.2.1 }, r.2.2)
    | .fail f => ({ a.1 with fin := Fin.worse a.1.fin f, binds := r.2.1 }, r.2.2)
    | .wait w => ({ a.1 with waits := if a.1.waits.contains w then a.1.waits else a.1.waits ++ [w], binds := r.2.1 }, r.2.2))
    (⟨Fin.ok, [], [], binds⟩, s)

/-- The translation of one byte among translated ells. -/
def xlAt (m : NMap Xl) (pva : Nat) : Option Xl := (nfind m (pva / ellBytes)).map (fun x => { x with ppa := x.ppa + pva % ellBytes })

/-- The extents whose in-flight count stands in the flight table: a slot holds the count of one extent (R189; DEDUCED, log 134). -/
def flightSlots (s : State) : List (Nat × Nat) := (s.xtu.flights.map (fun f => (f.tenant, f.start))).eraseDups

/-- The flight table of 16,384 slots has one for every extent that a translation adds (R189). -/
def flightRoom (s : State) (t : Nat) (xl : NMap Xl) : Bool :=
  let new := ((xl.map (fun x => (t, x.2.ext.pvaStart))).eraseDups).filter (fun k => !(flightSlots s).contains k)
  new == [] || decide ((flightSlots s).length + new.length ≤ 16384)

/-- Work counts in flight under every extent that it was translated through (R189). -/
def addFlights (s : State) (h : Holder) (uid num t : Nat) (xl : NMap Xl) : State :=
  { s with xtu := { s.xtu with flights := xl.foldl (fun l x =>
      let f : Flight := ⟨t, x.2.ext.pvaStart, h, uid, num, false⟩
      if l.contains f then l else l ++ [f]) s.xtu.flights } }

/-! Granules of the pool by translation -/

/-- Read one granule of an operand (R15, R17, R20, R37): zero-fill reads zeros; another node's granule comes from the command's
operand, or the read times out (R318). An operand granule that is poisoned, without data and with a status code for its guard stands
for the owner's answer of that status (R35, R445; DESIGN CHOICE, log 135). -/
def loadGran (s : State) (x : Xl) (env : NMap Gran) : (Gran ⊕ Fin) × State :=
  if x.zeroFill then (.inl zeroGran, s)
  else if ownerOf x.ppa ≠ s.dev.node then
    match nfind env (x.ppa / 64) with
    | some g => (if g.poison && g.data == [] && g.guard != 0 then .inr (Fin.atPpa (Status.ofCode g.guard) x.ppa) else .inl g, s)
    | none => (.inr (Fin.atPpa .timeout x.ppa), s)
  else
    let c := if x.coherent then ownAccess s x.ppa x.place x.keyTenant false env else (none, s)
    match c.1 with
    | some f => (.inr f, c.2)
    | none =>
      match locate c.2 x.place (localOf x.ppa) with
      | none => (.inr (Fin.atPpa .unmapped x.ppa), c.2)
      | some p => let r := memRead c.2 p x.ppa (dataKey c.2 x.keyTenant); (.inl r.1, r.2)

/-- Read the granules of ranges into a view: the view, the first poisoned PVA, the first failure, and the bytes read. -/
structure Loaded where
  view : NMap Gran
  poisonAt : Option Nat
  fin : Fin
  bytes : Nat
deriving DecidableEq, Repr

/-- Granule addresses of ranges, ascending and distinct. -/
def granAddrs (rs : List (Nat × Nat)) : List Nat :=
  (rs.foldl (fun (m : NMap Nat) r =>
    (List.range (if r.2 = 0 then 0 else (r.1 + r.2 - 1) / 64 + 1 - r.1 / 64)).foldl (fun m i => nput m (r.1 / 64 + i) 0) m) []).map
    (fun x => x.1 * 64)

/-- Load the granules of ranges, checking each guard (R81 step 3, R106). -/
def loadRanges (s : State) (xl : NMap Xl) (env : NMap Gran) (rs : List (Nat × Nat)) (l0 : Loaded) : Loaded × State :=
  (granAddrs rs).foldl (fun a pva =>
    match xlAt xl pva with
    | none => a
    | some x =>
      let r := loadGran a.2 x env
      match r.1 with
      | .inr f => ({ a.1 with fin := Fin.worse a.1.fin f }, r.2)
      | .inl g =>
        let b := a.1.bytes + (if x.zeroFill then 0 else 64)
        let fin := if granOk g then a.1.fin else Fin.worse a.1.fin (Fin.atPva .guardMismatch pva)
        ({ view := nput a.1.view (pva / 64) g, bytes := b, fin := fin,
           poisonAt := if g.poison && a.1.poisonAt.isNone then some pva else a.1.poisonAt }, r.2)) (l0, s)

/-- Nothing loaded. -/
def loaded0 : Loaded := ⟨[], none, Fin.ok, 0⟩

/-- Store one granule of this node's own (R17, R268): a coherent line is withdrawn from its holders first;
a lost granule takes nothing and the write ends POISONED (R256). -/
def storeLocal (s : State) (x : Xl) (g : Gran) (env : NMap Gran) : Option Fin × State :=
  let c := if x.coherent then ownAccess s x.ppa x.place x.keyTenant true env else (none, s)
  match c.1 with
  | some f => (some f, c.2)
  | none =>
    match locate c.2 x.place (localOf x.ppa) with
    | none => (some (Fin.atPpa .unmapped x.ppa), c.2)
    | some p =>
      if isLost c.2 p then (some (Fin.atPpa .poisoned x.ppa), c.2) else (none, memStore c.2 p x.ppa g (dataKey c.2 x.keyTenant))

end Sys2Proof.Machine
end

