-- ==== Sys2Proof/Machine/Replay.lean ====
section
/-!
DEFINITION. Machine/Replay.lean: the recent-completions cache (spec 14 R319, R320) and the atomic operation at its owning
node (spec 05 R107, R117, R118).
-/
namespace Sys2Proof.Machine
open Sys2Proof

/-- Entries of the cache (R319). -/
def rcSize : Nat := 16384

/-- How long an entry lives, in nanoseconds (R320). -/
def rcLifeNs : Nat := 64000000

/-- The live entry of a tenant, request and type (R319, R320). -/
def rcFind (s : State) (tenant reqId ptype : Nat) : Option RcEnt :=
  if !feature s 8 then none
  else s.nie.rc.find? (fun e => e.tenant == tenant && e.reqId == reqId && e.ptype == ptype && decide (s.nowNs < e.writtenNs + rcLifeNs))

/-- NIE_RC_USED shows the entries in use. -/
def rcView (s : State) : State := setF s Reg.nieRcUsed_used s.nie.rc.length

/-- Drop entries that have expired (R320). -/
def rcSweep (s : State) : State :=
  rcView { s with nie := { s.nie with rc := s.nie.rc.filter (fun e => decide (s.nowNs < e.writtenNs + rcLifeNs)) } }

/-- The types of batch whose result is recorded (R319): SCATTER_ADD, and REDUCE or MOE_COMBINE that accumulate. -/
def batchRecorded (raw : Nat) : Bool :=
  hOpcode raw == 0x13 || (hOpcode raw == 0x15 && dbit raw 0x1C 6) || (hOpcode raw == 0x2A && dbit raw 0x46 0)

/-- Recorded requests that execute here: each holds the entry that its result will take (R319, R320). -/
def rcHeld (s : State) : Nat :=
  (s.nme.remote.filter (fun x => s.qmg.descs.any (fun d => d.uid == x.1 && batchRecorded d.raw))).length
    + (s.xtu.publishes.filter (fun p => p.reply.isSome)).length + (s.xtu.pubQ.filter (fun w => w.reply.isSome)).length

/-- The cache has a free entry (R320). -/
def rcRoom (s : State) : Bool := decide ((rcSweep s).nie.rc.length + rcHeld s < rcSize)

/-- Microseconds until the oldest entry expires (R320). -/
def rcWaitUs (s : State) : Nat :=
  let oldest := s.nie.rc.foldl (fun a e => min a e.writtenNs) s.nowNs
  ceilUs (oldest + rcLifeNs - s.nowNs)

/-- A recorded request that finds no free entry is counted and ends BUSY (R320). -/
def rcFull (s : State) : Fin × State :=
  (⟨.busy, 0, .none, rcWaitUs s⟩, setF s Reg.nieRcUsed_refused (satAdd 16 (getF s Reg.nieRcUsed_refused) 1))

/-- Record the result of an executed request, when REPLAY_CACHE is committed (R319). -/
def rcPut (s : State) (e : RcEnt) : State :=
  if !feature s 8 || decide (rcSize ≤ (rcSweep s).nie.rc.length) then s
  else rcView { rcSweep s with nie := { (rcSweep s).nie with rc := (rcSweep s).nie.rc ++ [e] } }

/-- What an atomic operation came to: its end, the old value, the stored bit, and whether it was answered from the cache. -/
structure AtomRes where
  fin : Fin
  old : Nat
  stored : Bool
  replayed : Bool
deriving DecidableEq, Repr

/-- Replace the 8 bytes at an aligned offset of a granule under a fresh guard (R117). -/
def setWord (g : Gran) (off v : Nat) : Gran := freshGran (g.data.take off ++ natToLe 8 v ++ g.data.drop (off + 8))

/-- The shared arbiter grants one update of a granule to the requester at a position (R107, R226). -/
def grantUpdate (s : State) (pos : Nat) : State :=
  { s with smc := { s.smc with granArb := arbOne (arbN s Reg.xbarArbCtl_n_home) s.smc.granArb pos } }

/-- The position of an engine at a granule of this node: its own place through its stack's switch, or the XBAR port of its stack (R222,
R226). -/
def enginePos (s : State) (eng : Nat) (x : Xl) : Nat :=
  let st := match locate s x.place (localOf x.ppa) with | some p => stackOf p | none => eng / 8
  if st = eng / 8 then 32 + eng % 8 else if eng / 8 < 6 then 8 + eng / 8 else 18 + eng / 8

/-- Execute an atomic operation on the aligned word at x (R107, R117): the read-modify-write is one step. -/
def atomicWord (s : State) (x : Xl) (pva op operand compare : Nat) (env : NMap Gran) : AtomRes × State :=
  let base := { x with ppa := x.ppa / 64 * 64 }
  let c := if x.coherent then ownAccess s base.ppa x.place x.keyTenant true env else (none, s)
  match c.1 with
  | some f => (⟨f, 0, false, false⟩, c.2)
  | none =>
    let r := loadGran c.2 { base with coherent := false } env
    match r.1 with
    | .inr f => (⟨f, 0, false, false⟩, r.2)
    | .inl g =>
      if g.poison then (⟨Fin.atPva .poisoned (pva / 64 * 64), 0, false, false⟩, r.2)
      else if !granOk g then (⟨Fin.atPva .guardMismatch (pva / 64 * 64), 0, false, false⟩, r.2)
      else
        let off := x.ppa % 64
        let old := leToNat ((g.data.drop off).take 8)
        let n := atomicNew op old operand compare
        let s := if n.2 then (storeLocal r.2 { base with coherent := false } (setWord g off n.1) env).2 else r.2
        (⟨Fin.ok, old, n.2, false⟩, s)

/-- An atomic operation at its owning node, exactly once while REPLAY_CACHE is committed (R118, R319, R320). -/
def atomicAt (s : State) (tenant reqId src pos : Nat) (x : Xl) (pva op operand compare : Nat) (env : NMap Gran) : AtomRes × State :=
  match rcFind s tenant reqId 0x03 with
  | some e => (⟨⟨.replayed, e.addr, e.kind, e.st % 256 + e.hint⟩, e.value, bitOf e.hint 8, true⟩, s)
  | none =>
    if feature s 8 && !rcRoom s then let b := rcFull s; (⟨b.1, 0, false, false⟩, b.2)
    else
      let r := atomicWord (grantUpdate s pos) x pva op operand compare env
      let f := busFin r.2 tenant r.1.fin
      (r.1, rcPut r.2 ⟨tenant, reqId, 0x03, src, f.st.code, b2n r.1.stored * 256, 0, r.1.old, f.addr, f.kind, r.2.nowNs⟩)

end Sys2Proof.Machine
end

