-- ==== Sys2Proof/Machine/Tiles.lean ====
section
/-!
DEFINITION. Machine/Tiles.lean: a tile on an engine, from its queue to its retirement (spec 04 R76 to R92, spec 05 R100 to R107, R117,
R118), as operations that the tile commands and the operator commands share.
-/
namespace Sys2Proof.Machine
open Sys2Proof

/-! Engines (R76, R82, R94) -/

/-- Logical engine n has a slot. -/
def engOn (s : State) (n : Nat) : Bool := getF s Reg.nmeStatus_state n != 2

/-- The tile of an ATOMIC that another node carries out stands at this number, beyond the engines (R117). -/
def farEngine : Nat := 96

/-- Tiles queued at engine n. -/
def queuedAt (s : State) (n : Nat) : Nat := (s.nme.tiles.filter (fun t => t.engine == n && t.step == 0)).length

/-- The engine with the fewest queued tiles, the lower number on a tie. -/
def leastQueued (s : State) (es : List Nat) : Option Nat :=
  es.foldl (fun (a : Option Nat) e => match a with
    | some b => if queuedAt s e < queuedAt s b then some e else a
    | none => some e) none

/-- The engine of this node with the fewest queued tiles. -/
def anyEngine (s : State) : Nat := (leastQueued s ((List.range 96).filter (engOn s))).getD 0

/-- The engine of a tile whose anchor lies on a channel of a stack of this node (R82, R94). A stack with no engine in service is served by
the node's engine with the fewest queued tiles (DESIGN CHOICE, log 40: R94 names engines of the same stack only). -/
def engineFor (s : State) (stack chan : Nat) : Nat :=
  let e := 8 * stack + chan / 4
  let same := ((List.range 8).map (fun k => 8 * stack + k)).filter (engOn s)
  if engOn s e && !(getB s Reg.nmeDispCtl_spill_en && decide (8 * max 1 (getF s Reg.nmeDispCtl_spill_depth) ≤ queuedAt s e)) then e
  else (leastQueued s same).getD (anyEngine s)

/-- An entry of the NME error ring (spec 04, R442): unit the logical engine, aux the physical slot. -/
def logNme (s : State) (cause e slot : Nat) (tenant : Option Nat) (reqId : Nat) : State :=
  logErr s ringNme cause ⟨tenant, 0, e, reqId + b2n tenant.isSome * 2 ^ 24, slot⟩

/-! The tiles of a descriptor (R80) -/

/-- A descriptor that stands for a batch of another node's tiles (R83): its queue number is no queue's. -/
def isBatch (d : Desc) : Bool := decide (65536 ≤ d.queue)

/-- The tiles of a descriptor, those of more than 16 extents halved (R80). -/
def tilesOf (d : Desc) : List Tile :=
  let ts := opTiles d.raw d.pre
  if d.leaves = [] then ts
  else d.leaves.filterMap (fun l =>
    ((ts[l.2.1]?).bind (fun t => atPath d.raw d.pre t splitFuel l.2.2)).map (fun t => { t with num := l.1 }))

/-- A tile of a descriptor by its number. -/
def tileOf (d : Desc) (num : Nat) : Option Tile := (tilesOf d).find? (fun t => t.num == num)

/-- The output units that a tile contributes a partial state to. -/
def tileUnits (raw : Nat) (p : Pre) (t : Tile) : List Nat :=
  match hOpcode raw with
  | 0x14 => if t.arg.headD 0 = 1 then [t.arg.getD 1 0] else dedupSort (t.arg.tail.map (bagOf p))
  | 0x20 => [t.arg.headD 0]
  | 0x22 => if t.arg.headD 0 = 1 then [t.arg.getD 1 0] else []
  | _ => []

/-- The first byte in each ell of ranges, with the right needed. -/
def rangeNeeds (n : Need) (rs : List (Nat × Nat)) : List (Nat × Need) := rs.flatMap (fun r => (ellCuts r.1 r.2).map (fun a => (a, n)))

/-- Addresses that a tile translates in step 2 with the rights it needs: what it reads and writes, the outputs of its units
included (R34, R81, R187). -/
def tileNeeds (raw : Nat) (p : Pre) (t : Tile) : List (Nat × Need) :=
  rangeNeeds .rd t.reads ++ rangeNeeds (selfNeed raw) t.selfReads ++ (writeNeeds raw).flatMap (fun n => rangeNeeds n t.writes)
    ++ (tileUnits raw p t).flatMap (fun u => rangeNeeds .wr (unitWrites raw u))
    ++ (if hOpcode raw = 0x16 ∧ dbit raw 0x30 4 = true then [(dfld raw 0x28 0 64, Need.wr)] else [])

/-! Ends of tiles -/

/-- The end of tile `num` joins its descriptor's (R65, R84, R100): the status that stands first, the lowest tile that carries it,
and the union of NUMERIC flags. -/
def mergeEnd (d : Desc) (num : Nat) (f : Fin) : Desc :=
  if f.st = .done then d
  else
    let flags := if f.st = .numeric then Nat.lor d.numFlags f.hint else d.numFlags
    let pick := d.fin.st == .done || decide (f.st.rank < d.fin.st.rank)
      || (f.st.rank == d.fin.st.rank && decide (num < d.faultTile))
    let fin := if pick then f else d.fin
    { d with fin := if fin.st = .numeric then { fin with hint := flags } else fin,
             faultTile := if pick then num else d.faultTile, numFlags := flags }

/-- Note the end of a tile. -/
def noteEnd (s : State) (uid num : Nat) (f : Fin) : State := modDesc s uid (fun d => mergeEnd d num f)

/-- Note that a tile met a poisoned input (R106), also where the tile then stops on another condition (R65, R160). -/
def notePoison (s : State) (uid num : Nat) (poisonAt : Option Nat) : State :=
  match poisonAt with | some a => noteEnd s uid num (Fin.atPva .poisoned a) | none => s

/-- A tile in steps 2 to 6 uses a stale lease (R92). -/
def tileStale (s : State) (t : TileRec) : Bool :=
  s.xtu.leases.any (fun l => l.stale && l.holder == .engine t.engine && l.uids.contains t.uid
    && t.xl.any (fun x => x.2.recPpa == l.recPpa))

/-- Engine e acknowledges the notices that have reached it once no tile uses a stale lease; the stale leases leave their slots (R92, R178). -/
def ackInvals (s : State) (e : Nat) : State :=
  if s.nme.tiles.any (fun t => t.engine == e && decide (2 ≤ t.step) && tileStale s t) then s
  else { s with xtu := { s.xtu with
      leases := s.xtu.leases.filter (fun l => !(l.stale && l.holder == .engine e))
      invals := s.xtu.invals.map (fun v => { v with waiting := v.waiting.filter (fun h => h ≠ .engine e) }) } }

/-- Contexts and buffers in use at engine e, as NME_n_STATUS shows them. -/
def engView (s : State) (e : Nat) : State :=
  if farEngine ≤ e then s else
    let live := s.nme.ctxs.filter (fun c => c.1 / 16 ≠ e || s.nme.tiles.any (fun t => t.uid == c.2 && t.engine == e))
    let s := { s with nme := { s.nme with ctxs := live } }
    let s := setF s Reg.nmeStatus_contexts (live.filter (fun c => c.1 / 16 == e)).length e
    setF s Reg.nmeStatus_buffers (s.nme.tiles.filter (fun t => t.engine == e && decide (2 ≤ t.step))).length e

/-- The record of a tile. -/
def tileRec (s : State) (uid num : Nat) : Option TileRec := s.nme.tiles.find? (fun t => t.uid == uid && t.tile.num == num)

/-- Change the record of one tile. -/
def modTile (s : State) (uid num : Nat) (f : TileRec → TileRec) : State :=
  { s with nme := { s.nme with tiles := s.nme.tiles.map (fun t => if t.uid == uid && t.tile.num == num then f t else t) } }

/-- Take a tile off its engine: its flights end, its leases go idle, its context may go (R81 step 6). -/
def removeTile (s : State) (uid num : Nat) : State :=
  match tileRec s uid num with
  | none => s
  | some tr =>
    let s := { s with
      nme := { s.nme with tiles := s.nme.tiles.filter (fun t => !(t.uid == uid && t.tile.num == num)) }
      xtu := { s.xtu with flights := s.xtu.flights.filter (fun f => !(f.uid == uid && f.tile == num && f.holder == .engine tr.engine)) } }
    engView (ackInvals s tr.engine) tr.engine

/-- A completion that waits for acknowledgements (R60, R122): barrier, or a producer whose slots are still pending. -/
def waitsAcks (d : Desc) : Bool := decide (0 < d.acksOut) && (hBarrier d.raw || d.slots != [])

/-- The end of a descriptor whose tiles are all over (R84). -/
def finOf (d : Desc) : Fin :=
  if d.fin.st ≠ .done then d.fin
  else if d.stopping then Fin.of .part
  else ⟨.done, 0, .none, opHint d.raw d.pre⟩

/-- Bytes padded with zeros into granules. -/
def padGrans (bs : List Byte) : List Gran :=
  (chop64 (cdiv bs.length 64) (bs ++ List.replicate ((64 - bs.length % 64) % 64) 0)).map freshGran

/-- The bytes of a partial state in a batch response: tile, unit, count and number of values, the flags with the mark of a state that is
poisoned as a whole, then each value with its poison mark (DESIGN CHOICE, log 41: the spec gives no format). -/
def partBytes (p : Part) : List Byte :=
  natToLe 4 p.tile ++ natToLe 4 p.unit ++ natToLe 4 p.cnt ++ natToLe 4 p.vals.length ++ natToLe 1 (p.fl + b2n p.bad * 128)
    ++ p.vals.flatMap (fun v => natToLe 4 v.1 ++ natToLe 1 (b2n v.2))

/-- Partial states from bytes, n of them. -/
def parseParts : Nat → List Byte → List Part
  | 0, _ => []
  | n + 1, bs =>
    let k := leToNat ((bs.drop 12).take 4)
    let vs := (List.range k).map (fun i => (leToNat ((bs.drop (17 + 5 * i)).take 4), leToNat ((bs.drop (21 + 5 * i)).take 1) == 1))
    let fl := leToNat ((bs.drop 16).take 1)
    ⟨leToNat (bs.take 4), leToNat ((bs.drop 4).take 4), leToNat ((bs.drop 8).take 4), vs, fl % 128, bitOf fl 7⟩
      :: parseParts n (bs.drop (17 + 5 * k))

/-- Answer a batch that is over: one BATCH_RSP with the status, the result bytes, the number of partial states with the tile that carries
the status, and the partial states (R83, R84, R319; the value is a DESIGN CHOICE, log 41). -/
def replyBatch (s : State) (d : Desc) : State :=
  match nfind s.nme.remote d.uid with
  | none => s
  | some p =>
    let s := { s with nme := { s.nme with remote := ndel s.nme.remote d.uid },
                      qmg := { s.qmg with descs := s.qmg.descs.filter (fun x => x.uid ≠ d.uid) } }
    let s := dropWork s d.uid
    let f := busFin s d.tenant (finOf d)
    let v := d.parts.length + d.faultTile * 2 ^ 32
    let s := if batchRecorded d.raw then
      rcPut s ⟨d.tenant, p.reqId, 0x05, p.src, f.st.code, f.hint, d.bytesDone, v, f.addr, f.kind, s.nowNs⟩ else s
    inject s (response s p 0x85 p.admClass f d.bytesDone v (padGrans (d.parts.flatMap partBytes)))

/-- Judge whether a descriptor is over (R84): the second phase of its tiles waits for dispatch once every tile of the first has
retired (R138, R141), or it completes. -/
def descCheck (s : State) (uid : Nat) : State :=
  match descOf s uid with
  | none => s
  | some d =>
    if d.phase ≠ .running || d.tilesOut ≠ [] then s
    else if isBatch d then (if d.acksOut = 0 then replyBatch s d else s)
    else if !d.stopping && d.nextTile == 1 && (tilesOf d).any (fun t => t.phase == 2)
        && (tilesOf d).all (fun t => t.phase == 2 || d.tilesOk.contains t.num) then
      modDesc s uid (fun x => { x with phase := .ready })
    else if waitsAcks d then modDesc s uid (fun x => { x with phase := .draining })
    else endDesc s d (finOf d) false

/-- Tiles of a descriptor that have not started go away (R91, R100); those in steps 2 to 6, and those of batches that were sent, stay. -/
def dropUnstarted (s : State) (uid : Nat) : State :=
  let started := (s.nme.tiles.filter (fun t => t.uid == uid && decide (2 ≤ t.step))).map (fun t => t.tile.num)
  let sent := (s.nme.batches.filter (fun b => b.uid == uid && b.sent)).flatMap (·.tiles)
  let ours : AdmItem → Bool := fun it => match it with | .tile u _ => u == uid | _ => false
  let es := (s.nme.tiles.filter (fun t => t.uid == uid && t.step == 0)).map (fun t => t.engine)
  let s := holdView { s with
    nme := { s.nme with tiles := s.nme.tiles.filter (fun t => !(t.uid == uid && t.step == 0)),
                        batches := s.nme.batches.filter (fun b => !(b.uid == uid && !b.sent)) }
    adm := { s.adm with hold := s.adm.hold.filter (fun h => !ours h.item), redo := s.adm.redo.filter (fun h => !ours h.item) }
    xtu := { s.xtu with held := s.xtu.held.filter (fun h => match h.item with | .tile u _ => u ≠ uid | _ => true) } }
  modDesc (es.foldl engView s) uid (fun d => { d with tilesOut := started ++ sent })

/-- A descriptor that met a stopping flag starts no further tile (R100, R160). -/
def stopNumeric (s : State) (uid : Nat) (f : Fin) : State :=
  if f.st ≠ .numeric then s else dropUnstarted (modDesc s uid (fun d => { d with stopping := true })) uid

/-- A tile is over without retiring. -/
def endTile (s : State) (uid num : Nat) (f : Fin) : State :=
  let s := noteEnd (removeTile s uid num) uid num f
  let s := modDesc s uid (fun d => { d with tilesOut := d.tilesOut.erase num })
  descCheck (stopNumeric s uid f) uid

/-! Writes (R17, R60, R81 step 5, R102, R232) -/

/-- Cut runs into pieces by granule: address ÷ 64, offset, bytes, poison. -/
def runCuts (r : Run) : List (Nat × Nat × List Byte × Bool) :=
  if r.data = [] then [] else
    (List.range ((r.pva + r.data.length - 1) / 64 + 1 - r.pva / 64)).map (fun i =>
      let g := r.pva / 64 + i
      let lo := max r.pva (g * 64)
      let hi := min (r.pva + r.data.length) (g * 64 + 64)
      (g, lo - g * 64, (r.data.drop (lo - r.pva)).take (hi - lo), r.poison))

/-- Replace bytes of a list from an offset on. -/
def patch (bs : List Byte) (off : Nat) (new : List Byte) : List Byte := bs.take off ++ new ++ bs.drop (off + new.length)

/-- Pieces grouped by granule. -/
def groupCuts (cs : List (Nat × Nat × List Byte × Bool)) : NMap (List (Nat × List Byte) × Bool) :=
  cs.foldl (fun m c =>
    let old := ngetD ([], false) m c.1
    nput m c.1 (old.1 ++ [(c.2.1, c.2.2.1)], old.2 || c.2.2.2)) []

/-- The granule that pieces make over an old one; a fresh guard, or poison (R17, R102). A poisoned old granule makes the merged one
poisoned and is not reported as a poisoned input (DESIGN CHOICE, log 133). -/
def mergeGran (old : Gran) (ps : List (Nat × List Byte)) (poison : Bool) : Gran :=
  if poison || old.poison then poisonGran
  else freshGran (ps.foldl (fun b p => patch b p.1 p.2) (if old.data = [] then List.replicate 64 0 else old.data))

/-- The write of granule g of a result: whole, or in part over the old granule, which is read and guard-checked first unless the descriptor
rewrites it whole (R102, R124) or the new bytes are poisoned. -/
def buildWrite (s : State) (x : Xl) (env : NMap Gran) (whole : Bool) (g : Nat) (ps : List (Nat × List Byte)) (poison : Bool) :
    (GWrite ⊕ Fin) × State :=
  if 64 ≤ (ps.map (fun p => p.2.length)).sum then (.inl ⟨g * 64, x, mergeGran zeroGran ps poison, [], poison⟩, s)
  else if poison then (.inl ⟨g * 64, x, poisonGran, ps, true⟩, s)
  else
    let q := loadGran s x env
    match q.1 with
    | .inr f => (.inr f, q.2)
    | .inl old =>
      if whole then (.inl ⟨g * 64, x, mergeGran (if old.poison || !granOk old then zeroGran else old) ps false, ps, false⟩, q.2)
      else if !granOk old then (.inr (Fin.atPva .guardMismatch (g * 64)), q.2)
      else (.inl ⟨g * 64, x, mergeGran old ps false, ps, false⟩, q.2)

/-- The writes that a result needs (R81 step 5, R102); `whole` says which granules the descriptor rewrites whole. -/
def buildWrites (s : State) (xl : NMap Xl) (env : NMap Gran) (whole : Nat → Bool) (out : CompOut) : (List GWrite ⊕ Fin) × State :=
  let asIs : List GWrite := out.grans.filterMap (fun g => (xlAt xl (g.1 * 64)).map (fun x => ⟨g.1 * 64, x, g.2, [], g.2.poison⟩))
  (groupCuts (out.runs.flatMap runCuts)).foldl (fun (a : (List GWrite ⊕ Fin) × State) g =>
    match a.1, xlAt xl (g.1 * 64) with
    | .inl ws, some x =>
      let r := buildWrite a.2 x env (whole g.1) g.1 g.2.1 g.2.2
      (match r.1 with | .inl w => .inl (ws ++ [w]) | .inr f => .inr f, r.2)
    | _, _ => a) (.inl asIs, s)

/-- A granule that a descriptor rewrites whole through several tiles and has not written yet: its old poison or failing guard does not count
(R124). A descriptor spread over nodes keeps it, since no node sees the others' writes (DESIGN CHOICE, log 133). -/
def firstTouch (d : Desc) (g : Nat) : Bool :=
  !d.spread && !d.touched.contains g
    && (opWhole d.raw d.pre).any (fun r => decide (r.1 ≤ g * 64) && decide (g * 64 + 64 ≤ r.1 + r.2))

/-- The bytes of a write over a granule as it stands. -/
def overOld (w : GWrite) (old : Gran) (first : Bool) : Gran :=
  mergeGran (if first && (old.poison || !granOk old) then zeroGran else old) w.parts false

/-- A write to another node: WR_REQ with one granule, acknowledged later (R60, R318). A part of a granule is merged over the granule
that the command's operand shows, or over the one read in step 4. -/
def writeRemote (s : State) (d : Desc) (num : Nat) (env : NMap Gran) (w : GWrite) : State :=
  let g := match nfind env (w.xl.ppa / 64) with
    | some old => if w.parts = [] || w.poison || !granOk old then w.gran else overOld w old false
    | none => w.gran
  let r := nextReqId s
  let p : Pkt := { pkt0 s (ownerOf w.xl.ppa) 0x02 0 with
    tenant := d.tenant, reqId := r.1, addr := w.xl.ppa, isPpa := true, admClass := d.cls, icls := w.xl.place.icls,
    affEn := w.xl.place.affEn, affStack := w.xl.place.affStack, keyTenant := w.xl.keyTenant, body := 64, data := [g] }
  modDesc (sendReq r.2 p none (some d.uid) num (some (w.pva / ellBytes))) d.uid (fun x => { x with acksOut := x.acksOut + 1 })

/-- A write on this node. A granule written in part takes what stands in it now (R102), the line being withdrawn from its holders first
(R268); a guard that fails then is noted, and the write is lost. -/
def storeWrite (s : State) (uid num : Nat) (env : NMap Gran) (w : GWrite) : State :=
  let put := fun (s : State) (x : Xl) (g : Gran) =>
    let r := storeLocal s x g env
    match r.1 with
    | some f => noteEnd r.2 uid num f
    | none => r.2
  if w.parts = [] || w.poison then put s w.xl w.gran
  else
    let first := match descOf s uid with | some d => firstTouch d (w.pva / 64) | none => false
    let c := if w.xl.coherent then ownAccess s w.xl.ppa w.xl.place w.xl.keyTenant true env else (none, s)
    match c.1 with
    | some f => noteEnd c.2 uid num f
    | none =>
      let x := { w.xl with coherent := false }
      let q := loadGran c.2 x env
      match q.1 with
      | .inr f => noteEnd q.2 uid num f
      | .inl old =>
        if !first && !granOk old then noteEnd q.2 uid num (Fin.atPva .guardMismatch w.pva)
        else
          let s := put q.2 x (overOld w old first)
          if first then modDesc s uid (fun d => { d with touched := d.touched ++ [w.pva / 64] }) else s

/-- The lines of a block are withdrawn from their holders; false where one of them cannot be (R268). -/
def withdrawBlock (s : State) (ws : List GWrite) (env : NMap Gran) : Bool × State :=
  ws.foldl (fun a w =>
    if !a.1 || !w.xl.coherent then a
    else let c := ownAccess a.2 w.xl.ppa w.xl.place w.xl.keyTenant true env; (c.1.isNone, c.2)) (true, s)

/-- Writes that make one whole aligned 4 KiB block in one place of this node: where, its PPA, the granules and the key (R232). -/
def blockWrite (s : State) (ws : List GWrite) : Option (Nat × Nat × List Gran × Nat) :=
  match ws with
  | [] => none
  | w :: _ =>
    if ws.length = 64 ∧ w.pva % 4096 = 0 ∧ ws.all (fun x => x.parts = []) = true ∧ ownerOf w.xl.ppa = s.dev.node ∧ 4096 ≤ chanUnit s w.xl.place then
      ((locate s w.xl.place (localOf w.xl.ppa)).filter (fun p => !isLost s p)).map (fun p => (p, w.xl.ppa, ws.map (·.gran), w.xl.keyTenant))
    else none

/-- Writes by 4 KiB block. -/
def byBlock (ws : List GWrite) : NMap (List GWrite) :=
  ws.foldl (fun m w => nput m (w.pva / 4096) (ngetD [] m (w.pva / 4096) ++ [w])) []

/-- The writes of one block one by one. -/
def issueEach (s : State) (uid num : Nat) (env : NMap Gran) (ws : List GWrite) : State :=
  ws.foldl (fun s w =>
    if ownerOf w.xl.ppa ≠ s.dev.node then (match descOf s uid with | some d => writeRemote s d num env w | none => s)
    else storeWrite s uid num env w) s

/-- Issue writes (R81 step 5, R198); a write that fails at its home is noted for the tile or piece. -/
def issueAll (s : State) (uid num : Nat) (env : NMap Gran) (ws : List GWrite) : State :=
  (byBlock ws).foldl (fun s b =>
    match blockWrite s b.2 with
    | some (p, a, gs, key) =>
      let c := withdrawBlock s b.2 env
      if c.1 then memStoreBlock c.2 p a gs (dataKey c.2 key) else issueEach c.2 uid num env b.2
    | none => issueEach s uid num env b.2) s

/-- Issue writes of a tile on an engine (R81 step 5). -/
def issueWrites (s : State) (uid num eng : Nat) (env : NMap Gran) (ws : List GWrite) : State :=
  issueAll (if farEngine ≤ eng then s else bump s Reg.nmeWrBytes_count (64 * ws.length) eng) uid num env ws

/-- The first n writes and the rest; a block of 64 granules is one write (R232). -/
def splitWrites (n : Nat) (ws : List GWrite) : List GWrite × List GWrite :=
  let begun := ((byBlock (ws.take n)).map (·.1)).filter (fun b => (ngetD [] (byBlock ws) b).length == 64)
  let go := (ws.zipIdx).partition (fun x => decide (x.2 < n) || begun.contains (x.1.pva / 4096))
  (go.1.map (·.1), go.2.map (·.1))

/-! Leases (R90) -/

/-- Records that an engine's running tiles hold leases on: tenant and record. -/
def leasesInUse (s : State) (e : Nat) : List (Nat × Nat) :=
  ((s.nme.tiles.filter (fun t => t.engine == e && decide (2 ≤ t.step))).flatMap (fun t =>
    t.xl.map (fun x => (((descOf s t.uid).map (·.tenant)).getD 0, x.2.recPpa)))).eraseDups

/-- A tile of tenant t acquires every lease it needs, or none where the 32 slots do not suffice: idle leases leave, least recently used first
(R90). Leases stand in the order of their use. -/
def takeLeases (s : State) (e uid t : Nat) (xl : NMap Xl) : Option State :=
  let mine := s.xtu.leases.filter (fun l => l.holder == .engine e)
  let live : Lease → Nat → Bool := fun l k => l.holder == .engine e && l.tenant == t && l.recPpa == k && !l.stale
  let need := (xl.map (fun x => x.2.recPpa)).eraseDups
  let new := need.filter (fun k => !mine.any (fun l => live l k))
  let idle := mine.filter (fun l => !(leasesInUse s e).contains (l.tenant, l.recPpa) && !need.any (live l))
  let out := mine.length + new.length - 32
  if idle.length < out then none
  else
    let rest := s.xtu.leases.filter (fun l => !(idle.take out).contains l && !need.any (live l))
    let used := need.filterMap (fun k =>
      match mine.find? (fun l => live l k) with
      | some l => some { l with uids := if l.uids.contains uid then l.uids else l.uids ++ [uid] }
      | none => ((xl.find? (fun x => x.2.recPpa == k)).map (fun x => ⟨.engine e, [uid], t, x.2.ext, k, s.xtu.epoch, false⟩)))
    some { s with xtu := { s.xtu with leases := rest ++ used } }

/-! Contexts (R86, R87) -/

/-- Contexts that one tenant may hold on an engine (R87). -/
def ctxLimit (s : State) : Nat := let v := getF s Reg.nmeDispCtl_ctx_per_tenant; if v = 0 then 16 else v

/-- The tenant of a descriptor. -/
def tenantOfDesc (s : State) (uid : Nat) : Nat := ((descOf s uid).map (·.tenant)).getD 0

/-- The generator of engine e may serve a context of tenant t: it was last seeded for t, or SEC draws a seed now (R152, R353). -/
def canSeed (s : State) (e t : Nat) : Bool := nfind s.nme.seeded e == some t || getB s Reg.secStatus_trng_ok

/-- Give queued descriptors at engine e the contexts that are free (R87, R226). -/
def giveCtxs (s : State) (e : Nat) : State :=
  (s.nme.tiles.filter (fun t => t.engine == e && t.step == 0)).foldl (fun s t =>
    let held := s.nme.ctxs.filter (fun c => c.1 / 16 == e)
    let tn := tenantOfDesc s t.uid
    let mine := held.filter (fun c => tenantOfDesc s c.2 == tn)
    if held.any (fun c => c.2 == t.uid) || decide (ctxLimit s ≤ mine.length) || !canSeed s e tn then s
    else match (List.range 16).find? (fun i => held.all (fun c => c.1 ≠ e * 16 + i)) with
      | some i => { s with nme := { s.nme with ctxs := nput s.nme.ctxs (e * 16 + i) t.uid, seeded := nput s.nme.seeded e tn } }
      | none => s) (engView s e)

/-- The next tile of a context: the lowest number (R86). -/
def nextOf (s : State) (e uid : Nat) : Option TileRec :=
  (s.nme.tiles.filter (fun t => t.engine == e && t.uid == uid && t.step == 0)).foldl (fun (a : Option TileRec) t => match a with
    | some b => if t.tile.num < b.tile.num then some t else a
    | none => some t) none

/-- The rank of a descriptor: qprio of its queue (R86); 0 for a batch, whose packet carries none (DESIGN CHOICE, log 41). -/
def rankOf (s : State) (uid : Nat) : Nat :=
  match descOf s uid with
  | some d => if isBatch d then 0 else (ctxOf s d.queue).qprio
  | none => 0

/-- An engine may start a tile: it is ACTIVE and has a tile buffer and a load free (R87). -/
def engReady (s : State) (e : Nat) : Bool :=
  let run := s.nme.tiles.filter (fun t => t.engine == e && decide (2 ≤ t.step))
  decide (e < 96) && getF s Reg.nmeStatus_state e == 0 && decide (run.length < 64)
    && decide ((run.filter (fun t => t.step == 2)).length < 48)

/-! Steps of a tile (R81) -/

/-- Bindings of a descriptor. -/
def setBinds (s : State) (uid : Nat) (b : List Bind) : State := modDesc s uid (fun d => { d with binds := b })

/-- A tile waits in translation, or ends BUSY when the fault buffer is full (R184). It resumes from its start. -/
def suspendTile (s : State) (d : Desc) (num : Nat) (ws : List HeldWhy) : State :=
  let s := removeTile s d.uid num
  let h := holdItem s d.tenant ws (.tile d.uid num)
  if h.1 then h.2 else let b := busyFin h.2; endTile b.2 d.uid num b.1

/-- The errors and the count of bytes that a tile's loads leave at its engine. -/
def noteLoad (s : State) (eng : Nat) (l : Loaded) : State :=
  let s := bump s Reg.nmeRdBytes_count l.bytes eng
  let s := if l.fin.st = .guardMismatch then setB s Reg.nmeErr_guard_in true eng else s
  if l.poisonAt.isSome then setB s Reg.nmeErr_poison_in true eng else s

/-- What translating all that a tile touches gave, and what it had to load to know it (R81 steps 1 and 2, R144). -/
structure TileXl where
  all : XAll
  more : List (Nat × Nat)
  load : Loaded
deriving DecidableEq, Repr

/-- Translate all that a tile reads and writes; the rows that a MOE_COMBINE's choices name are known once its own ranges are loaded. -/
def tileXlate (s : State) (e : Nat) (d : Desc) (t : Tile) (env : NMap Gran) : TileXl × State :=
  let mine := s.xtu.leases.filter (fun l => l.holder == .engine e)
  let x := xlateAll s mine d.tenant d.binds (tileNeeds d.raw d.pre t)
  if hOpcode d.raw ≠ 0x2A || x.1.fin.st ≠ .done || x.1.waits ≠ [] then (⟨x.1, [], loaded0⟩, x.2)
  else
    let l := loadRanges x.2 x.1.xl env t.reads loaded0
    let s := noteLoad l.2 e l.1
    let more := opMore d.raw t l.1.view
    if l.1.fin.st ≠ .done then (⟨{ x.1 with fin := l.1.fin }, [], l.1⟩, s)
    else
      let y := xlateAll s mine d.tenant x.1.binds (rangeNeeds .rd more)
      (⟨{ y.1 with xl := y.1.xl.foldl (fun m v => nput m v.1 v.2) x.1.xl }, more, l.1⟩, y.2)

/-- Steps 1 and 2 of a tile on engine e: all its leases or none (R81, R90, R187). It waits where it stands for a lease slot or a slot of the
flight table (R189). -/
def startTile (s : State) (tr : TileRec) (d : Desc) (env : NMap Gran) : State :=
  let e := tr.engine
  let num := tr.tile.num
  let x := tileXlate (attrib s 3 4 d.tenant) e d tr.tile env
  let a := x.1.all
  let s1 := setBinds x.2 d.uid a.binds
  if a.fin.st ≠ .done then endTile (notePoison s1 d.uid num x.1.load.poisonAt) d.uid num a.fin
  else if a.waits ≠ [] then suspendTile s1 d num a.waits
  else if !flightRoom s1 d.tenant a.xl then s
  else match takeLeases s1 e d.uid d.tenant a.xl with
    | none => s
    | some s2 =>
      let s := sampleFirst (addFlights s2 (.engine e) d.uid num d.tenant a.xl) true d.uid a.xl
      engView (modTile s d.uid num (fun t => { t with
        step := 2, xl := a.xl, more := x.1.more, view := x.1.load.view, poisonAt := x.1.load.poisonAt, since := s.nowNs })) e

/-- Step 3 of a tile: the operands not yet loaded (R81, R106). -/
def loadStep (s : State) (tr : TileRec) (d : Desc) (env : NMap Gran) : State :=
  let t := tr.tile
  let s := sampleStamp (attrib s 3 4 d.tenant) true d.uid 8
  let own := if hOpcode d.raw = 0x2A then t.selfReads ++ tr.more else t.reads ++ t.selfReads
  let l := loadRanges s tr.xl env own ⟨tr.view, tr.poisonAt, Fin.ok, 0⟩
  let s := noteLoad (telEvent (sampleStamp l.2 true d.uid 9) 0x22 tr.engine t.alen) tr.engine l.1
  if l.1.fin.st ≠ .done then endTile (notePoison s d.uid t.num l.1.poisonAt) d.uid t.num l.1.fin
  else modTile s d.uid t.num (fun x => { x with step := 3, view := l.1.view, poisonAt := l.1.poisonAt, since := s.nowNs })

/-- Draws set aside for the free values of one tile's results: those of its rounding, and those of its orders from orderDraws on (log 2). -/
def takeDraws (s : State) : Nat × State := (s.free, { s with free := s.free + 2 * orderDraws })

/-- What an ATOMIC does with the answer of its target (R117, R118): the hint, REPLAYED, and the write of the old value. -/
def atomicTail (s : State) (d : Desc) (num : Nat) (xl : NMap Xl) (env : NMap Gran) (r : AtomRes) :
    ((List GWrite × List Part) ⊕ Fin) × State :=
  if r.fin.st ≠ .done && !(r.fin.st == .replayed && r.fin.hint % 256 == 0) then (.inr r.fin, s)
  else
    let s := modDesc s d.uid (fun x => { x with pre := ⟨[], [b2n r.stored * 256]⟩ })
    let s := noteEnd s d.uid num r.fin
    if dbit d.raw 0x30 4 then
      let w := buildWrites s xl env (fun _ => false) (compRuns [⟨dfld d.raw 0x28 0 64, natToLe 8 r.old, false⟩] 0)
      (match w.1 with | .inl ws => .inl (ws, []) | .inr f => .inr f, w.2)
    else (.inl ([], []), s)

/-- An ATOMIC whose target lies on this node (R117). -/
def computeAtomic (s : State) (d : Desc) (eng num : Nat) (xl : NMap Xl) (env : NMap Gran) : ((List GWrite × List Part) ⊕ Fin) × State :=
  let tgt := dfld d.raw 0x10 0 64
  match xlAt xl tgt with
  | none => (.inr (Fin.atPva .unmapped tgt), s)
  | some x =>
    let r := atomicAt s d.tenant d.reqId s.dev.node (enginePos s eng x) x tgt (dfld d.raw 0x30 0 4) (dfld d.raw 0x18 0 64)
      (dfld d.raw 0x20 0 64) env
    atomicTail r.2 d num xl env r.1

/-- Granules of ranges that lie on this node. -/
def ownRanges (s : State) (xl : NMap Xl) (rs : List (Nat × Nat)) : List (Nat × Nat) :=
  ((granAddrs rs).filter (fun a => match xlAt xl a with | some x => ownerOf x.ppa == s.dev.node | none => false)).map (fun a => (a, 64))

/-- The update of SCATTER_ADD in step 5: the sums are formed again on the table as it now stands, for the granules that this node owns, and
the shared arbiter orders each of them (R107, R226, R449). -/
def scatterAgain (s : State) (d : Desc) (eng : Nat) (tr : TileRec) (base : Nat) (env : NMap Gran) : ((List GWrite × List Part) ⊕ Fin) × State :=
  let l := loadRanges s tr.xl env (ownRanges s tr.xl tr.tile.selfReads) loaded0
  let s := notePoison l.2 d.uid tr.tile.num l.1.poisonAt
  if l.1.fin.st ≠ .done then (.inr l.1.fin, s)
  else
    let out := opCompute d.raw d.pre tr.tile (l.1.view.foldl (fun m e => nput m e.1 e.2) tr.view) base
    let f : CompOut × State := if opOverlap d.raw d.pre then let b := takeDraws s; (freeOut out b.1, b.2) else (out, s)
    let mine : CompOut := { f.1 with runs := ((f.1.runs.flatMap runCuts).filter (fun c =>
        match xlAt tr.xl (c.1 * 64) with | some x => ownerOf x.ppa == f.2.dev.node | none => false)).map (fun c => ⟨c.1 * 64 + c.2.1, c.2.2.1, c.2.2.2⟩) }
    let w := buildWrites f.2 tr.xl env (fun _ => false) mine
    match w.1 with
    | .inr f => (.inr f, w.2)
    | .inl ws => (.inl (ws, []), ws.foldl (fun s x => grantUpdate s (enginePos s eng x.xl)) w.2)

/-- Step 4 and the reads of step 5: writes and partial states, or the tile's end (R81, R100, R103, R106). -/
def computeTile (s : State) (d : Desc) (tr : TileRec) (env : NMap Gran) : ((List GWrite × List Part) ⊕ Fin) × State :=
  if hOpcode d.raw = 0x16 then computeAtomic s d tr.engine tr.tile.num tr.xl env else
  let b := takeDraws s
  let out := opCompute d.raw d.pre tr.tile tr.view b.1
  match out.stop with
  | some f => (.inr f, b.2)
  | none =>
    if Nat.land out.fl (ncStop (opNumctl d.raw)) ≠ 0 then (.inr ⟨.numeric, 0, .none, out.fl⟩, b.2)
    else if hOpcode d.raw = 0x13 then scatterAgain b.2 d tr.engine tr b.1 env
    else
      let f : CompOut × State := if opOverlap d.raw d.pre then let c := takeDraws b.2; (freeOut out c.1, c.2) else (out, b.2)
      let w := buildWrites f.2 tr.xl env (firstTouch d) f.1
      (match w.1 with | .inl ws => .inl (ws, f.1.parts) | .inr f => .inr f, w.2)

/-- Errors of the scratchpad while a tile computes (R77): corrected ones are counted, and an uncorrectable one poisons its granule. -/
def scratchErrs (s : State) (tr : TileRec) (d : Desc) (corrected : Nat) (bad : List Nat) : TileRec × State :=
  let e := tr.engine
  let s := if corrected = 0 then s
    else setF (setB s Reg.nmeErr_sp_corrected true e) Reg.nmeErr_corrected_count (satAdd 16 (getF s Reg.nmeErr_corrected_count e) corrected) e
  let hit := (dedupSort bad).filter (fun g => (nfind tr.view g).isSome)
  match hit with
  | [] => (tr, s)
  | g :: _ =>
    let s := hit.foldl (fun s _ => logNme s 1 e (getF s Reg.nmeStatus_phys_slot e) (some d.tenant) d.reqId) (setB s Reg.nmeErr_sp_uncorrected true e)
    ({ tr with view := hit.foldl (fun v g => nput v g poisonGran) tr.view,
               poisonAt := some (match tr.poisonAt with | some a => min a (g * 64) | none => g * 64) }, s)

/-- Steps 4 and 5 of a tile (R81, R100): it judges its flags and issues its first `issued` writes, or stops. The updates of SCATTER_ADD
issue all at once (R107). -/
def computeStep (s : State) (tr : TileRec) (d : Desc) (issued corrected : Nat) (bad : List Nat) (env : NMap Gran) : State :=
  let num := tr.tile.num
  let e := scratchErrs (attrib s 3 4 d.tenant) tr d corrected bad
  let c := computeTile e.2 d e.1 env
  match c.1 with
  | .inr f => endTile (notePoison c.2 d.uid num e.1.poisonAt) d.uid num f
  | .inl (ws, parts) =>
    let q := splitWrites (if hOpcode d.raw = 0x13 then ws.length else issued) ws
    let s := issueWrites c.2 d.uid num tr.engine env q.1
    modTile s d.uid num (fun t => { t with step := 5, view := [], poisonAt := e.1.poisonAt, pend := q.2, parts := parts, since := s.nowNs })

/-- The accumulating engine of a unit: the one that owns the first granule of its output (R115, R129, R134). -/
def accEngine (s : State) (xl : NMap Xl) (raw u eng : Nat) : Nat :=
  match (unitWrites raw u).head?.bind (fun w => xlAt xl w.1) with
  | some x =>
    match (if ownerOf x.ppa = s.dev.node then locate s x.place (localOf x.ppa) else none) with
    | some p => 8 * stackOf p + chanOf p % 32 / 4
    | none => eng
  | none => eng

/-- The output of a unit from its partial states, with its first poisoned byte's granule where a state of it is poisoned as a whole (R95):
all of it is then written poisoned. -/
def unitOut (d : Desc) (u : Nat) (mine : List Part) (base : Nat) : CompOut × Option Nat :=
  let out := unitFinish d.raw u mine base
  if mine.any (·.bad) then
    ({ out with runs := out.runs.map (fun r => { r with poison := true }), fl := 0 },
     some ((((unitWrites d.raw u).map (·.1)).headD 0) / 64 * 64))
  else (out, none)

/-- A partial state reaches its accumulating engine; the unit's output is written once the last tile has contributed
(R115, R129, R134). -/
def combinePart (s : State) (uid eng : Nat) (xl : NMap Xl) (env : NMap Gran) (part : Part) : State :=
  let s := modDesc s uid (fun d => { d with parts := d.parts ++ [part] })
  match descOf s uid with
  | none => s
  | some d =>
    let mine := d.parts.filter (fun q => q.unit == part.unit)
    if isBatch d || !(unitTiles d.raw d.pre (tilesOf d) part.unit).all (fun n => mine.any (fun q => q.tile == n)) then s
    else
      let b := takeDraws s
      let o := unitOut d part.unit mine b.1
      let s := notePoison (modDesc b.2 uid (fun d => { d with parts := d.parts.filter (fun q => q.unit ≠ part.unit) })) uid part.tile o.2
      if Nat.land o.1.fl (ncStop (opNumctl d.raw)) ≠ 0 then
        let f : Fin := ⟨.numeric, 0, .none, o.1.fl⟩
        stopNumeric (noteEnd s uid part.tile f) uid f
      else
        let f : CompOut × State := if opOverlap d.raw d.pre then let c := takeDraws s; (freeOut o.1 c.1, c.2) else (o.1, s)
        let w := buildWrites f.2 xl env (firstTouch d) f.1
        match w.1 with
        | .inr f => noteEnd w.2 uid part.tile f
        | .inl ws =>
          let s := issueWrites w.2 uid part.tile (accEngine w.2 xl d.raw part.unit eng) env ws
          modDesc s uid (fun d => { d with bytesDone := d.bytesDone + unitBytes d.raw part.unit })

/-- The progress record once half of the result bytes are done (R70, R98); the retirement that ends a descriptor writes none, and a batch of
another node writes none here. -/
def halfCheck (s : State) (uid : Nat) : State :=
  match descOf s uid with
  | none => s
  | some d =>
    if !isBatch d && hIrqHalf d.raw && !d.halfDone && decide (opTotal d.raw d.pre / 2 ≤ d.bytesDone) then progressRecord s d d.bytesDone else s

/-- After tiles of a descriptor have joined it: whether it is over, and its half point. -/
def afterTiles (s : State) (uid : Nat) : State :=
  let s := descCheck s uid
  if ((descOf s uid).map (fun d => d.phase == .draining)).getD true then s else halfCheck s uid

/-- The result bytes of a tile join its descriptor (R81 step 6, R84, R106). -/
def countTile (s : State) (uid num bytes : Nat) (poisonAt : Option Nat) : State :=
  let s := sampleStamp (removeTile s uid num) true uid 10 true
  let s := notePoison s uid num poisonAt
  let s := modDesc s uid (fun d => { d with bytesDone := d.bytesDone + bytes, tilesOk := d.tilesOk ++ [num], tilesOut := d.tilesOut.erase num })
  afterTiles s uid

/-- Step 6 on an engine (R81): the writes left are issued, and the tile retires. -/
def retireStep (s : State) (tr : TileRec) (env : NMap Gran) : State :=
  let s := issueWrites s tr.uid tr.tile.num tr.engine env tr.pend
  countTile (bump s Reg.nmeTiles_count 1 tr.engine) tr.uid tr.tile.num tr.bytes tr.poisonAt

/-- The partial states of a tile reach their accumulating engines. -/
def combineAll (s : State) (tr : TileRec) (env : NMap Gran) : State :=
  tr.parts.foldl (fun s p => combinePart s tr.uid tr.engine tr.xl env p) (modTile s tr.uid tr.tile.num (fun t => { t with parts := [] }))

/-- A step of a tile, where it stands at step k. -/
def atStep (s : State) (uid num k : Nat) (f : State → TileRec → Desc → State) : State :=
  match tileRec s uid num, descOf s uid with
  | some tr, some d => if tr.step = k then f s tr d else s
  | _, _ => s

/-- Put a tile into the queue of an engine. -/
def enqueue (s : State) (uid e : Nat) (t : Tile) (bytes : Nat) : State :=
  { s with nme := { s.nme with tiles := s.nme.tiles ++ [{
      uid := uid, tile := t, engine := e, step := 0, xl := [], more := [], view := [], poisonAt := none, pend := [], parts := [],
      bytes := bytes, since := s.nowNs }] } }

/-- A queued tile of engine e goes through all its steps at once, where the engine may start it and it has a context; elsewhere it stays
queued. The engine's choice among its contexts is not asked (DESIGN CHOICE, log 40). -/
def runQueued (s : State) (uid num e : Nat) (env : NMap Gran) : State :=
  let s := giveCtxs s e
  if !engReady s e || !s.nme.ctxs.any (fun c => c.1 / 16 == e && c.2 == uid) then s
  else
    let s := atStep s uid num 0 (fun s tr d => startTile s tr d env)
    let s := atStep s uid num 2 (fun s tr d => loadStep s tr d env)
    let s := atStep s uid num 3 (fun s tr d => computeStep s tr d (2 ^ 20) 0 [] env)
    atStep s uid num 5 (fun s tr _ => atStep (combineAll s tr env) uid num 5 (fun s tr _ => retireStep s tr env))

/-- A tile of this node's engine e runs at once, or stays queued there. -/
def runTile (s : State) (uid e : Nat) (t : Tile) (bytes : Nat) (env : NMap Gran) : State := runQueued (enqueue s uid e t bytes) uid t.num e env

end Sys2Proof.Machine
end

