-- ==== Sys2Proof/Machine/TileWork.lean ====
section
/-!
DEFINITION. Machine/TileWork.lean: a descriptor on the engines: its pre-pass, its split into tiles, their placing, batches for other nodes
and stops (spec 04 R79 to R92, spec 05 R105, R117, R123), as operations that the commands share.
-/
namespace Sys2Proof.Machine
open Sys2Proof

/-! The pre-pass (R105, R123) -/

/-- What the pre-pass came to. -/
inductive PreRes where
  | ok (p : Pre)
  | fail (f : Fin)
  | wait (ws : List HeldWhy)
deriving DecidableEq, Repr

/-- What the entries are judged on: a granule whose guard fails holds nothing that may be judged, as a poisoned one. -/
def judged (v : View) : View := v.map (fun e => (e.1, if granOk e.2 then e.2 else poisonGran))

/-- One pass of the pre-pass: translate, read, check and evaluate (R105). Of several failing conditions R65 chooses. -/
def prePass (s : State) (d : Desc) (pass : Nat) (p : Pre) (env : NMap Gran) : PreRes × State :=
  let rs := opPreRanges d.raw pass p
  let x := xlateAll s [] d.tenant d.binds (rangeNeeds .rd rs)
  if x.1.fin.st = .done ∧ x.1.waits ≠ [] then (.wait x.1.waits, x.2)
  else
    let l := loadRanges (setBinds x.2 d.uid x.1.binds) x.1.xl env rs loaded0
    let poison := match l.1.poisonAt with | some a => Fin.atPva .poisoned a | none => Fin.ok
    let f := Fin.worse (Fin.worse x.1.fin poison) l.1.fin
    match opPreEval d.raw pass p (judged l.1.view) with
    | .inr g => (.fail (Fin.worse f g), l.2)
    | .inl q => (if f.st = .done then .ok q else .fail f, l.2)

/-- Both passes. -/
def prePasses (s : State) (d : Desc) (env : NMap Gran) : PreRes × State :=
  let a := prePass s d 0 ⟨[], []⟩ env
  match a.1 with
  | .ok p => match descOf a.2 d.uid with
    | some e => prePass a.2 e 1 p env
    | none => (.ok p, a.2)
  | _ => a

/-! The split (R80) -/

/-- The extents that addresses of a descriptor lie in, by lookups that bind nothing. -/
def extentsOf (s : State) (d : Desc) (needs : List (Nat × Need)) : List Nat :=
  (needs.filterMap (fun n => match (xlate s d.tenant n.1 n.2 d.binds).1 with | .ok x => some x.recPpa | _ => none)).eraseDups

/-- The rows that a tile of MOE_COMBINE reads, from its lists as the dispatcher reads them. -/
def combineRows (s : State) (d : Desc) (t : Tile) (env : NMap Gran) : List (Nat × Nat) :=
  let x := xlateAll s [] d.tenant d.binds (rangeNeeds .rd t.reads)
  opMore d.raw t (loadRanges x.2 x.1.xl env t.reads loaded0).1.view

/-- A tile touches more than 16 extents (R80). Those are looked up only where it touches more than 16 ells. -/
def wide (s : State) (d : Desc) (env : NMap Gran) (t : Tile) : Bool :=
  let needs := tileNeeds d.raw d.pre t
  let all := if hOpcode d.raw = 0x2A then needs ++ rangeNeeds .rd (combineRows s d t env) else needs
  decide (16 < ((all.map (fun n => n.1 / ellBytes)).eraseDups).length) && decide (16 < (extentsOf s d all).length)

/-- How the tiles of a descriptor are split further (R80): empty where none is; none where a single element touches more than 16 extents. -/
def leavesOf (s : State) (d : Desc) (env : NMap Gran) : Option (List (Nat × Nat × Nat)) :=
  let ts := opTiles d.raw d.pre
  if ts.all (fun t => !wide s d env t) then some []
  else
    ((ts.zipIdx).foldl (fun (a : Option (List (Nat × Nat))) x =>
      match a, splitTile d.raw d.pre (wide s d env) splitFuel 1 x.1 with
      | some l, some hs => some (l ++ hs.map (fun h => (x.2, h.1)))
      | _, _ => none) (some [])).map (fun l => (l.zipIdx).map (fun y => (y.2, y.1.1, y.1.2)))

/-! Where a tile goes (R82, R83) -/

/-- Where a tile goes. -/
inductive TilePlace where
  | engine (n : Nat)
  | node (n : Nat)
deriving DecidableEq, Repr

/-- The translation of an address by the first of the rights that reaches it; the lookup binds nothing. -/
def lookAt (s : State) (d : Desc) (a : Nat) : Option Xl :=
  (Need.rd :: writeNeeds d.raw).findSome? (fun n => match (xlate s d.tenant a n d.binds).1 with | .ok x => some x | _ => none)

/-- Place a tile by the first granule of its anchor (R82). An anchor that translates nowhere places the tile on the engine with the fewest
queued tiles (DESIGN CHOICE, log 40). -/
def placeTile (s : State) (d : Desc) (t : Tile) : TilePlace :=
  match lookAt s d t.anchor with
  | some x =>
    if x.zeroFill then .engine (anyEngine s)
    else if ownerOf x.ppa ≠ s.dev.node then .node (ownerOf x.ppa)
    else match locate s x.place (localOf x.ppa) with
      | some p => .engine (engineFor s (stackOf p) (chanOf p % 32))
      | none => .engine (anyEngine s)
  | none => .engine (anyEngine s)

/-- The node of a place. -/
def placeNode (s : State) : TilePlace → Nat
  | .engine _ => s.dev.node
  | .node n => n

/-- The nodes that run a tile: its anchor's; for SCATTER_ADD every node that owns a granule of the rows it updates, since each update is made
where the granule lies (R107; DESIGN CHOICE, log 42). -/
def tileNodes (s : State) (d : Desc) (t : Tile) : List Nat :=
  let home := placeNode s (placeTile s d t)
  if hOpcode d.raw ≠ 0x13 then [home]
  else (home :: (rangeNeeds .rmw t.selfReads).filterMap (fun n => (lookAt s d n.1).map (fun x => ownerOf x.ppa))).eraseDups

/-- The engine of this node for a tile, and the result bytes that count here: those of the tile, where its anchor lies here. -/
def tileHere (s : State) (d : Desc) (t : Tile) : Nat × Nat :=
  match placeTile s d t with
  | .engine e => (e, t.bytes)
  | .node _ => (anyEngine s, if hOpcode d.raw = 0x13 then 0 else t.bytes)

/-- A tile on this node: queued at its engine, or run at once with the operand of the command. -/
def tileGo (s : State) (d : Desc) (t : Tile) (now : Option (NMap Gran)) : State :=
  let h := tileHere s d t
  match now with
  | some env => runTile s d.uid h.1 t h.2 env
  | none => enqueue s d.uid h.1 t h.2

/-! Tile batches (R83) -/

/-- The image of a descriptor as granules. -/
def rawGrans (raw : Nat) : List Gran :=
  (chop64 (if opBig (hOpcode raw) then 2 else 1) (natToLe (if opBig (hOpcode raw) then 128 else 64) raw)).map freshGran

/-- The bytes that name a tile in a batch: its number, and where tiles were split further also the number before the split and the path of
halves (DESIGN CHOICE, log 41). -/
def tileName (d : Desc) (num : Nat) : List Byte :=
  if d.leaves = [] then natToLe 4 num
  else match d.leaves.find? (fun l => l.1 == num) with
    | some l => natToLe 4 l.1 ++ natToLe 4 l.2.1 ++ natToLe 4 l.2.2
    | none => natToLe 4 num ++ natToLe 8 0

/-- Tiles that one batch can carry beside the descriptor and the region pairs. -/
def batchRoom (d : Desc) : Nat := ((128 - (rawGrans d.raw).length) * 64 - 8 * d.binds.length) / (if d.leaves = [] then 4 else 12)

/-- The packet of a batch, under job 0: a descriptor of a queue belongs to no job (DESIGN CHOICE, log 41). -/
def batchPkt (s : State) (d : Desc) (b : Batch) : Pkt :=
  let pairs := d.binds.flatMap (fun x => natToLe 4 x.region ++ natToLe 4 x.version)
  { pkt0 s b.node 0x05 0 with
    tenant := d.tenant, reqId := d.reqId, admClass := d.cls,
    body := b.tiles.length % 65536 + d.binds.length % 256 * 65536 + (if d.leaves = [] then 0 else 2 ^ 24),
    data := rawGrans d.raw ++ padGrans (pairs ++ b.tiles.flatMap (tileName d)) }

/-- Send the oldest batch that waits for each node to which the descriptor has none outstanding, up to 256 batches outstanding
(R83; one batch to a node at a time keeps responses unambiguous, DESIGN CHOICE, log 41). -/
def sendBatches : Nat → State → Nat → State
  | 0, s, _ => s
  | n + 1, s, uid =>
    match descOf s uid with
    | none => s
    | some d =>
      let mine := s.nme.batches.filter (fun b => b.uid == uid)
      let out := mine.filter (·.sent)
      match mine.find? (fun b => !b.sent && !(out.any (fun o => o.node == b.node))) with
      | none => s
      | some b =>
        if 256 ≤ out.length then s
        else
          let s := sendReq (sampleStamp s true uid 6) (batchPkt s d b) none (some uid) 0
          let s := { s with nme := { s.nme with batches := s.nme.batches.map (fun x => if x = b then { x with sent := true } else x) } }
          sendBatches n s uid

/-- Put a tile into the last waiting batch of its node, or a new one. -/
def batchTile (s : State) (d : Desc) (node num : Nat) : State :=
  let s := modDesc s d.uid (fun x => { x with spread := true })
  match s.nme.batches.find? (fun b => b.uid == d.uid && b.node == node && !b.sent && decide (b.tiles.length < batchRoom d)) with
  | some b => { s with nme := { s.nme with batches := s.nme.batches.map (fun x => if x = b then { x with tiles := x.tiles ++ [num] } else x) } }
  | none => { s with nme := { s.nme with batches := s.nme.batches ++ [⟨d.uid, node, d.reqId, [num], false⟩] } }

/-! ATOMIC on another node (R117, R118) -/

/-- An ATOMIC whose target lies on another node: both addresses are translated, then the operation is sent there, and the tile stands beyond
the engines until the answer. -/
def atomicRemote (s : State) (d : Desc) (t : Tile) : State :=
  let x := xlateAll s [] d.tenant d.binds (tileNeeds d.raw d.pre t)
  let s := setBinds x.2 d.uid x.1.binds
  if x.1.fin.st ≠ .done then endTile s d.uid t.num x.1.fin
  else if x.1.waits ≠ [] then suspendTile s d t.num x.1.waits
  else if !flightRoom s d.tenant x.1.xl then suspendTile s d t.num [.slot]
  else match xlAt x.1.xl (dfld d.raw 0x10 0 64) with
    | none => s
    | some y =>
      let s := addFlights (enqueue s d.uid farEngine t t.bytes) (.engine farEngine) d.uid t.num d.tenant x.1.xl
      let s := modTile s d.uid t.num (fun r => { r with step := 5, xl := x.1.xl })
      sendReq s { pkt0 s (ownerOf y.ppa) 0x03 0 with
        tenant := d.tenant, reqId := d.reqId, addr := y.ppa, isPpa := true, admClass := d.cls, icls := y.place.icls,
        affEn := y.place.affEn, affStack := y.place.affStack, keyTenant := y.keyTenant,
        body := dfld d.raw 0x18 0 64 + dfld d.raw 0x20 0 64 * 2 ^ 64 + dfld d.raw 0x30 0 5 * 2 ^ 128 } none (some d.uid) t.num
        (some (dfld d.raw 0x10 0 64 / ellBytes))

/-- The answer to an ATOMIC sent to another node: the old value is written under the translation made before it was sent, and the tile ends. -/
def atomicReply (s : State) (uid num : Nat) (env : NMap Gran) (r : AtomRes) : State :=
  atStep s uid num 5 (fun s tr d =>
    let c := atomicTail s d num tr.xl env r
    match c.1 with
    | .inr f => endTile c.2 uid num f
    | .inl (ws, _) => countTile (issueAll c.2 uid num env ws) uid num tr.bytes none)

/-! Dispatch -/

/-- A tile for another node: an ATOMIC goes as its own request, any other in a batch (R83, R118). -/
def remoteTile (s : State) (d : Desc) (n : Nat) (t : Tile) : State :=
  if hOpcode d.raw = 0x16 then atomicRemote s d t else batchTile s d n t.num

/-- Send a tile to every node that runs it: each copy is outstanding by itself (R82, R83). A batch's tiles stay on its node. -/
def sendTile (s : State) (uid : Nat) (t : Tile) (now : Option (NMap Gran)) : State :=
  match descOf s uid with
  | none => s
  | some d =>
    let ns := if isBatch d then [s.dev.node] else tileNodes s d t
    let s := modDesc s uid (fun x => { x with tilesOut := x.tilesOut ++ List.replicate (ns.length - 1) t.num })
    let far := ns.filter (fun n => n ≠ s.dev.node)
    let s := far.foldl (fun s n => remoteTile s d n t) s
    if ns.contains s.dev.node then tileGo s d t now else s

/-- Queue a tile at an engine, or in a batch for another node (R82, R83). -/
def queueTile (s : State) (uid : Nat) (t : Tile) : State := sendTile s uid t none

/-- A tile that waited in translation starts again (R184): the copy of this node alone where others run too. -/
def resumeTile (s : State) (uid num : Nat) : State :=
  match descOf s uid with
  | none => s
  | some d => match tileOf d num with
    | none => s
    | some t => if hOpcode d.raw = 0x13 then tileGo s d t none else queueTile s uid t

/-- A descriptor may still start a tile. -/
def mayStart (d : Desc) (num : Nat) : Bool := !d.stopping && d.tilesOut.contains num

/-- Charge a tile by its anchor length and queue it, hold it, or keep it to be decided afresh (R324 to R327). -/
def chargeTile (s : State) (uid : Nat) (t : Tile) : State :=
  match descOf s uid with
  | none => s
  | some d =>
    if !mayStart d t.num then s
    else if t.alen = 0 then queueTile s uid t
    else
      let host := hostBkt s (queueEntry s d.queue)
      let r := decideCharge s host d.tenant t.alen false
      let s := if r.1.cls = 2 then r.2 else modDesc (countCls r.2 r.1.cls) uid (fun x => { x with cls := max x.cls r.1.cls })
      if r.1.cls = 2 then redoWork s d.tenant host t.alen r.1 (.tile uid t.num)
      else if r.1.waitNs = 0 then queueTile s uid t
      else holdWork s d.tenant host t.alen r.1 (.tile uid t.num)

/-- As chargeTile for a tile that runs inside one command; tiles of other nodes go into batches. -/
def inlineTile (s : State) (uid : Nat) (t : Tile) (env : NMap Gran) : State :=
  match descOf s uid with
  | none => s
  | some d =>
    if !mayStart d t.num then s
    else
      let c := if t.alen = 0 then (0, s) else chargeInline s (hostBkt s (queueEntry s d.queue)) d.tenant t.alen
      sendTile (modDesc c.2 uid (fun x => { x with cls := max x.cls c.1 })) uid t (some env)

/-- The order in which tiles of one descriptor run inside one command: free (R85, log 2). -/
def tileOrder (s : State) (ts : List Tile) : List Tile × State :=
  if ts.length ≤ 1 then (ts, s)
  else ((freeOrder s.free ts.length).filterMap (fun i => ts[i]?), { s with free := s.free + ts.length })

/-- A wait is for a region's set. -/
def isSet : HeldWhy → Bool
  | .set _ _ => true
  | _ => false

/-- Before its first batch a descriptor binds every region whose window overlaps an operand's range (R42, R445): the sets that it has to wait
for first. -/
def bindFar (s : State) (d : Desc) : List HeldWhy × State :=
  if hOpcode d.raw = 0x16 || (tilesOf d).all (fun t => (tileNodes s d t).all (fun n => n == s.dev.node)) then ([], s)
  else
    let whole := if hOpcode d.raw = 0x10 ∨ hOpcode d.raw = 0x11 then (tilesOf d).flatMap (fun t => t.reads ++ t.writes) else []
    let x := xlateAll s [] d.tenant d.binds (rangeNeeds .rd (opSrcs d.raw d.pre ++ opDests d.raw d.pre ++ whole))
    (x.1.waits.filter isSet, setBinds x.2 d.uid x.1.binds)

/-- Check and read what a ready descriptor needs before its first tile (R80, R105): true when it may go on. -/
def opOpen (s : State) (d : Desc) (env : NMap Gran) : Bool × State :=
  let stop := fun (s : State) (f : Fin) => (false, endDesc s d f false)
  let hold := fun (s : State) (ws : List HeldWhy) =>
    let h := holdItem s d.tenant ws (.desc d.uid)
    if h.1 then (false, modDesc h.2 d.uid (fun x => { x with phase := .held }))
    else let b := busyFin h.2; stop b.2 b.1
  if d.nextTile ≠ 0 then (true, s)
  else if opBad s d.raw || opPreLimit d.raw then stop s (Fin.of .badDescriptor)
  else
    let r := prePasses s d env
    match r.1 with
    | .ok p =>
      (match leavesOf r.2 { d with pre := p } env with
       | some ls =>
         let s := modDesc r.2 d.uid (fun x => { x with pre := p, leaves := ls })
         let b := bindFar s ((descOf s d.uid).getD d)
         if b.1 ≠ [] then hold b.2 b.1 else (true, b.2)
       | none => stop r.2 (Fin.of .badDescriptor))
    | .fail f => stop r.2 f
    | .wait ws => hold r.2 ws

/-- Open the next phase of a descriptor's tiles: the tiles, marked outstanding. -/
def openPhase (s : State) (uid : Nat) : List Tile × State :=
  match descOf s uid with
  | none => ([], s)
  | some d =>
    let all := tilesOf d
    let p1 := all.filter (fun t => t.phase == 1)
    let ph := if d.nextTile = 0 ∧ p1 ≠ [] then 1 else if d.nextTile = 0 ∧ (all.filter (fun t => t.phase == 2)) = [] then 1 else 2
    let ts := all.filter (fun t => t.phase == ph)
    (ts, modDesc s uid (fun x => { x with phase := .running, nextTile := ph, tilesOut := ts.map (·.num) }))

/-- Answer a batch that cannot run. -/
def batchFail (s : State) (uid : Nat) (f : Fin) : State :=
  match descOf s uid with
  | none => s
  | some d => replyBatch (modDesc s uid (fun _ => { d with fin := f })) { d with fin := f }

/-- Run a batch that stands ready: the operator's checks and pre-pass, then every tile on this node's engines under this chapter's rules
(R50, R83). -/
def runBatch (s : State) (uid : Nat) (env : NMap Gran) : State :=
  match descOf s uid with
  | none => s
  | some d =>
    let row := opRow d.opcode
    if d.phase ≠ .ready then s
    else if (row.map (·.unit)) ≠ some .engine || !(row.any (fun r => r.feat == 0 || feature s r.feat)) || opBad s d.raw || opPreLimit d.raw then
      batchFail s uid (Fin.of .badDescriptor)
    else
      let r := prePasses s d env
      match r.1 with
      | .fail f => batchFail r.2 uid f
      | .wait ws =>
        let h := holdItem r.2 d.tenant ws (.desc uid)
        if h.1 then modDesc h.2 uid (fun x => { x with phase := .held })
        else let b := busyFin h.2; batchFail b.2 uid b.1
      | .ok pre =>
        let s := modDesc r.2 uid (fun x => { x with pre := pre, phase := .running })
        let s := d.tilesOut.foldl (fun s n =>
          match descOf s uid with
          | none => s
          | some d => if !mayStart d n then s else match tileOf d n with
            | none => endTile s uid n (Fin.of .badDescriptor)
            | some t => sendTile s uid t (some env)) s
        descCheck s uid

/-- Dispatch a ready engine descriptor: every tile of its next phase is charged and placed (R80, R82). A batch that waited goes on. -/
def dispatchDesc (s : State) (uid : Nat) (env : NMap Gran) : State :=
  match descOf s uid with
  | none => s
  | some d =>
    if d.phase ≠ .ready then s
    else if isBatch d then runBatch s uid env
    else
      let o := opOpen s d env
      if !o.1 then o.2
      else
        let p := openPhase o.2 uid
        let s := p.1.foldl (fun s t => chargeTile s uid t) p.2
        descCheck (sendBatches 256 s uid) uid

/-- Run one phase of a ready engine descriptor inside one command. -/
def runPhase (s : State) (uid : Nat) (env : NMap Gran) : State :=
  match descOf s uid with
  | none => s
  | some d =>
    if d.phase ≠ .ready then s
    else
      let o := opOpen s d env
      if !o.1 then o.2
      else
        let p := openPhase o.2 uid
        let q := tileOrder p.2 p.1
        let s := q.1.foldl (fun s t => inlineTile s uid t env) q.2
        descCheck (sendBatches 256 s uid) uid

/-- Run a ready engine descriptor, both phases (R140). -/
def runDesc (s : State) (uid : Nat) (env : NMap Gran) : State := runPhase (runPhase s uid env) uid env

/-- The tiles of a batch are over: partial states are combined here and the result joins the descriptor (R83, R84, R129). `num` is the tile that
carries the status: the one the response names, or the batch's lowest where none did (DESIGN CHOICE, log 41). -/
def batchOver (s : State) (uid node : Nat) (f : Fin) (num : Option Nat) (bytes : Nat) (parts : List Part) (env : NMap Gran) : State :=
  match s.nme.batches.find? (fun b => b.uid == uid && b.node == node && b.sent), descOf s uid with
  | some b, some d =>
    let n := num.getD (b.tiles.foldl min (b.tiles.headD 0))
    let s := { s with nme := { s.nme with batches := s.nme.batches.erase b } }
    let x := xlateAll s [] d.tenant d.binds (parts.flatMap (fun q => rangeNeeds .wr (unitWrites d.raw q.unit)))
    let s := if x.1.fin.st = .done then setBinds x.2 uid x.1.binds else noteEnd x.2 uid n x.1.fin
    let s := if x.1.fin.st = .done then parts.foldl (fun s q => combinePart s uid (anyEngine s) x.1.xl env q) s else s
    let s := noteEnd s uid n f
    let ok := f.st = .done ∨ f.st = .poisoned ∨ f.st = .busError
    let s := modDesc s uid (fun y => { y with bytesDone := y.bytesDone + bytes, tilesOut := b.tiles.foldl (fun l n => l.erase n) y.tilesOut,
                                              tilesOk := if ok then y.tilesOk ++ b.tiles else y.tilesOk })
    afterTiles (sendBatches 256 (stopNumeric s uid f) uid) uid
  | _, _ => s

/-! Stops -/

/-- Stop an engine descriptor at the next tile boundary with a status (R74, R91, R372). -/
def stopEngine (s : State) (uid : Nat) (f : Fin) : State :=
  let s := modDesc s uid (fun d => { (if f.st = .part then d else mergeEnd d 0 f) with stopping := true })
  descCheck (dropUnstarted s uid) uid

end Sys2Proof.Machine
end

