-- ==== Sys2Proof/Machine/DmaOps.lean ====
section
/-!
DEFINITION. Machine/DmaOps.lean: the DMA engines (spec 09): what runs, the pieces of a transfer, host translations (spec 08
R180, R181), and how a transfer ends or stops.
-/
namespace Sys2Proof.Machine
open Sys2Proof

/-! What an engine runs -/

/-- Commands pending on channel 7 of engine e, the running one included (R208). -/
def migsOf (s : State) (e : Nat) : Nat :=
  (s.dma.migs.filter (fun m => m.engine == e)).length + (if (nfind s.dma.run (32 + e)).isSome then 1 else 0)

/-- DMA_e_STATUS and DMA_e_CH_PEND as they now read. -/
def dmaView (s : State) (e : Nat) : State :=
  let run := nfind s.dma.run e
  let mig := nfind s.dma.run (32 + e)
  let shown := match mig with | some m => some m | none => run
  let s := setB s Reg.dmaStatus_active shown.isSome e
  let s := setF s Reg.dmaStatus_channel ((shown.map (·.ch)).getD 0) e
  let s := setB s Reg.dmaStatus_suspended ((run.map (·.suspended)).getD false) e
  let q := match mig, run with
    | none, some r => ((descOf s r.uid).map (·.queue)).getD 0
    | _, _ => 0
  let s := setF s Reg.dmaStatus_queue q e
  let pend := (List.range 7).foldl (fun a c => a + (ngetD [] s.dma.chans (e * 8 + c)).length * 2 ^ (4 * c)) 0
  setF s Reg.dmaChPend_pend_c (pend + ((s.dma.migs.filter (fun m => m.engine == e)).length + (s.dma.mgts.filter (fun m => m.engine == e)).length) * 2 ^ 28) e

/-- DMA_MIG_RESULT shows the oldest result. -/
def migView (s : State) : State :=
  let r := s.dma.results.headD (0, 0)
  let s := setF s Reg.dmaMigResult_index r.1
  let s := setF s Reg.dmaMigResult_outcome r.2
  setB s Reg.dmaMigResult_valid (s.dma.results != [])

/-- An entry of the DMA error ring (R442). -/
def logDma (s : State) (cause e ch tenant reqId : Nat) : State := logErr s ringDma cause ⟨some tenant, 0, e + ch * 32, reqId, 0⟩

/-- Descriptors that waited for room enter the channels that their queues and addresses now give, where those have room (R193, R194). -/
def dmaRefill (s : State) : State :=
  s.dma.waiting.foldl (fun s u =>
    match descOf s u with
    | none => s
    | some d =>
      let ch := dmaChannel d.queue (poolEast s d)
      let l := ngetD [] s.dma.chans ch
      if 8 ≤ l.length then s
      else dmaView (modDesc { s with dma := { s.dma with chans := nput s.dma.chans ch (l ++ [u]), waiting := s.dma.waiting.filter (fun x => x ≠ u) } } u
        (fun d => { d with phase := .dmaQueued })) (ch / 8)) s

/-- The engine that runs a descriptor. -/
def runOf (s : State) (uid : Nat) : Option (Nat × DmaRun) := s.dma.run.find? (fun r => r.2.mig.isNone && r.2.uid == uid)

/-- Change what an engine runs. -/
def modRun (s : State) (e : Nat) (f : DmaRun → DmaRun) : State :=
  { s with dma := { s.dma with run := s.dma.run.map (fun r => if r.1 = e then (r.1, f r.2) else r) } }

/-- What engine e's transfer still waits for goes away: its charges, its host translations and its data reads. -/
def haltRun (s : State) (e : Nat) : State :=
  let item : AdmItem → Bool := fun i => match i with | .piece x => x == e | _ => false
  holdView { s with
    adm := { s.adm with hold := s.adm.hold.filter (fun h => !item h.item), redo := s.adm.redo.filter (fun h => !item h.item) }
    hif := { s.hif with waits := s.hif.waits.filter (fun w => w.who ≠ .dma e) }
    dma := { s.dma with reads := s.dma.reads.filter (fun q => q.engine ≠ e || q.flush) } }

/-- End a descriptor of a channel: the engine is free again. -/
def endDma (s : State) (uid : Nat) (f : Fin) : State :=
  match descOf s uid with
  | none => s
  | some d =>
    let mine := (runOf s uid).map (·.1)
    let s := match mine with | some e => haltRun s e | none => s
    let ch := s.dma.chans.find? (fun c => c.2.contains uid)
    let s := dmaRefill (endDesc s d f false)
    let s := match ch with | some c => dmaView s (c.1 / 8) | none => s
    match mine with | some e => dmaView s e | none => s

/-! Shape of a transfer (R198, R203) -/

/-- Stream bytes of piece i: the first and the count. -/
def pieceOf (raw i : Nat) : Nat × Nat := (4096 * i, min 4096 (c2Total raw - 4096 * i))

/-- Pieces of a transfer. -/
def pieces (raw : Nat) : Nat := cdiv (c2Total raw) 4096

/-- Ranges of the pool side that stream bytes lie in. -/
def poolSegs (raw b n : Nat) : List (Nat × Nat) :=
  if c2SrcHost raw then lineSegs n (c2Dst raw) (c2DstLine raw) (c2DstStride raw) b n
  else lineSegs n (c2Src raw) (c2SrcLine raw) (c2SrcStride raw) b n

/-- Host ranges of stream bytes: consecutive accesses of one line, none across a 4 KiB boundary (R203). -/
def hostSegs (raw b n : Nat) : List (Nat × Nat) :=
  (if c2SrcHost raw then lineSegs n (c2Src raw) (c2SrcLine raw) (c2SrcStride raw) b n
   else lineSegs n (c2Dst raw) (c2DstLine raw) (c2DstStride raw) b n).flatMap (fun r => blockCuts r.1 r.2)

/-- Cut a range into requests of at most m bytes (R203). -/
def reqCuts : Nat → Nat → Nat → Nat → List (Nat × Nat)
  | 0, _, _, _ => []
  | k + 1, m, a, n => if n = 0 then [] else (a, min m n) :: reqCuts k m (a + m) (n - m)

/-- Bytes of host reads that an engine has in flight, those of its migration channel too (R197). -/
def readsOut (s : State) (e : Nat) : Nat :=
  ((s.dma.reads.filter (fun q => q.engine % 32 == e % 32 && !q.flush && q.got.isNone)).map (·.len)).sum

/-- Bytes of host reads that an engine may have in flight (R197). -/
def rdWindow (s : State) : Nat := clamp 1 8 (getF s Reg.dmaCtl_rd_window) * 32768

/-- Issue host reads of a piece, each at most Max Read Request Size (R198, R203). -/
def issueReads (s : State) (key piece fn pasid : Nat) (segs : List (Nat × Nat)) : State :=
  (segs.flatMap (fun r => reqCuts r.2 (max 1 s.hif.mrrs) r.1 r.2)).foldl (fun s r =>
    let t := s.dma.nextTag
    let s := { s with dma := { s.dma with nextTag := t + 1, reads := s.dma.reads ++ [⟨t, key, piece, r.1, r.2, false, none⟩] } }
    emit s (.memRead fn pasid r.1 r.2 t)) s

/-! Ends (R200, R204 to R206) -/

/-- Issue a flush read of 4 bytes to the host page of the last of `upto` stream bytes (R204); its tag. -/
def flushRead (s : State) (d : Desc) (e upto : Nat) : Nat × State :=
  let a := lineAddr (c2Dst d.raw) (c2DstLine d.raw) (c2DstStride d.raw) (upto - 1) / 4096 * 4096
  let t := s.dma.nextTag
  let s := { s with dma := { s.dma with nextTag := t + 1, reads := s.dma.reads ++ [⟨t, e, 0, a, 4, true, none⟩] } }
  (t, emit s (.flushRead (fnOf s d.queue) (c2Pasid d.raw) a t))

/-- A transfer is over, done or stopped (R204): with barrier set its end waits for the acknowledgements of a pool destination, or for a flush
read behind what it wrote to the host. A transfer that is stopped leaves no forwarded write behind it either (R74). -/
def closeDma (s : State) (uid e : Nat) : State :=
  match descOf s uid with
  | none => s
  | some d =>
    if hBarrier d.raw && c2DstHost d.raw && decide (0 < d.bytesDone) then
      modDesc (flushRead (haltRun s e) d e d.bytesDone).2 uid (fun x => { x with phase := .draining })
    else if (hBarrier d.raw || d.stopping) && decide (0 < d.acksOut) then
      modDesc (haltRun s e) uid (fun x => { x with phase := .draining })
    else endDma s uid (finOf d)

/-- Writes of the first pieces that their owners have not acknowledged. -/
def acksBefore (s : State) (uid pieces : Nat) : Bool :=
  s.nie.outst.any (fun o => o.uid == some uid && o.isWrite && decide (o.part < pieces))

/-- The half point is reached (R205): the progress record goes out, with barrier set once the pieces done are confirmed. -/
def halfPoint (s : State) (e : Nat) (r : DmaRun) (d : Desc) : State :=
  if hBarrier d.raw && c2DstHost d.raw then
    let f := flushRead s d e d.bytesDone
    modRun f.2 e (fun x => { x with half := some ⟨d.bytesDone, r.piece, some f.1⟩ })
  else if hBarrier d.raw && acksBefore s d.uid r.piece then modRun s e (fun x => { x with half := some ⟨d.bytesDone, r.piece, none⟩ })
  else progressRecord s d d.bytesDone

/-- The progress record that waited for confirmation goes out (R205). -/
def halfGo (s : State) (e : Nat) (d : Desc) (h : DmaHalf) : State := progressRecord (modRun s e (fun x => { x with half := none })) d h.bytes

/-- End a running transfer early, with its error entry (R206). -/
def failDma (s : State) (e : Nat) (r : DmaRun) (d : Desc) (cause : Nat) (f : Fin) : State :=
  let s := if cause = 0 then s else logDma s cause e r.ch d.tenant d.reqId
  closeDma (modDesc s d.uid (fun x => { mergeEnd x r.piece f with stopping := true })) d.uid e

/-- A piece fails before its first write (R206): the transfer ends once the pieces before it are done. -/
def failPiece (s : State) (e k cause : Nat) (f : Fin) : State :=
  match nfind s.dma.run e with
  | none => s
  | some r =>
    match descOf s r.uid with
    | none => s
    | some d =>
      let x := match r.fail with
        | some (j, c, g) => if k < j ∨ (k = j ∧ f.st.rank < g.st.rank) then (k, cause, f) else (j, c, g)
        | none => (k, cause, f)
      if x.1 ≤ r.piece then failDma s e r d x.2.1 x.2.2 else modRun s e (fun y => { y with fail := some x })

/-- A piece is done: the count, the half point and the end (R200, R205). -/
def pieceDone (s : State) (e uid n : Nat) : State :=
  match nfind s.dma.run e with
  | none => s
  | some r =>
    let s := bump (sampleStamp s true uid 10 true) Reg.dmaBytes_count n e
    let s := modDesc s uid (fun d => { d with bytesDone := d.bytesDone + n })
    let s := { s with xtu := { s.xtu with flights := s.xtu.flights.filter (fun f => f.uid ≠ uid || f.tile ≠ r.piece) } }
    let r := { r with piece := r.piece + 1, xl := ndel r.xl r.piece }
    let s := modRun s e (fun _ => r)
    match descOf s uid with
    | none => s
    | some d =>
      if c2Total d.raw ≤ d.bytesDone then closeDma s uid e
      else
        let s := if hIrqHalf d.raw && !d.halfDone && r.half.isNone && decide (c2Total d.raw / 2 ≤ d.bytesDone) then halfPoint s e r d else s
        match r.fail with
        | some (k, c, f) => if k ≤ r.piece then failDma s e r d c f else s
        | none => s

/-- Translate the pool side of piece k and count it in flight (R189, R199). -/
def pieceXlate (s : State) (e ch k : Nat) (d : Desc) : XAll × State :=
  let p := pieceOf d.raw k
  let mine := s.xtu.leases.filter (fun l => l.holder == .dma (e * 8 + ch) && l.uids.contains d.uid)
  let x := xlateAll s mine d.tenant d.binds (rangeNeeds (poolNeed d.raw) (poolSegs d.raw p.1 p.2))
  if x.1.fin.st ≠ .done ∨ x.1.waits ≠ [] ∨ flightRoom x.2 d.tenant x.1.xl = false then x
  else
    let s := x.1.xl.foldl (fun s y =>
      let l : Lease := ⟨.dma (e * 8 + ch), [d.uid], d.tenant, y.2.ext, y.2.recPpa, s.xtu.epoch, false⟩
      { s with xtu := { s.xtu with
          leases := if s.xtu.leases.any (fun q => q.holder == l.holder && q.uids.contains d.uid && q.recPpa == l.recPpa && !q.stale)
            then s.xtu.leases else s.xtu.leases ++ [l] } })
      (addFlights x.2 (.dma (e * 8 + ch)) d.uid k d.tenant (x.1.xl))
    (x.1, setBinds (sampleFirst s true d.uid x.1.xl) d.uid x.1.binds)

/-! Pool to host -/

/-- The writes of a piece as TLPs: what follows on in one line joins up to m bytes, none across a 4 KiB boundary, a poisoned granule
alone (R202, R203). An item is its stream byte, address, bytes and poison. -/
def tlpJoin (m line : Nat) (xs : List (Nat × Nat × List Byte × Bool)) : List (Nat × List Byte × Bool) :=
  (xs.foldl (fun (acc : List (Nat × List Byte × Bool)) x =>
    match acc with
    | (a, bs, p) :: rest =>
      if !p && !x.2.2.2 && a + bs.length == x.2.1 && x.1 % (max 1 line) != 0 && x.2.1 % 4096 != 0 && decide (bs.length + x.2.2.1.length ≤ m)
      then (a, bs ++ x.2.2.1, false) :: rest
      else (x.2.1, x.2.2.1, x.2.2.2) :: acc
    | [] => [(x.2.1, x.2.2.1, x.2.2.2)]) []).reverse

/-- Send the stream bytes b to b + n - 1 to the host, without their guards (R202, R203). -/
def sendHost (s : State) (d : Desc) (v : View) (b n : Nat) : State :=
  let sa := fun i => lineAddr (c2Src d.raw) (c2SrcLine d.raw) (c2SrcStride d.raw) i
  let items := (copyCuts d.raw b n).map (fun c =>
    (c.2.2, c.1, (List.range c.2.1).map (fun i => vByte v (sa (c.2.2 + i))), (List.range c.2.1).any (fun i => vPois v (sa (c.2.2 + i)) 1)))
  let ro := getB s Reg.dmaCtl_host_ro && s.hif.roEn
  (tlpJoin s.hif.mps (c2DstLine d.raw) items).foldl (fun s w =>
    emit s (.memWrite (fnOf s d.queue) (c2Pasid d.raw) w.1 (if w.2.2 then List.replicate w.2.1.length 0 else w.2.1) w.2.2 ro)) s

/-- A piece that moves pool bytes to the host (R202). -/
def pieceToHost (s : State) (e : Nat) (r : DmaRun) (d : Desc) (xl : NMap Xl) (b n : Nat) (env : NMap Gran) : State :=
  let l := loadRanges s xl env (poolSegs d.raw b n) loaded0
  let s := match l.1.poisonAt with | some a => noteEnd l.2 d.uid r.piece (Fin.atPva .poisoned a) | none => l.2
  if l.1.fin.st ≠ .done then failDma s e r d (if l.1.fin.st = .guardMismatch then 4 else 0) l.1.fin
  else pieceDone (sendHost s d l.1.view b n) e d.uid n

/-! Host to pool -/

/-- Bytes of host reads joined in stream order, with the stream ranges that are poisoned. -/
def joinReads (rs : List HostRead) : List Byte × List (Nat × Nat) :=
  rs.foldl (fun (a : List Byte × List (Nat × Nat)) r =>
    match r.got with
    | some g => (a.1 ++ g.1, if g.2 then a.2 ++ [(a.1.length, g.1.length)] else a.2)
    | none => a) ([], [])

/-- The runs that host bytes make in the pool (R109, R201). -/
def hostRuns (raw b n : Nat) (bytes : List Byte) (bad : List (Nat × Nat)) : List Run :=
  (copyCuts raw b n).map (fun c =>
    ⟨c.1, (bytes.drop (c.2.2 - b)).take c.2.1, bad.any (fun r => overlaps r (c.2.2 - b, c.2.1))⟩)

/-- The first granule that a piece writes poisoned: one that draws on a poisoned completion, or a poisoned one that it writes in part
(R201, R206). -/
def firstPoison (ws : List GWrite) : Option Nat :=
  (ws.filter (fun w => w.gran.poison)).foldl (fun a w => match a with | some b => some (min b w.pva) | none => some w.pva) none

/-- The host data of the next piece is complete: its writes issue (R198, R201). -/
def pieceFromHost (s : State) (e : Nat) (r : DmaRun) (d : Desc) (env : NMap Gran) : State :=
  let p := pieceOf d.raw r.piece
  let mine : HostRead → Bool := fun q => q.engine == e && !q.flush && q.piece == r.piece
  let j := joinReads (s.dma.reads.filter mine)
  let s := { s with dma := { s.dma with reads := s.dma.reads.filter (fun q => !mine q) } }
  let w := buildWrites s (ngetD [] r.xl r.piece) env (fun _ => false) (compRuns (hostRuns d.raw p.1 p.2 j.1 j.2) 0)
  match w.1 with
  | .inr f => failDma w.2 e r d (if f.st = .guardMismatch then 4 else 0) f
  | .inl ws =>
    let s := issueAll w.2 d.uid r.piece env ws
    let s := match firstPoison ws with | some a => noteEnd s d.uid r.piece (Fin.atPva .poisoned a) | none => s
    pieceDone s e d.uid p.2

/-- Pieces from the host whose data are complete are written in ascending order (R198). -/
def piecesGo : Nat → State → Nat → NMap Gran → State
  | 0, s, _, _ => s
  | k + 1, s, e, env =>
    match nfind s.dma.run e with
    | none => s
    | some r =>
      match descOf s r.uid with
      | none => s
      | some d =>
        let mine := s.dma.reads.filter (fun q => q.engine == e && !q.flush && q.piece == r.piece)
        if d.phase = .draining || mine == [] || mine.any (fun q => q.got.isNone) then s
        else piecesGo k (pieceFromHost s e r d env) e env

/-! Acknowledgements (R60, R204, R205) -/

/-- A flush read of an engine is still out. -/
def flushOut (s : State) (uid : Nat) : Bool := s.dma.reads.any (fun r => r.flush && runs s r.engine uid)

/-- A write of a descriptor was acknowledged; what waits for it goes on: the progress record of a transfer, then the end. -/
def ackDone (s : State) (uid : Nat) : State :=
  let s := modDesc s uid (fun d => { d with acksOut := d.acksOut - 1 })
  match descOf s uid with
  | none => s
  | some d =>
    let s := match runOf s uid with
      | some (e, r) => (match r.half with
        | some h => if h.flush.isNone && !acksBefore s uid h.pieces then halfGo s e d h else s
        | none => s)
      | none => s
    if d.acksOut ≠ 0 then s
    else if isBatch d then descCheck s uid
    else if d.phase = .draining && !flushOut s uid then
      (match descOf s uid with
       | some d => if isDma d then endDma s uid (finOf d) else endDesc s d (finOf d) false
       | none => s)
    else s

/-! Stops (R206, R207) -/

/-- Stop a descriptor of a channel, running or pending, with a status: a piece whose first write has not issued counts as not
started. -/
def stopDma (s : State) (uid : Nat) (f : Fin) : State :=
  match descOf s uid with
  | none => s
  | some d =>
    if d.phase = .draining then s
    else
      let s := modDesc s uid (fun x => { (if f.st = .part then x else mergeEnd x 0 f) with stopping := true })
      match runOf s uid with
      | some (e, _) => closeDma s uid e
      | none => (match descOf s uid with | some x => endDma s uid (finOf x) | none => s)

/-- Stop any descriptor at its next boundary (R74, R91, R206, R372): work that has not started ends at once, engine work stops at
the next tile, a channel at the next piece; PUBLISH, REVOKE and SCRUB_RANGE in progress, and what only waits for
acknowledgements, run to their end. -/
def stopDesc (s : State) (uid : Nat) (f : Fin) : State :=
  match descOf s uid with
  | none => s
  | some d =>
    if isBatch d then (if d.phase = .running then stopEngine s uid f else batchFail s uid f) else
    match d.phase with
    | .draining => s
    | .waitPred => endDesc s d f false
    | .waitSlots => endDesc s d f false
    | .admHold => if isDma d then stopDma s uid f else endDesc s d f false
    | .waitList => if isDma d then stopDma s uid f else endDesc s d f false
    | .dmaQueued => stopDma s uid f
    | .ready => if isDma d then stopDma s uid f else if d.nextTile = 0 then endDesc s d f false else stopEngine (modDesc s uid (fun x => { x with phase := .running })) uid f
    | .held => if isDma d then stopDma s uid f else endDesc s d f false
    | .running =>
      if isDma d then stopDma s uid f
      else if ((opRow d.opcode).map (fun r => r.unit == .engine)).getD false then stopEngine s uid f
      else s

end Sys2Proof.Machine
end

