-- ==== Sys2Proof/Machine/QueueCmds.lean ====
section
/-!
DEFINITION. Machine/QueueCmds.lean: the commands of queues, doorbells and descriptors in QMG (spec 03, spec 16 R340).
-/
namespace Sys2Proof.Machine
open Sys2Proof

/-! Doorbells (R54 to R56, R340, R447) -/

/-- The doorbell page that a write through a function reaches: PF1 by its own number, a virtual function by window slot; none
where no page or two pages claim it, or the function does not exist (R54, R340, R342). -/
def doorPage (s : State) (fn page : Nat) : Option Nat :=
  if fn = 1 then (if page < 1024 ∧ getF s Reg.qmgDbpage_owner page = 1 then some page else none)
  else if decide (2 ≤ fn) && decide (fn - 2 < s.hif.vfs) && decide (page < 16) then
    match (List.range 1024).filter (fun p => getF s Reg.qmgDbpage_owner p == 2 && getF s Reg.qmgDbpage_vf p == fn - 2
        && getF s Reg.qmgDbpage_window_slot p == page) with
    | [p] => some p
    | _ => none
  else none

/-- A doorbell write to queue q (R55, R56, R72): `isCq` false is SQ_TAIL, true is CQ_HEAD. -/
def ringDoor (s : State) (q fn : Nat) (isCq : Bool) (value : Nat) : State :=
  let s := noticeCtx s q
  let c := ctxOf s q
  let v := value % 2 ^ 32
  if c.state ≠ 1 then dropDoorbell s q fn
  else if isCq then
    let d := (v + 2 ^ 32 - c.cqHead) % 2 ^ 32
    if d ≤ (c.cqTail + 2 ^ 32 - c.cqHead) % 2 ^ 32 then putCtx s q { c with cqHead := v } else queueError s q 2 fn 0
  else
    let d := (v + 2 ^ 32 - c.sqTail) % 2 ^ 32
    if d = 0 then s
    else if d + (c.sqTail + 2 ^ 32 - c.sqHead) % 2 ^ 32 ≤ 2 ^ c.sqLog2 then putCtx s q { c with sqTail := v }
    else queueError s q 1 fn 0

/-- A write through a function reaches BAR2: HIF is ready, the link is up, and the function is not in D3hot (R334, R345). -/
def bar2Open (s : State) (fn : Nat) : Bool := s.hif.ready && s.hif.linkUp && !(s.hif.d3.contains fn)

/-- A doorbell write through a function's page (R54). -/
def doorWrite (s : State) (fn page idx : Nat) (isCq : Bool) (value : Nat) : State :=
  if !bar2Open s fn then s
  else match doorPage s fn page with
    | some p => ringDoor s (p * 64 + idx % 64) fn isCq value
    | none => dropDoorbell s ((page * 64 + idx % 64) % 65536) fn

/-- SQ_TAIL (R55): a write through function `fn`, page or window slot `page`, doorbell `idx` of the page. -/
def execSqTail (fn page idx value : Nat) (s : State) : Out := .next (doorWrite s fn page idx false value)

/-- CQ_HEAD (R55). -/
def execCqHead (fn page idx value : Nat) (s : State) : Out := .next (doorWrite s fn page idx true value)

/-- A read of BAR2 (R447). -/
def readBar2 (_off : Nat) : Nat := 0

/-- The queue that a dropped write names: of the page that the function's window maps, or, where it maps none, by the offset (log 29). -/
def droppedQueue (s : State) (fn off : Nat) : Nat :=
  match doorPage s fn (off / 4096) with
  | some p => p * 64 + off / 64 % 64
  | none => off / 64 % 65536

/-- DOORBELL_WRITE_DROPPED (R447): a write of `bytes` bytes at BAR2 offset `off` of a function; the two forms that R447 takes,
which arrive as SQ_TAIL and CQ_HEAD, are not dropped. -/
def execDoorbellWriteDropped (fn off bytes : Nat) (s : State) : Out :=
  if !bar2Open s fn then .next s
  else if decide (off % 64 < 8 ∧ bytes = 4 ∧ off % 4 = 0) || decide (off % 64 = 0 ∧ bytes = 8) then .next s
  else .next (dropDoorbell s (droppedQueue s fn off) fn)

/-! Queue commands (R74) -/

/-- Note a queue command and its result in QMG_QCMD. -/
def qcmdResult (s : State) (q res : Nat) : State := setF (setF s Reg.qmgQcmd_queue q) Reg.qmgQcmd_result res

/-- READ_CTX (R51, R74): the stage registers show the context; one that is lost is what QMG keeps of it (R72). -/
def execReadCtx (queue : Nat) (s : State) : Out :=
  let q := queue % 65536
  let s := noticeCtx s q
  let b := match nfind s.qmg.lost q with
    | some c => natToLe 64 (ctxNat c)
    | none => (hwRead s .device (ctxPpa s q) 64).1
  let s := (List.range 8).foldl (fun s i => setF s Reg.qmgQstage_data (leToNat ((b.drop (8 * i)).take 8)) i) s
  .next (qcmdResult s q 0)

/-- The context in the stage registers. -/
def stagedCtx (s : State) : QCtx :=
  parseCtx ((List.range 8).foldl (fun a i => a + getF s Reg.qmgQstage_data i * 2 ^ (64 * i)) 0)

/-- What WRITE_CTX stores: the staged context, with every hardware field as the stored one has it (R51). -/
def keepHw (old c : QCtx) : QCtx :=
  { c with state := old.state, sqTail := old.sqTail, sqHead := old.sqHead, cqTail := old.cqTail, cqHead := old.cqHead,
           inflight := old.inflight, errCause := old.errCause }

/-- Write a whole new context: one that was lost is whole again where its memory is not lost for good (R72, R256). -/
def newCtx (s : State) (q : Nat) (c : QCtx) : State := putCtx { s with qmg := { s.qmg with lost := ndel s.qmg.lost q } } q c

/-- WRITE_CTX (R51, R52): accepted only while the queue is DISABLED; staged hardware fields are ignored. -/
def execWriteCtx (queue : Nat) (s : State) : Out :=
  let q := queue % 65536
  let s := noticeCtx s q
  let c := stagedCtx s
  if (ctxOf s q).state ≠ 0 then .next (qcmdResult s q 1)
  else if !ctxOk s q c then .next (qcmdResult s q 2)
  else .next (qcmdResult (newCtx s q (keepHw (ctxOf s q) c)) q 0)

/-- ENABLE. -/
def execEnable (queue : Nat) (s : State) : Out :=
  let q := queue % 65536
  let s := noticeCtx s q
  let c := ctxOf s q
  if c.state ≠ 0 then .next (qcmdResult s q 1)
  else if !ctxOk s q c then .next (qcmdResult s q 2)
  else if !tenantActive s c.tenant then .next (qcmdResult s q 3)
  else
    let s := clearPreds s c
    let s := { s with qmg := { s.qmg with modCnt := ndel s.qmg.modCnt q, modOldest := ndel s.qmg.modOldest q },
                      hif := { s.hif with mute := s.hif.mute.filter (fun x => x ≠ q) } }
    .next (qcmdResult (putCtx s q { c with state := 1, sqTail := 0, sqHead := 0, cqTail := 0, cqHead := 0, inflight := 0, errCause := 0 }) q 0)

/-- The queue enters DISABLING; with nothing in flight it is DISABLED at once. -/
def disabling (s : State) (q : Nat) : State := drainCheck (modCtx s q (fun c => { c with state := 3 })) q

/-- DISABLE_DRAIN. -/
def execDisableDrain (queue : Nat) (s : State) : Out :=
  let q := queue % 65536
  let s := noticeCtx s q
  let st := (ctxOf s q).state
  if st = 1 ∨ st = 2 then .next (qcmdResult (disabling s q) q 0) else .next (qcmdResult s q 1)

/-- Abort a queue's work: PARTIAL at the next boundary (R74). -/
def abortQueue (s : State) (q : Nat) : State :=
  let ids := (s.qmg.descs.filter (fun d => d.queue == q)).map (·.uid)
  ids.foldl (fun s u => stopDesc s u (Fin.of .part)) (disabling s q)

/-- DISABLE_ABORT. -/
def execDisableAbort (queue : Nat) (s : State) : Out :=
  let q := queue % 65536
  let s := noticeCtx s q
  if (ctxOf s q).state = 0 then .next (qcmdResult s q 1) else .next (qcmdResult (abortQueue s q) q 0)

/-- CLEAR_PRED (R67, R74). -/
def execClearPred (queue : Nat) (s : State) : Out :=
  let q := queue % 65536
  let s := noticeCtx s q
  let c := ctxOf s q
  if c.state ≠ 0 then .next (qcmdResult s q 1) else .next (qcmdResult (clearPreds s c) q 0)

/-! Fetch (R53, R57 to R59, R66) -/

/-- What reading one slot gave. -/
inductive SlotRead where
  | ok (v : Nat)
  | bad (st : Status)
  | unreachable
deriving DecidableEq, Repr

/-- Read slot i of a queue's SQ: from the pool, or from the host's answer in the command's operand. -/
def readSlot (s : State) (q : Nat) (c : QCtx) (host : List Gran) (i : Nat) : SlotRead × State :=
  if c.sqHost then
    if !hostUp s (fnOf s q) then (.unreachable, s)
    else match host[i]? with
      | none => (.unreachable, s)
      | some g => if g.poison then (.bad .poisoned, s) else (.ok (leToNat (g.data.take 64)), s)
  else
    let r := hwRead s (.tenant c.tenant) (c.sqBase + (c.sqHead + i) % 2 ^ c.sqLog2 * 64) 64
    match r.2.1 with
    | .none => (.ok (leToNat r.1), r.2.2)
    | .poison _ => (.bad .poisoned, r.2.2)
    | .guard _ => (.bad .guardMismatch, r.2.2)

/-- Slots posted and not fetched. -/
def posted (c : QCtx) : Nat := (c.sqTail + 2 ^ 32 - c.sqHead) % 2 ^ 32

/-- Host page of slot i from the head of an SQ in host memory. -/
def slotPage (c : QCtx) (i : Nat) : Nat := (c.sqBase + (c.sqHead + i) % 2 ^ c.sqLog2 * 64) / 4096

/-- The pages of the head's slots of an SQ in host memory that ATS has not translated (spec 08 R180); none where the function does not
reach the host, so that the read meets that. -/
def slotsMissing (s : State) (q : Nat) (c : QCtx) : List Nat :=
  if c.state = 1 ∧ c.sqHost = true ∧ posted c ≠ 0 ∧ hostUp s (fnOf s q) = true then
    dedupSort (([slotPage c 0] ++ (if 2 ≤ posted c then [slotPage c 1] else [])).filter (fun p => !atsHit s (fnOf s q) c.pasid p false))
  else []

/-- What one slot of the head reads as. -/
def slotWord (s : State) (q : Nat) (c : QCtx) (host : List Gran) (i : Nat) : Nat :=
  match (readSlot s q c host i).1 with
  | .ok v => v
  | _ => 0

/-- The image at a queue's head: one slot, or both of a 128-byte descriptor (R58). -/
def headImage (s : State) (q : Nat) (c : QCtx) (host : List Gran) : Nat :=
  let w := slotWord s q c host 0
  if opBig (hOpcode w) && decide (2 ≤ posted c) then w + slotWord s q c host 1 * 2 ^ 512 else w

/-- No slot that an image produces is pending (R67). -/
def producerFree (s : State) (c : QCtx) (raw : Nat) : Bool := (producerSlots raw).all (fun i => !(slotAt s (c.predBase + i)).pending)

/-- Records a descriptor reserves (R58). -/
def resvOf (raw : Nat) : Nat := if hIrqHalf raw then 2 else 1

/-- A queue may be granted a fetch: ENABLED, every slot of the descriptor posted and its pages translated, its records fit, and no slot
that it produces is pending (R57, R58, R67, R180). -/
def canFetch (s : State) (hosts : NMap (List Gran)) (q : Nat) : Bool :=
  let c := ctxOf s q
  let w := headImage s q c (ngetD [] hosts q)
  decide (c.state = 1) && decide ((if opBig (hOpcode w) then 2 else 1) ≤ posted c) && resvFits s q c (resvOf w)
  && slotsMissing s q c == [] && ((headerFin s c w).isSome || producerFree s c w)

/-- Take a fetched image into the machine (R59). -/
def takeImage (s : State) (q : Nat) (c : QCtx) (raw n resv : Nat) (bad : Option Status) : State :=
  let s := telEvent (putCtx (attrib s 7 4 c.tenant) q { c with sqHead := (c.sqHead + n) % 2 ^ 32, inflight := c.inflight + 1 }) 0x90 0 1
  let s := setResv s q (cqResv s q + resv)
  let d := newDesc s q c raw resv
  let s := drawDesc (addDesc s d) d
  match bad with
  | some st => endDesc s d (Fin.of st) false
  | none =>
    match headerFin s c raw with
    | some f => endDesc s d f false
    | none => admitDesc s d.uid

/-- Fetch one descriptor of a granted queue. -/
def fetchFrom (s : State) (q : Nat) (host : List Gran) : State :=
  let r := readCtx s q
  let c := r.1
  let a := readSlot r.2.2 q c host 0
  match a.1 with
  | .unreachable => queueError a.2 q 3 0x7F 0
  | .bad st => takeImage a.2 q c 0 1 1 (some st)
  | .ok w =>
    if opBig (hOpcode w) then
      let b := readSlot a.2 q c host 1
      match b.1 with
      | .unreachable => queueError b.2 q 3 0x7F 0
      | .bad st => takeImage b.2 q c 0 2 (resvOf w) (some st)
      | .ok v => takeImage b.2 q c (w + v * 2 ^ 512) 2 (resvOf w) none
    else takeImage a.2 q c w 1 (resvOf w) none

/-- After a fetch, only queues that still request keep their waits (R227). -/
def fetchRest (s : State) (hosts : NMap (List Gran)) : State :=
  { s with qmg := { s.qmg with arb := arbStay s.qmg.arb (s.qmg.live.filter (canFetch s hosts)) } }

/-- DESCRIPTOR_FETCH (R57): the arbiter grants one queue with posted descriptors. `hosts` holds the slots that the host answers
with for queues whose ring lies in host memory; a queue it leaves out is unreachable. QMG examines the contexts it reads (R72), and asks
for the host pages of rings it is to read (spec 08 R180). -/
def execDescriptorFetch (hosts : NMap (List Gran)) (s : State) : Out :=
  let s := s.qmg.live.foldl noticeCtx s
  let s := s.qmg.live.foldl (fun s q => (slotsMissing s q (ctxOf s q)).foldl (fun s p =>
    atsAsk s (fnOf s q) (ctxOf s q).pasid p false (.sq q)) s) s
  let cands := s.qmg.live.filter (canFetch s hosts)
  let r := arbPick 65536 (arbN s Reg.xbarArbCtl_n_qmg) s.qmg.arb (cands.map (fun q => (q, (ctxOf s q).qprio)))
  let s := { s with qmg := { s.qmg with arb := r.2 } }
  match r.1 with
  | none => .next s
  | some q => .next (fetchRest (fetchFrom s q (ngetD [] hosts q)) hosts)

/-! Predicates and waits -/

/-- PREDICATE_RELEASE (R68): the predicate slot of a waiting descriptor has cleared. -/
def execPredicateRelease (uid : Nat) (s : State) : Out :=
  match descOf s uid with
  | none => .next s
  | some d => if d.phase = .waitPred then .next (judgePred s uid) else .next s

/-- WAIT_SLOTS_CLEARED (R144): every slot that a MOE_COMBINE recorded has cleared. -/
def execWaitSlotsCleared (uid : Nat) (s : State) : Out :=
  match descOf s uid with
  | none => .next s
  | some d => if d.phase = .waitSlots ∧ d.waits = [] then .next (afterPred s uid) else .next s

/-- MODERATION_TIMER_EXPIRY (R69): mod_time has passed since the oldest record not yet signalled; mod_time 0 has no timer. -/
def execModerationTimerExpiry (queue : Nat) (s : State) : Out :=
  match nfind s.qmg.modOldest queue with
  | none => .next s
  | some t =>
    let c := ctxOf s queue
    if c.modTime = 0 then .next s else .next (raiseIrq (advance s (t + c.modTime * 1000)) queue c)

end Sys2Proof.Machine
end

