-- ==== Sys2Proof/Machine/Operators.lean ====
section
/-!
DEFINITION. Machine/Operators.lean: the operators that run on the engines (spec 05, spec 06), each as one command that runs a
whole descriptor: the steps are those of the tile commands.
-/
namespace Sys2Proof.Machine
open Sys2Proof

/-- The image of an operator command under its own operator code. -/
def opImage (code : Nat) (o : OpCmd) : Nat := putBits (o.raw % 2 ^ (if opBig code then 1024 else 512)) 0 8 code

/-- A descriptor of the image that has been fetched and stands ready to execute. -/
def readyDesc (s : State) (q raw : Nat) : Option Nat :=
  (s.qmg.descs.find? (fun d => d.queue == q && d.raw == raw && d.phase == .ready && d.nextTile == 0)).map (·.uid)

/-- Take an operator command into QMG: the descriptor already fetched, or one taken as fetched from an ENABLED queue with room for
its records and no pending slot among those it produces (R57 to R59, R67); with neither, nothing. -/
def opTake (s : State) (code : Nat) (o : OpCmd) : Option Nat × State :=
  let raw := opImage code o
  let q := o.queue % 65536
  match readyDesc s q raw with
  | some u => (some u, s)
  | none =>
    let c := ctxOf s q
    if c.state ≠ 1 ∨ !resvFits s q c (resvOf raw) ∨ !((headerFin s c raw).isSome || producerFree s c raw) then (none, s)
    else
      let uid := s.qmg.nextUid
      (some uid, takeImage s q c raw 0 (resvOf raw) none)

/-- Run an engine operator's descriptor as far as this node takes it in one command. -/
def runOperator (s : State) (code : Nat) (o : OpCmd) : State :=
  let t := opTake s code o
  match t.1 with
  | none => t.2
  | some u => runDesc t.2 u o.remote

/-- COPY2D (R109, R110): on the engines, or into a DMA channel when a side lies in host memory (R192). -/
def execCopy2d (o : OpCmd) (s : State) : Out := .next (runOperator s 0x10 o)
/-- FILL (R111, R112). -/
def execFill (o : OpCmd) (s : State) : Out := .next (runOperator s 0x11 o)
/-- GATHER (R113). -/
def execGather (o : OpCmd) (s : State) : Out := .next (runOperator s 0x12 o)
/-- SCATTER_ADD (R114, R449). -/
def execScatterAdd (o : OpCmd) (s : State) : Out := .next (runOperator s 0x13 o)
/-- EMBED_BAG (R115). -/
def execEmbedBag (o : OpCmd) (s : State) : Out := .next (runOperator s 0x14 o)
/-- REDUCE (R116). -/
def execReduce (o : OpCmd) (s : State) : Out := .next (runOperator s 0x15 o)
/-- ATOMIC (R117, R118). -/
def execAtomic (o : OpCmd) (s : State) : Out := .next (runOperator s 0x16 o)
/-- QUANTIZE (R119). -/
def execQuantize (o : OpCmd) (s : State) : Out := .next (runOperator s 0x17 o)
/-- ATTEND_DECODE (R127 to R129). -/
def execAttendDecode (o : OpCmd) (s : State) : Out := .next (runOperator s 0x20 o)
/-- ATTEND_MERGE (R133). -/
def execAttendMerge (o : OpCmd) (s : State) : Out := .next (runOperator s 0x21 o)
/-- TOPK (R135, R136). -/
def execTopk (o : OpCmd) (s : State) : Out := .next (runOperator s 0x22 o)
/-- MOE_DISPATCH (R138, R139). -/
def execMoeDispatch (o : OpCmd) (s : State) : Out := .next (runOperator s 0x28 o)
/-- EXPERT_FFN (R141, R142). -/
def execExpertFfn (o : OpCmd) (s : State) : Out := .next (runOperator s 0x29 o)
/-- MOE_COMBINE (R144, R145). -/
def execMoeCombine (o : OpCmd) (s : State) : Out := .next (runOperator s 0x2A o)

end Sys2Proof.Machine
end

