-- ==== Sys2Proof/Machine/Requests.lean ====
section
/-!
DEFINITION. Machine/Requests.lean: the path of a fabric request through the NIE, admission, translation, the directory and
memory (spec 01 R18 to R20, spec 14 R313 to R317, R445, R446), as operations that the packet commands share.
-/
namespace Sys2Proof.Machine
open Sys2Proof

/-! Arrival (R304, R315) -/

/-- A packet at input port `port` comes from an SR2 peer; ports from 12 up are the node's own units. -/
def fromSr2 (s : State) (port : Nat) : Bool := decide (12 ≤ port) || getB s Reg.fptPeer_sr2 port

/-- The packet leaves the internal port at which it waited (R305). -/
def sinkPkt (s : State) (p : Pkt) : State :=
  let same : RtrPkt → Bool := fun r => r.pkt.ptype == p.ptype && r.pkt.src == p.src && r.pkt.tenant == p.tenant
    && r.pkt.reqId == p.reqId && r.pkt.flow == p.flow && r.pkt.seq == p.seq && r.pkt.addr == p.addr
  match s.rtr.outq.find? (fun e => decide (96 ≤ e.1) && e.2.any same) with
  | some e => { s with rtr := { s.rtr with outq := nset [] s.rtr.outq e.1 (e.2.eraseP same) } }
  | none => s

/-- A packet that reaches this node's units: a false src_node is discarded and counted in NIE_SPOOF (R315), a type that only SR2s
send is discarded in ROUTER_P_p_DROP (R304). -/
def arrives (s0 : State) (port : Nat) (p : Pkt) : Bool × State :=
  let s := sinkPkt s0 p
  if fromSr2 s port then (true, s)
  else if p.src ≠ getF s Reg.fptPeer_node port then (false, bump s Reg.nieSpoof_count)
  else if pktTable.any (fun r => r.ptype == p.ptype && r.sr2) then (false, bump s Reg.routerPDrop_count 1 port)
  else (true, s)

/-- Write data of a packet from a non-SR2 peer takes its guards at this port (R15, R18 step 1). -/
def ingressData (s : State) (port : Nat) (p : Pkt) : Pkt :=
  if fromSr2 s port then p else { p with data := p.data.map (fun g => if g.poison then poisonGran else freshGran g.data) }

/-! Shape of a request (R445) -/

/-- Granules of a range. -/
def granCount (a n : Nat) : Nat := if n = 0 then 0 else (a + n - 1) / 64 + 1 - a / 64

/-- The first byte a request names; a caching request names its whole line. -/
def reqStart (p : Pkt) : Nat := if 0x40 ≤ p.ptype then p.addr / 64 * 64 else p.addr

/-- The bytes a request names. -/
def reqLen (p : Pkt) : Nat := if p.ptype = 1 ∨ p.ptype = 2 then p.body % 2 ^ 32 else if p.ptype = 3 then 8 else 64

/-- The rights a request needs (R34, R117, R261). -/
def reqNeeds (p : Pkt) : List Need :=
  match p.ptype with
  | 0x01 => [.rd]
  | 0x02 => [.wr]
  | 0x03 => [.rmw]
  | 0x40 => [.rd]
  | _ => [.rd, .wr]

/-- The operation of an ATOMIC_REQ. -/
def atOp (p : Pkt) : Nat := bitsOf p.body 128 4

/-- The completion counter that a request names, if any (R317). -/
def cntOf (p : Pkt) : Option Nat :=
  if p.ptype = 2 ∧ bitOf p.body 36 then some (bitsOf p.body 32 4)
  else if p.ptype = 3 ∧ bitOf p.body 137 then some (bitsOf p.body 133 4)
  else none

/-- The checks of a request's body at its entry node (R445). -/
def bodyOk (p : Pkt) : Bool :=
  match p.ptype with
  | 0x01 => decide (1 ≤ reqLen p) && decide (reqLen p ≤ 8192) && p.body / 2 ^ 32 == 0
  | 0x02 => decide (1 ≤ reqLen p) && decide (reqLen p ≤ 8192) && p.data.length == granCount p.addr (reqLen p) && p.body / 2 ^ 37 == 0
  | 0x03 => p.addr % 8 == 0 && decide (atOp p ≤ 6) && p.body / 2 ^ 138 == 0
  | _ => p.body == 0

/-! Runs -/

/-- The run of a number. -/
def reqOf (s : State) (id : Nat) : Option ReqRun := s.nie.reqs.find? (fun r => r.id == id)

/-- Change a run. -/
def modReq (s : State) (id : Nat) (f : ReqRun → ReqRun) : State :=
  { s with nie := { s.nie with reqs := s.nie.reqs.map (fun r => if r.id = id then f r else r) } }

/-- A new run for a packet. -/
def addReq (s : State) (port : Nat) (p : Pkt) : Nat × State :=
  let r : ReqRun := { id := s.nie.nextId, port := port, pkt := p, cls := p.admClass, waitUs := 0, binds := [], pieces := [],
                      served := [], fin := Fin.ok, bytes := 0, data := [], value := 0, stored := false, fathom := 0 }
  (r.id, { s with nie := { s.nie with reqs := s.nie.reqs ++ [r], nextId := r.id + 1 } })

/-- A number of a flow completes (R316): the record moves on when it was the expected one. -/
def flowDone (s : State) (port : Nat) (p : Pkt) : State :=
  if p.flow = 0 || fromSr2 s port then s
  else match nfind s.nie.flows p.flow with
    | some f =>
      if f.next = p.seq ∧ f.job = p.job ∧ f.src = p.src then
        { s with nie := { s.nie with flows := nput s.nie.flows p.flow { f with next := (f.next + 1) % 65536, bitmap := f.bitmap / 2 } } }
      else s
    | none => s

/-- Take a run out of the machine: its work in flight ends. -/
def dropReq (s : State) (id : Nat) : State :=
  holdView { s with
    nie := { s.nie with reqs := s.nie.reqs.filter (fun r => r.id ≠ id), outst := s.nie.outst.filter (fun o => o.client ≠ some id) }
    xtu := { s.xtu with flights := s.xtu.flights.filter (fun f => f.holder ≠ .request id),
                        held := s.xtu.held.filter (fun h => h.item ≠ .req id),
                        invals := s.xtu.invals.map (fun v => { v with reqs := v.reqs.filter (fun x => x ≠ id) }) }
    adm := { s.adm with hold := s.adm.hold.filter (fun h => h.item ≠ .req id) }
    dir := { s.dir with queue := s.dir.queue.filter (fun q => q.req ≠ some id),
                        txns := s.dir.txns.map (fun t => if t.req.req = some id then { t with next := .forwarded } else t) } }

/-- ERR_RSP to a request that fails before it is served (R445). -/
def refuseReq (s : State) (r : ReqRun) (cls : Nat) (f : Fin) : State :=
  flowDone (errRsp (dropReq s r.id) r.pkt cls (busFin s r.pkt.tenant f)) r.port r.pkt

/-- The hint of a response: the operator's bits, with the wait of a DEFERRED decision in the upper half (R330). -/
def rspHint (r : ReqRun) (f : Fin) : Nat :=
  if f.st = .busy then f.hint
  else (if f.st = .done ∧ r.stored then 256 else f.hint) % 65536 + (if r.cls = 1 then min r.waitUs 65535 else 0) * 65536

/-- The response of the serving node, or of the entry node for all pieces (R445, R446), with the Fathom level of the nodes that served it
(R19). Data goes only with DONE and POISONED. -/
def answerReq (s : State) (r : ReqRun) : State :=
  let f := busFin s r.pkt.tenant r.fin
  let data := if f.st = .done ∨ f.st = .poisoned then r.data else []
  let q := { response s r.pkt (rspType r.pkt.ptype) r.cls { f with hint := rspHint r f } r.bytes r.value data with
    fathom := if r.served = [] then fathomNow s else r.fathom }
  flowDone (endReq (inject (dropReq s r.id) q) r.pkt q.status q.admClass q.fathom) r.port r.pkt

/-! Completion counters (R317) -/

/-- Add 1 to a counter of a job. -/
def countUp (s : State) (job sel : Nat) : State :=
  let a := getF s Reg.nieCntBase_base + job % 4096 * 0x80 + sel * 8
  let r := hwRead s .deviceIfReserved a 8
  match r.2.1 with
  | .none => hwWrite r.2.2 .deviceIfReserved a (natToLe 8 (leToNat r.1 + 1))
  | _ => r.2.2

/-- Count a request that names a counter. -/
def countReq (s : State) (p : Pkt) : State :=
  match cntOf p with
  | some c => countUp s p.job c
  | none => s

/-! Serving a piece on this node (R19, R20, R268, R445) -/

/-- What serving a piece came to. -/
structure Served where
  fin : Fin
  bytes : Nat
  data : List Gran
  value : Nat
  stored : Bool
  fathom : Nat
deriving DecidableEq, Repr

/-- A piece that failed at a node of a Fathom level. -/
def failed (fathom : Nat) (f : Fin) : Served := ⟨f, 0, [], 0, false, fathom⟩

/-- The fault address of a byte of a request: PVA at the entry node, PPA at the owning node. -/
def reqFault (p : Pkt) (st : Status) (a : Nat) : Fin := if p.isPpa then Fin.atPpa st a else Fin.atPva st a

/-- The granules of a piece: address in the request's own space and the translation of each. -/
def pieceGrans (c : Piece) : List (Nat × Xl) :=
  (List.range (granCount c.pva c.len)).map (fun i =>
    let a := c.pva / 64 * 64 + 64 * i
    (a, { c.xl with ppa := c.xl.ppa / 64 * 64 + 64 * i, coherent := false }))

/-- A piece is served here. -/
def pieceLocal (s : State) (c : Piece) : Bool := c.xl.zeroFill || ownerOf c.xl.ppa == s.dev.node

/-- Read a piece. A granule whose guard fails is not carried on: where the piece goes out with the status of a poisoned one, its place is
taken by a poisoned granule (R15, R445; DEDUCED, log 136). -/
def serveRead (s : State) (p : Pkt) (c : Piece) : Served × State :=
  (pieceGrans c).foldl (fun a g =>
    let r := loadGran a.2 g.2 []
    match r.1 with
    | .inr f => ({ a.1 with fin := Fin.worse a.1.fin f }, r.2)
    | .inl d =>
      let f := if d.poison then reqFault p .poisoned g.1 else if granOk d then Fin.ok else reqFault p .guardMismatch g.1
      ({ a.1 with fin := Fin.worse a.1.fin f, data := a.1.data ++ [if granOk d then d else poisonGran] }, r.2))
    (⟨Fin.ok, c.len, [], 0, false, fathomNow s⟩, s)

/-- The granule to store for granule i of a written piece: whole, or merged under the old one (R102). -/
def mergeReq (s : State) (p : Pkt) (c : Piece) (g : Nat × Xl) (new : Gran) : (Gran ⊕ Fin) × State :=
  let lo := max c.pva g.1
  let hi := min (c.pva + c.len) (g.1 + 64)
  if !granOk new then (.inr (reqFault p .guardMismatch g.1), s)
  else if hi - lo = 64 then (.inl new, s)
  else
    let r := loadGran s g.2 []
    match r.1 with
    | .inr f => (.inr f, r.2)
    | .inl old =>
      if !granOk old then (.inr (reqFault p .guardMismatch g.1), r.2)
      else (.inl (mergeGran old [(lo - g.1, (new.data.drop (lo - g.1)).take (hi - lo))] new.poison), r.2)

/-- Store granules of this node, whole aligned blocks as blocks (R232). -/
def storeGrans (s : State) (ws : List GWrite) : State :=
  let blocks : NMap (List GWrite) := ws.foldl (fun m w => nput m (w.pva / 4096) (ngetD [] m (w.pva / 4096) ++ [w])) []
  blocks.foldl (fun s b =>
    match blockWrite s b.2 with
    | some (q, a, gs, key) => memStoreBlock s q a gs (dataKey s key)
    | none => b.2.foldl (fun s w =>
        match locate s w.xl.place (localOf w.xl.ppa) with
        | some q => memStore s q w.xl.ppa w.gran (dataKey s w.xl.keyTenant)
        | none => s) s) s

/-- The attribution of a request's work (R421). -/
def reqAttrib (s : State) (r : ReqRun) : State :=
  attrib s (if r.port < 12 then 2 else 1)
    (if r.pkt.ptype = 1 then 0 else if r.pkt.ptype = 2 then 1 else if r.pkt.ptype = 3 then 2 else 3) r.pkt.tenant

/-- A granule's memory is lost (spec 11 R256). -/
def granLost (s : State) (x : Xl) : Bool :=
  !x.zeroFill && (match locate s x.place (localOf x.ppa) with | some q => isLost s q | none => false)

/-- Write a piece: every granule is formed before the first is stored. -/
def serveWrite (s : State) (p : Pkt) (c : Piece) (data : List Gran) : Served × State :=
  let r := ((pieceGrans c).zip data).foldl (fun (a : (List GWrite ⊕ Fin) × State) x =>
    match a.1 with
    | .inr _ => a
    | .inl ws =>
      let m := mergeReq a.2 p c x.1 x.2
      match m.1 with
      | .inr f => (.inr f, m.2)
      | .inl g => (.inl (ws ++ [{ pva := x.1.1, xl := x.1.2, gran := g }]), m.2)) (.inl [], s)
  match r.1 with
  | .inr f => (failed (fathomNow s) f, r.2)
  | .inl ws =>
    let bad := ((pieceGrans c).zip data).find? (fun x => x.2.poison || granLost s x.1.2)
    let f := match bad with | some x => reqFault p .poisoned x.1.1 | none => Fin.ok
    (⟨f, c.len, [], 0, false, fathomNow s⟩, countReq (storeGrans r.2 ws) p)

/-- The position of a request from the fabric at a granule of this node: the ROUTER's XBAR port of the die that holds it (R222, R226). -/
def fabricPos (s : State) (x : Xl) : Nat :=
  match locate s x.place (localOf x.ppa) with | some p => if stackOf p < 6 then 0 else 16 | none => 0

/-- Execute an ATOMIC_REQ (R118, R319). -/
def serveAtomic (s : State) (p : Pkt) (c : Piece) : Served × State :=
  let r := atomicAt s p.tenant p.reqId p.src (fabricPos s c.xl) { c.xl with coherent := false } c.pva (atOp p) (bitsOf p.body 0 64) (bitsOf p.body 64 64) []
  let s := if r.1.fin.st = .done then countReq r.2 p else r.2
  let fin := if p.isPpa && r.1.fin.kind == .pva then { r.1.fin with kind := .ppa } else r.1.fin
  (⟨fin, if fin.st = .done ∨ fin.st = .replayed then 8 else 0, [], r.1.old, r.1.stored, fathomNow s⟩, s)

/-- Every granule of a piece has a place here (R20, R216). -/
def placeFault (s : State) (c : Piece) : Option Fin :=
  if c.xl.zeroFill then none
  else ((pieceGrans c).find? (fun g => (locate s g.2.place (localOf g.2.ppa)).isNone)).map (fun g => Fin.atPpa .unmapped (max g.2.ppa (if g.1 = c.pva / 64 * 64 then c.xl.ppa else g.2.ppa)))

/-- The directory step of a piece (R268): true when every line may be served now. -/
def dirStep (s : State) (r : ReqRun) (c : Piece) : (Bool ⊕ Fin) × State :=
  if !c.xl.coherent then (.inl true, s)
  else (pieceGrans c).foldl (fun a g =>
    match a.1 with
    | .inl true =>
      let q : DirReq := { line := lineOf g.2.ppa, op := if r.pkt.ptype = 1 then 1 else 2, agent := 0, req := some r.id, pkt := some r.pkt,
                          key := c.xl.keyTenant, place := c.xl.place, port := min r.port 14 }
      let d := dirEnter a.2 q
      match d.1 with
      | .serve => (.inl true, d.2.2)
      | .wait => (.inl false, d.2.2)
      | .failed f => (.inr f, d.2.2)
    | _ => a) (.inl true, s)

/-- Granules of the request's data that belong to a piece. -/
def pieceData (r : ReqRun) (c : Piece) : List Gran :=
  (r.pkt.data.drop (c.pva / 64 - reqStart r.pkt / 64)).take (granCount c.pva c.len)

/-- Serve a piece on this node, or leave it waiting at the directory. -/
def serveLocal (s : State) (r : ReqRun) (c : Piece) : Option Served × State :=
  match placeFault s c with
  | some f => (some (failed (fathomNow s) f), s)
  | none =>
    if keyGone s c.xl then (some (failed (fathomNow s) (Fin.of .tenantGone)), s)
    else
      let d := dirStep s r c
      match d.1 with
      | .inr f => (some (failed (fathomNow s) f), d.2)
      | .inl false => (none, d.2)
      | .inl true =>
        let p := if r.pieces.length ≤ 1 then r.pkt else { r.pkt with body := if r.pkt.ptype = 2 then r.pkt.body % 2 ^ 32 else r.pkt.body }
        let s := if c.xl.coherent then stampReq d.2 r.pkt 5 else d.2
        let s := if c.xl.zeroFill then s else stampReq s r.pkt 8
        let q :=
          if p.ptype = 1 then serveRead s p c
          else if p.ptype = 2 then serveWrite s p c (pieceData r c)
          else serveAtomic s p c
        (some q.1, if c.xl.zeroFill then q.2 else stampReq q.2 r.pkt 9)

/-- Forward a piece to its owning node (R19). The counter of a request in two pieces goes with the last one. -/
def forwardPiece (s : State) (r : ReqRun) (c : Piece) : State :=
  let s := modTag (stampReq s r.pkt 6) false (reqTag r.pkt) (fun t => { t with fwd := true })
  let low := if r.pkt.ptype = 1 ∨ r.pkt.ptype = 2 then c.len + r.pkt.body / 2 ^ 32 * 2 ^ 32 else r.pkt.body
  let body := if r.pkt.ptype = 2 ∧ 1 < r.pieces.length then low % 2 ^ 32 else low
  sendReq s { r.pkt with
    dst := ownerOf c.xl.ppa, src := s.dev.node, addr := c.xl.ppa, isPpa := true, admClass := r.cls, fathom := 0, icls := c.xl.place.icls,
    affEn := c.xl.place.affEn, affStack := c.xl.place.affStack, keyTenant := c.xl.keyTenant, hops := 0, status := 0, body := body,
    data := if r.pkt.ptype = 2 then pieceData r c else [] } (some r.id) none 0

/-- A piece may be followed by the next (R446). -/
def goesOn (f : Fin) : Bool := f.st == .done || f.st == .poisoned || f.st == .busError

/-- Join what a piece came to (R446). -/
def joinPiece (r : ReqRun) (v : Served) : ReqRun :=
  { r with fin := if r.served = [] then v.fin else Fin.worse r.fin v.fin, bytes := r.bytes + v.bytes, data := r.data ++ v.data,
           value := v.value, stored := v.stored, fathom := max r.fathom v.fathom, pieces := r.pieces.drop 1, served := r.served ++ r.pieces.take 1 }

/-- A recorded request that finds the cache full ends with ERR_RSP BUSY (R320). -/
def busyAtomic (r : ReqRun) : Bool := r.fin.st == .busy

/-- Serve or forward the pieces of a request in order, with fuel. -/
def runReq : Nat → State → Nat → State
  | 0, s, _ => s
  | n + 1, s, id =>
    match reqOf s id with
    | none => s
    | some r =>
      match r.pieces with
      | [] => if busyAtomic r then refuseReq s r 0 r.fin else answerReq s r
      | c :: _ =>
        if pieceLocal s c then
          let q := serveLocal s r c
          match q.1 with
          | none => q.2
          | some v =>
            let r2 := joinPiece r v
            runReq n (modReq q.2 id (fun _ => if goesOn v.fin then r2 else { r2 with pieces := [] })) id
        else forwardPiece s r c

/-! Translation and admission -/

/-- Two translations continue as one piece (R446): one node, one placement and key, and addresses that follow. -/
def continues (a : Piece) (x : Xl) : Bool :=
  a.xl.zeroFill == x.zeroFill && a.xl.coherent == x.coherent && a.xl.place == x.place && a.xl.keyTenant == x.keyTenant
  && (x.zeroFill || (ownerOf a.xl.ppa == ownerOf x.ppa && a.xl.ppa + a.len == x.ppa))

/-- The pieces of a request from its translated ells (R446). -/
def makePieces (a n : Nat) (xl : NMap Xl) : List Piece :=
  (ellCuts a n).foldl (fun ps p =>
    match xlAt xl p with
    | none => ps
    | some x =>
      let len := min (a + n) ((p / ellBytes + 1) * ellBytes) - p
      match ps.getLast? with
      | some l => if continues l x then ps.dropLast ++ [{ l with len := l.len + len }] else ps ++ [⟨p, len, x⟩]
      | none => [⟨p, len, x⟩]) []

/-- A caching request goes to its home (R261, R264, R267); what became ready at the directory comes back. -/
def cacheReq (s : State) (r : ReqRun) (x : Xl) : List DirReq × State :=
  let p : Pkt := { r.pkt with
    dst := ownerOf x.ppa, addr := x.ppa, isPpa := true, admClass := r.cls, icls := x.place.icls, affEn := x.place.affEn,
    affStack := x.place.affStack, keyTenant := x.keyTenant }
  if !x.coherent || !feature s 4 then ([], refuseReq s r r.cls (Fin.atPva .accessDenied r.pkt.addr))
  else
    let s := flowDone (dropReq s r.id) r.port r.pkt
    let s := endReq (stampReq s r.pkt (if ownerOf x.ppa ≠ s.dev.node then 6 else 5)) r.pkt 0 r.cls (fathomNow s)
    if ownerOf x.ppa ≠ s.dev.node then ([], inject s p)
    else
      match agentOf s p.src with
      | none => ([], cohErr (logDir s 5 (lineOf x.ppa) p.src) p (Fin.atPpa .accessDenied x.ppa))
      | some a =>
        if agentFailed s a then ([], cohErr s p (Fin.atPpa .accessDenied x.ppa))
        else if (locate s x.place (localOf x.ppa)).isNone then ([], cohErr s p (Fin.atPpa .unmapped x.ppa))
        else if !tenantActive s x.keyTenant then ([], cohErr s p (Fin.of .tenantGone))
        else
          let q : DirReq := { line := lineOf x.ppa, op := p.ptype, agent := a, req := none, pkt := some p, key := x.keyTenant, place := x.place,
                              via := if r.pkt.isPpa then none else some (x.ext.pvaStart, r.pkt.addr / ellBytes), port := min r.port 14 }
          let d := dirEnter s q
          (d.2.1, match d.1 with | .failed f => cohErr d.2.2 p f | _ => d.2.2)

/-- Resume what the directory let go: plain requests that may be served, and requests that failed there. -/
def afterDir (s : State) (l : List (DirReq × Option Fin)) : State :=
  l.foldl (fun s q =>
    match q.1.req, q.2 with
    | some id, none => runReq 4 s id
    | some id, some f =>
      (match reqOf s id with
       | some r => runReq 4 (modReq s id (fun _ => { joinPiece r (failed (fathomNow s) f) with pieces := [] })) id
       | none => s)
    | none, some f => (match q.1.pkt with | some p => cohErr s p f | none => s)
    | none, none => s) s

/-- Settle the directory and resume what it lets go. -/
def settleDir (s : State) (ready : List DirReq) : State := let d := dirSettle s ready; afterDir d.2 d.1

/-- Translate a request and serve it (R18 steps 4 to 6, R187). -/
def translateReq (s : State) (id : Nat) : State :=
  match reqOf s id with
  | none => s
  | some r =>
    let a := reqStart r.pkt
    let n := reqLen r.pkt
    let x := xlateAll (reqAttrib (stampReq s r.pkt 3) r) [] r.pkt.tenant r.binds ((ellCuts a n).flatMap (fun p => (reqNeeds r.pkt).map (fun k => (p, k))))
    let s := modReq x.2 id (fun q => { q with binds := x.1.binds })
    if x.1.fin.st ≠ .done then refuseReq s r r.cls x.1.fin
    else
      let full := !flightRoom s r.pkt.tenant x.1.xl
      if x.1.waits ≠ [] ∨ full then
        let h := holdItem s r.pkt.tenant (if x.1.waits ≠ [] then x.1.waits else [.slot]) (.req id)
        if h.1 then h.2 else let b := busyFin h.2; refuseReq b.2 r 0 b.1
      else if 0x40 ≤ r.pkt.ptype then
        match xlAt x.1.xl a with
        | some y => let c := cacheReq (sampleXlate s false (reqTag r.pkt) y.ppa y.keyTenant) { r with binds := x.1.binds } y; settleDir c.2 c.1
        | none => s
      else
        let s := addFlights s (.request id) 0 0 r.pkt.tenant x.1.xl
        runReq 4 (modReq (sampleFirst s false (reqTag r.pkt) x.1.xl) id (fun q => { q with pieces := makePieces a n x.1.xl })) id

/-- Bytes a request is charged, before the overhead (R324). -/
def reqCharge (p : Pkt) : Nat := if p.ptype = 1 ∨ p.ptype = 2 then p.body % 2 ^ 32 else if p.ptype = 3 then 8 else 64

/-- Charge a request at its entry node (R18 step 3, R324 to R326, R330). -/
def admitReq (s : State) (id : Nat) : State :=
  match reqOf s id with
  | none => s
  | some r =>
    let host := hostBkt s r.pkt.src
    let d := decideCharge s host r.pkt.tenant (reqCharge r.pkt) true
    let s := stampReq (countCls (reqAttrib d.2 r) d.1.cls) r.pkt 2
    if d.1.cls = 2 then refuseReq s r 2 ⟨.busy, 0, .none, ceilUs d.1.waitNs⟩
    else
      let s := modReq s id (fun q => { q with cls := d.1.cls, waitUs := ceilUs d.1.waitNs })
      if d.1.waitNs = 0 then translateReq s id else holdWork s r.pkt.tenant host (reqCharge r.pkt) d.1 (.req id)

/-! The NIE at the entry node (R28, R313 to R316, R319) -/

/-- Translate a rank (R314). -/
def rankNode (s : State) (p : Pkt) : (Nat ⊕ Fin) × State :=
  if !getB s Reg.nieJob0_valid p.job || decide (getF s Reg.nieJob4_rank_count p.job ≤ p.dst) then (.inr (Fin.of .accessDenied), s)
  else
    let a := getF s Reg.nieJob8_rank_ppa p.job + 2 * p.dst
    let r := hwRead s (.tenant (getF s Reg.nieJob0_tenant p.job)) a 2
    match r.2.1 with
    | .poison _ => (.inr (Fin.atPpa .poisoned (a / 64 * 64)), r.2.2)
    | .guard _ => (.inr (Fin.atPpa .guardMismatch (a / 64 * 64)), r.2.2)
    | .none =>
      let e := leToNat r.1
      if bitOf e 15 then (.inl (e % 2 ^ 14), r.2.2) else (.inr (Fin.of .accessDenied), r.2.2)

/-- The job check of R28. -/
def jobOk (s : State) (p : Pkt) : Bool := getB s Reg.nieJob0_valid p.job && getF s Reg.nieJob0_tenant p.job == p.tenant

/-- What a flow number comes to (R316). -/
inductive FlowRes where
  | go
  | hold
  | busy
  | again
  | denied
deriving DecidableEq, Repr

/-- The check of a packet's flow number. Numbers up to 32,768 behind the expected one have completed (DEDUCED, log 44). -/
def flowCheck (s : State) (p : Pkt) : FlowRes :=
  if p.flow = 0 then .go
  else match nfind s.nie.flows p.flow with
    | none => .denied
    | some f =>
      let k := (p.seq + 65536 - f.next) % 65536
      if f.job ≠ p.job ∨ f.src ≠ p.src then .denied
      else if k = 0 then .go
      else if 32768 ≤ k then .again
      else if 64 < k ∨ 1024 ≤ s.nie.reorder.length then .busy
      else .hold

/-- The types whose results are recorded (R319). -/
def recorded (ptype : Nat) : Bool := ptype == 3 || ptype == 5 || ptype == 6

/-- Answer a request from the recent-completions cache (R118, R319). -/
def replayRsp (s : State) (p : Pkt) (e : RcEnt) : State :=
  let f : Fin := ⟨.replayed, e.addr, e.kind, e.st % 256 + (if e.ptype = 3 then e.hint else 0)⟩
  endReq (inject s (response s p (rspType p.ptype) p.admClass f e.bytesDone e.value [])) p 13 p.admClass (fathomNow s)

/-- A repeated flow number: answered from the cache, or discarded and counted (R316). -/
def repeatReq (s : State) (p : Pkt) : State :=
  match (if recorded p.ptype then rcFind s p.tenant p.reqId p.ptype else none) with
  | some e => replayRsp s p e
  | none => bump s Reg.nieDup_count

/-- After the flow check: the body, the cache, then admission. -/
def entryGo (s : State) (port : Nat) (p : Pkt) : State :=
  if !bodyOk p then flowDone (errRsp s p 0 (Fin.of .badDescriptor)) port p
  else match (if recorded p.ptype then rcFind s p.tenant p.reqId p.ptype else none) with
    | some e => flowDone (replayRsp s p e) port p
    | none => let a := addReq s port p; admitReq a.2 a.1

/-- The flow step of the entry node (R316). -/
def entryFlow (s : State) (port : Nat) (p : Pkt) : State :=
  match flowCheck s p with
  | .go => entryGo s port p
  | .hold =>
    let b := fun (f : Flow) => { f with bitmap := Nat.lor f.bitmap (2 ^ ((p.seq + 65536 - f.next) % 65536 - 1)) }
    { s with nie := { s.nie with reorder := s.nie.reorder ++ [(port, p)],
                                 flows := s.nie.flows.map (fun e => if e.1 = p.flow then (e.1, b e.2) else e) } }
  | .busy => let h := freeRetry s; errRsp h.2 p 0 ⟨.busy, 0, .none, h.1⟩
  | .again => repeatReq s p
  | .denied => errRsp s p 0 (Fin.of .accessDenied)

/-- The rank and job steps of a packet from a peer that is no SR2, whatever its type (R28, R314): the packet with its node, or its
failure. -/
def entryJob (s : State) (port : Nat) (p : Pkt) : (Pkt ⊕ Fin) × State :=
  if fromSr2 s port then (.inl p, s)
  else
    let q : (Pkt ⊕ Fin) × State :=
      if p.dstRank then
        let r := rankNode s p
        match r.1 with
        | .inl n => (.inl (sealHdr { p with dst := n, dstRank := false }), r.2)
        | .inr f => (.inr f, r.2)
      else (.inl p, s)
    match q.1 with
    | .inr _ => q
    | .inl p2 => if jobOk q.2 p2 then q else (.inr (Fin.of .accessDenied), q.2)

/-- The rank, job and tenant steps of a request at its entry node (R18 step 2, R27, R28, R314). A request that presents a PPA is no
tenant's to make (R30; DESIGN CHOICE, log 45). -/
def entryChecks (s : State) (port : Nat) (p : Pkt) : (Pkt ⊕ Fin) × State :=
  let q := entryJob s port p
  match q.1 with
  | .inr _ => q
  | .inl p2 => if tenantActive q.2 p2.tenant then q else (.inr (Fin.of .tenantGone), q.2)

/-- A request at its entry node. -/
def entryReq (s : State) (port : Nat) (p : Pkt) : State :=
  let r := entryChecks (drawReq s port p) port p
  let q := (r.1, stampReq r.2 p 1)
  match q.1 with
  | .inr f => errRsp q.2 p 0 f
  | .inl p2 =>
    if p2.isPpa then errRsp q.2 p2 0 (Fin.atPpa .accessDenied p2.addr)
    else if fromSr2 q.2 port then entryGo q.2 port p2
    else entryFlow q.2 port p2

/-! The owning node (R19, R20, R27, R118) -/

/-- The directory has to do with a line: it tracks it, or a request for it stands there. -/
def dirKnows (s : State) (line : Nat) : Bool := (dirEnt s line).isSome || linePinned s line || flushing s line || s.dir.queue.any (fun q => q.line == line)

/-- The translation that a forwarded request carries (R19, R218). Its header does not say whether its extent is coherent; a PPA range is mapped
coherent in every tenant or in none (R37), so that a caching request and a line that the directory knows pass it and no other does (DEDUCED,
log 46). -/
def hdrXl (s : State) (p : Pkt) : Xl :=
  let lines := (List.range (granCount p.addr (reqLen p))).map (fun i => lineOf (p.addr / 64 * 64 + 64 * i))
  ⟨p.addr, ⟨p.icls, p.affEn, p.affStack⟩, p.keyTenant, decide (0x40 ≤ p.ptype) || lines.any (dirKnows s), false, parseExt 0, 0⟩

/-- Serve a run that arrived with a PPA. One that names another node than this, which owns the PPA, ends UNMAPPED here (DESIGN CHOICE, log 137:
R20 speaks of requests at their owning node). -/
def ownerRun (s : State) (id : Nat) : State :=
  match reqOf s id with
  | none => s
  | some r =>
    let s := reqAttrib s r
    let p := r.pkt
    let fail := fun (f : Fin) => answerReq s { r with fin := f }
    if !tenantActive s p.tenant then fail (Fin.of .tenantGone)
    else if ownerOf p.addr ≠ s.dev.node then fail (Fin.atPpa .unmapped p.addr)
    else if !getB s Reg.smcLock_zmap_ready then (holdItem s p.tenant [.zmap] (.req id)).2
    else if 0x40 ≤ p.ptype then
      let c := cacheReq s r (hdrXl s p)
      settleDir c.2 c.1
    else runReq 4 (modReq s id (fun q => { q with pieces := [⟨reqStart p, reqLen p, hdrXl s p⟩] })) id

/-- A forwarded request at its owning node. -/
def ownerReq (s : State) (port : Nat) (p : Pkt) : State := let a := addReq s port p; ownerRun a.2 a.1

/-- A request packet that reaches this node's NIE: forwarded by an SR2, or at its entry node. -/
def takeReq (s : State) (port : Nat) (p : Pkt) : State :=
  let a := arrives s port p
  if !a.1 then a.2
  else if fromSr2 a.2 port && p.isPpa then ownerReq a.2 port p
  else entryReq a.2 port (ingressData a.2 port p)

/-! Resumption -/

/-- A request that waited translates again, or is served when it came with a PPA. -/
def resumeReq (s : State) (id : Nat) : State :=
  match reqOf s id with
  | none => s
  | some r => if r.pkt.isPpa then ownerRun s id else translateReq s id

/-- Resume one held item (R184 step 5): tiles from step 1, requests at translation, an operator where it stood. A DMA channel goes
on by DMA_SUSPEND_RESUME, and a batch by TILE_DISPATCH. -/
def resumeItem (s : State) (it : HeldItem) : State :=
  match it with
  | .req id => resumeReq s id
  | .desc uid => (match descOf s uid with
    | some d => if isDma d then s else modDesc s uid (fun x => { x with phase := .ready })
    | none => s)
  | .tile uid num => resumeTile s uid num

/-- What items wait for has come: those that wait for nothing else resume, in order (R184). -/
def resumeHeld (s : State) (p : HeldWhy → Bool) : State :=
  let mine := s.xtu.held.filter (fun h => h.whys.any p && h.whys.all p)
  let rest := (s.xtu.held.filter (fun h => !(h.whys.any p && h.whys.all p))).map (fun h => { h with whys := h.whys.filter (fun w => !p w) })
  mine.foldl (fun s h => resumeItem s h.item) { s with xtu := { s.xtu with held := rest } }

/-- A suspended transfer fails at the piece that waited (R206). -/
def failSuspended (s : State) (uid : Nat) (f : Fin) : State :=
  match runOf s uid with
  | some (e, r) =>
    failPiece (modRun (modDesc s uid (fun d => { d with phase := .running })) e (fun x => { x with suspended := false })) e r.ahead 6 f
  | none => endDma s uid f

/-- End one held item with a status. -/
def failItem (s : State) (it : HeldItem) (f : Fin) : State :=
  match it with
  | .req id => (match reqOf s id with
    | some r => if r.pkt.isPpa then answerReq s { r with fin := f } else refuseReq s r r.cls f
    | none => s)
  | .desc uid => (match descOf s uid with
    | some d => if isBatch d then batchFail s uid f else if isDma d then failSuspended s uid f else endDesc s d f false
    | none => s)
  | .tile uid num => endTile s uid num f

/-- End the held items of a kind, each with a status of its own. -/
def failWhere (s : State) (p : Held → Bool) (f : Held → Fin) : State :=
  let mine := s.xtu.held.filter p
  mine.foldl (fun s h => failItem s h.item (f h)) { s with xtu := { s.xtu with held := s.xtu.held.filter (fun h => !p h) } }

/-- End every item that waits for one of some things, with the status that the first of them gives (R184, R185). -/
def failHeld (s : State) (p : HeldWhy → Bool) (f : HeldWhy → Fin) : State :=
  failWhere s (fun h => h.whys.any p) (fun h => match h.whys.find? p with | some w => f w | none => Fin.ok)

/-- Items that wait for a slot of the flight table try again when one may be free (R189). -/
def slotRetry (s : State) : State := if s.xtu.held.any (fun h => h.whys.contains .slot) then resumeHeld s (fun w => w == .slot) else s

/-! Responses (R304, R318, R445) -/

/-- The end that a response carries. -/
def rspFin (p : Pkt) : Fin := ⟨Status.ofCode p.status, bitsOf p.body 64 56, FaultKind.ofCode (bitsOf p.body 120 4), bitsOf p.body 32 32⟩

/-- The bytes a response reports. -/
def rspBytes (p : Pkt) : Nat := p.body % 2 ^ 32

/-- The value a response carries. -/
def rspValue (p : Pkt) : Nat := bitsOf p.body 128 64

/-- The outstanding request that a response answers: of its own kind, or any kind for an ERR_RSP (R304). -/
def matchOutst (s : State) (p : Pkt) : Option Outst :=
  s.nie.outst.find? (fun o => o.tenant == p.tenant && o.reqId == p.reqId && o.dst == p.src && (p.ptype == 0x8F || rspType o.ptype == p.ptype))

/-- Take an outstanding request out of the list. -/
def dropOutst (s : State) (o : Outst) : State := { s with nie := { s.nie with outst := s.nie.outst.erase o } }

/-- A piece that was forwarded came back (R446). -/
def pieceBack (s : State) (id : Nat) (v : Served) : State :=
  match reqOf s id with
  | none => s
  | some r =>
    let r2 := joinPiece r v
    slotRetry (runReq 4 (modReq s id (fun _ => if goesOn v.fin then r2 else { r2 with pieces := [] })) id)

/-- The highest Fathom level of the nodes that served a descriptor (R63). -/
def noteFathom (s : State) (uid : Nat) (p : Pkt) : State := modDesc s uid (fun d => { d with fathom := max d.fathom p.fathom, cls := max d.cls p.admClass })

end Sys2Proof.Machine
end

