-- ==== Sys2Proof/Machine/Regions.lean ====
section
/-!
DEFINITION. Machine/Regions.lean: regions, their versions and PUBLISH (spec 02 R38 to R45, R451), and the packets that carry
sets and publishes between nodes (spec 14).
-/
namespace Sys2Proof.Machine
open Sys2Proof

/-- A region as a faulting address (spec 03: kind 3). -/
def atRegion (st : Status) (region : Nat) : Fin := ⟨st, region, .region, 0⟩

/-! Bound versions (R42, R43) -/

/-- Work of this node, tile batches of other nodes included, that is bound to a version. -/
def boundHere (s : State) (region version : Nat) : Bool :=
  s.qmg.descs.any (fun d => d.binds.contains ⟨region, version⟩) || s.nie.reqs.any (fun r => r.binds.contains ⟨region, version⟩)

/-- Drop the replaced versions that nothing is bound to, here or at a node that is not known to have drained (R43, log 47). -/
def trimLive (s : State) : State :=
  { s with xtu := { s.xtu with live := s.xtu.live.filter (fun v => boundHere s v.region v.version || !v.far.isEmpty) } }

/-- What the home learns of other nodes: of its replaced versions of a region, work stays bound at these (version, node) and no other
(log 47). -/
def learnBound (s : State) (region : Nat) (bound : List (Nat × Nat)) : State :=
  trimLive { s with xtu := { s.xtu with live := s.xtu.live.map (fun v =>
    if v.region = region then { v with far := v.far.filter (fun n => bound.contains (v.version, n)) } else v) } }

/-- A node learned a replaced version's set: work there may be bound to it. -/
def noteFar (s : State) (region version node : Nat) : State :=
  { s with xtu := { s.xtu with live := s.xtu.live.map (fun v =>
    if v.region = region ∧ v.version = version ∧ !v.far.contains node then { v with far := v.far ++ [node] } else v) } }

/-- A replaced version is still live (R43). -/
def stillBound (s : State) (region version : Nat) : Bool :=
  boundHere s region version || s.xtu.live.any (fun v => v.region == region && v.version == version && !v.far.isEmpty)

/-- Live versions of a region at its home: the current one and those still bound (R43). -/
def liveCount (s : State) (region : Nat) : Nat := 1 + (s.xtu.live.filter (fun v => v.region == region)).length

/-! The set (R40) -/

/-- Check set records from i on, n of them, of a set of owner t: the first bad record's PPA, or a granule that could not be read: R43 states
no end for that one, which ends as R174 does, at the 64-byte granule's PPA, with an error-ring entry (DESIGN CHOICE, log 138). -/
def validateSet : Nat → State → Nat → Nat → Nat → Nat → Nat → (Option Fin × State)
  | 0, s, _, _, _, _, _ => (none, s)
  | n + 1, s, t, base, i, prev, length =>
    let k := HwKey.tenant t
    let r := readRec s k base i
    match r.2.1 with
    | .none =>
      if setRecOk r.2.2 r.1 length && (i == 0 || decide (prev ≤ r.1.pvaStart)) then
        validateSet n r.2.2 t base (i + 1) (r.1.pvaStart + r.1.length) length
      else (some (Fin.atPpa .badDescriptor (base + i * 32)), r.2.2)
    | e => (some (badGran e ((base + i * 32) / 64 * 64)), logXtu r.2.2 3 t ((base + i * 32) / 64 * 64))

/-! PUBLISH at the home (R43, R45) -/

/-- The common checks and those of the home, in order, before the region record is read (R43, R451). The pred_count of the publisher's queue is
not known here (DEDUCED, log 47). -/
def homeFin (s : State) (raw tenant : Nat) : Option Fin :=
  if hOpcode raw ≠ 0x50 || badPublish s raw || (hPredEn raw && !feature s 7) || hIrqHalf raw then some (Fin.of .badDescriptor)
  else if hTenant raw ≠ tenant then some (Fin.of .accessDenied)
  else if regionHome (pbRegion raw) ≠ s.dev.node then some (atRegion .unmapped (pbRegion raw))
  else if !tenantActive s tenant then some (Fin.of .tenantGone)
  else none

/-- The checks and the swap of R43 on the region record: how the PUBLISH fails, or the version it replaced. Every node that learned the replaced
set may have work bound to it. -/
def publishSwap (s : State) (raw tenant : Nat) : (Nat ⊕ Fin) × State :=
  let s := trimLive s
  let region := pbRegion raw
  let i := region % 2 ^ 18
  if rgnCount s ≤ i then (.inr (atRegion .unmapped region), s)
  else
    let q := readRgn s i
    let r := q.1
    let s := q.2.2
    match q.2.1 with
    | .none =>
      if !r.opn then (.inr (atRegion .unmapped region), s)
      else if tenant ≠ r.owner then (.inr (Fin.of .accessDenied), s)
      else if pbExpected raw ≠ r.version then (.inr ⟨.versionConflict, 0, .none, r.version⟩, s)
      else
        let v := validateSet (pbCount raw) s r.owner (pbSet raw) 0 0 (pbLength raw)
        match v.1 with
        | some f => (.inr f, v.2)
        | none =>
          let s := v.2
          if r.version = 2 ^ 32 - 1 then (.inr (atRegion .badDescriptor region), s)
          else if 4 ≤ liveCount s region then let h := freeRetry s; (.inr ⟨.busy, 0, .none, h.1⟩, h.2)
          else
            let new : RgnRec := { r with version := r.version + 1, setPpa := pbSet raw, setCount := pbCount raw, length := pbLength raw }
            let s := hwWrite s .device (rgnPpa s i) (natToLe 32 (rgnNat new))
            let far := (s.xtu.nodesOf.filter (fun x => x.1 == region)).map (·.2)
            (.inl r.version, trimLive { s with xtu := { s.xtu with live := s.xtu.live ++ [⟨region, r.version, r.setPpa, r.setCount, r.length, far⟩] } })
    | e => (.inr (badGran e (rgnPpa s i)), logXtu s 3 tenant (rgnPpa s i))

/-- One PUBLISH at its home, from its first check on (R43, R451). -/
def publishTry (s : State) (raw tenant : Nat) : (Nat ⊕ Fin) × State :=
  match homeFin s raw tenant with
  | some f => (.inr f, s)
  | none => publishSwap s raw tenant

/-- Answer a PUBLISH: its descriptor's record, or CMD_RSP, recorded in the cache (R43, R319). -/
def publishEnd (s : State) (uid : Option Nat) (reply : Option Pkt) (f : Fin) : State :=
  let s := match uid.bind (descOf s) with
    | some d => endDesc s d f false
    | none => s
  match reply with
  | some p =>
    let f := busFin s p.tenant f
    let s := rcPut s ⟨p.tenant, p.reqId, 0x06, p.src, f.st.code, f.hint, 0, 0, f.addr, f.kind, s.nowNs⟩
    inject s (response s p 0x86 p.admClass f 0 0 [])
  | none => s

/-- Start the withdrawal of cached copies at every node that learned the set (R43). -/
def startWithdraw (s : State) (raw replaced : Nat) (uid : Option Nat) (reply : Option Pkt) : State :=
  let region := pbRegion raw
  let nodes := (s.xtu.nodesOf.filter (fun x => x.1 == region)).map (·.2)
  let s := nodes.foldl (fun s n => inject s { pkt0 s n 0xC4 4 with body := region + replaced * 2 ^ 32 }) s
  { s with xtu := { s.xtu with
      nodesOf := s.xtu.nodesOf.filter (fun x => x.1 ≠ region)
      publishes := s.xtu.publishes ++ [⟨region, replaced, replaced + 1, nodes, pbDrain raw, uid, reply⟩] } }

/-- Process one PUBLISH of a region of which none is in progress (R43). -/
def publishRun (s : State) (w : PubWait) : State :=
  let r := publishTry s w.raw w.tenant
  match r.1 with
  | .inr f => publishEnd r.2 w.uid w.reply f
  | .inl v => startWithdraw r.2 w.raw v w.uid w.reply

/-- The arbiter of a region's PUBLISH order chooses among those that wait, the oldest of each position (R43, R226). The spec gives such a
request no rank: all have 0 (DESIGN CHOICE, log 47). -/
def publishPick (s : State) (region : Nat) : Option PubWait × State :=
  let mine := s.xtu.pubQ.filter (fun w => w.region == region)
  let a := arbPick 64 (arbN s Reg.xbarArbCtl_n_home) (ngetD arb0 s.xtu.pubArbs region) (((mine.map (·.port)).eraseDups).map (fun p => (p, 0)))
  (a.1.bind (fun p => mine.find? (fun w => w.port == p)), { s with xtu := { s.xtu with pubArbs := nput s.xtu.pubArbs region a.2 } })

/-- The publishes that wait for a region, as its arbiter admits them, until one is in progress; with fuel. -/
def publishNext : Nat → State → Nat → State
  | 0, s, _ => s
  | n + 1, s, region =>
    if s.xtu.publishes.any (fun p => p.region == region) || !s.xtu.pubQ.any (fun w => w.region == region) then s
    else
      let c := publishPick s region
      match c.1 with
      | none => c.2
      | some w => publishNext n (publishRun { c.2 with xtu := { c.2.xtu with pubQ := c.2.xtu.pubQ.erase w } } w) region

/-- A PUBLISH arrives at its home: it waits for those of its region that are in progress (R43). -/
def publishHome (s : State) (raw tenant port : Nat) (uid : Option Nat) (reply : Option Pkt) : State :=
  let s := { s with xtu := { s.xtu with pubQ := s.xtu.pubQ ++ [⟨pbRegion raw, raw, tenant, port, uid, reply⟩] } }
  publishNext s.xtu.pubQ.length s (pbRegion raw)

/-- Send a PUBLISH to its home (R43). -/
def forwardPublish (s : State) (d : Desc) : State :=
  sendReq s { pkt0 s (regionHome (pbRegion d.raw)) 0x06 0 with
    tenant := d.tenant, reqId := d.reqId, admClass := d.cls, data := rawGrans d.raw } none (some d.uid) 0

/-- Run a PUBLISH descriptor that stands ready (R43, R451). -/
def runPublish (s : State) (uid : Nat) : State :=
  match descOf s uid with
  | none => s
  | some d =>
    if d.phase ≠ .ready then s
    else if badPublish s d.raw then endDesc s d (Fin.of .badDescriptor) false
    else
      let s := modDesc s uid (fun x => { x with phase := .running })
      if regionHome (pbRegion d.raw) ≠ s.dev.node then forwardPublish s d
      else publishHome s d.raw d.tenant 14 (some uid) none

/-- PUBLISH (R43, R451). -/
def execPublish (o : OpCmd) (s : State) : Out :=
  let t := opTake s 0x50 o
  match t.1 with
  | none => .next t.2
  | some u => .next (runPublish t.2 u)

/-- PUBLISH_COMPLETE (R43, R44): the withdrawals of a region's publish have ended, and with drain nothing is bound to the version
replaced. The spec gives no packet by which the home learns of other nodes' bound work: the command's operand tells it (DESIGN CHOICE, log 47). -/
def execPublishComplete (p : PublishEnd) (s : State) : Out :=
  let region := p.region
  let s := learnBound s region p.bound
  match s.xtu.publishes.find? (fun p => p.region == region) with
  | none => .next s
  | some p =>
    if p.waiting ≠ [] ∨ (p.drain ∧ stillBound s region p.replaced) then .next s
    else
      let s := { s with xtu := { s.xtu with publishes := s.xtu.publishes.erase p } }
      let s := publishEnd s p.uid p.reply ⟨.done, 0, .none, p.newVersion⟩
      .next (publishNext s.xtu.pubQ.length s region)

/-! Packets between nodes -/

/-- Process a forwarded PUBLISH (R43, R320, R451): what the common checks refuse ends before the cache is asked for room (R65). -/
def takeFwd (s : State) (port : Nat) (p : Pkt) : State :=
  match rcFind s p.tenant p.reqId 0x06 with
  | some e => replayRsp s p e
  | none =>
    let raw := leToNat ((p.data.head?.getD zeroGran).data)
    match homeFin s raw p.tenant with
    | some f => publishEnd s none (some p) f
    | none =>
      if feature s 8 && !rcRoom s then let b := rcFull s; errRsp b.2 p p.admClass b.1
      else publishHome s raw p.tenant (min port 14) none (some p)

/-- CMD_FWD (R451). -/
def execCmdFwd (inPort : Nat) (p : Pkt) (s : State) : Out :=
  let a := arrives s inPort { p with ptype := 0x06 }
  .next (if a.1 then takeFwd a.2 inPort { p with ptype := 0x06 } else a.2)

/-- Free the home's cache entry of a request that has been answered (R320). -/
def releaseEntry (s : State) (node tenant reqId : Nat) : State :=
  if feature s 8 then inject s { pkt0 s node 0xC3 4 with tenant := tenant, body := 1 + reqId % 2 ^ 24 * 256 } else s

/-- The home's answer to a forwarded PUBLISH (R43). -/
def publishBack (s : State) (o : Outst) (p : Pkt) : State :=
  let s := releaseEntry (dropOutst s o) p.src p.tenant p.reqId
  match o.uid with
  | none => s
  | some u =>
    match descOf (noteFathom s u p) u with
    | some d => endDesc (noteFathom s u p) d (rspFin p) false
    | none => s

/-- A response that matches no outstanding request is discarded and counted (R304). -/
def lateRsp (s : State) : State := bump s Reg.nieLateRsp_count

/-- CMD_RSP (R43). -/
def execCmdRsp (inPort : Nat) (p : Pkt) (s : State) : Out :=
  let p := { p with ptype := 0x86 }
  let a := arrives s inPort p
  if !a.1 then .next a.2
  else match matchOutst a.2 p with
    | some o => .next (publishBack a.2 o p)
    | none => .next (lateRsp a.2)

/-- The 32 bytes of n set records from record i on, under the owner's key. -/
def setBytes (s : State) (owner setPpa i n : Nat) : List Byte × HwErr × State := hwRead s (.tenant owner) (setPpa + i * 32) (n * 32)

/-- Send a set in packets of up to 256 records, from record i on, with fuel: the hint holds the first record and the count, the value
the version and the length (DESIGN CHOICE, log 48). -/
def sendSet : Nat → State → Pkt → RgnRec → Nat → State
  | 0, s, _, _, _ => s
  | n + 1, s, p, r, i =>
    let k := min 256 (r.setCount - i)
    let b := setBytes s r.owner r.setPpa i k
    match b.2.1 with
    | .none =>
      let data := if k = 0 then [zeroGran] else padGrans b.1
      let s := inject b.2.2 (response b.2.2 p 0x87 0 ⟨.done, 0, .none, i + r.setCount * 65536⟩ (k * 32) (r.version + r.length * 2 ^ 32) data)
      if i + k < r.setCount then sendSet n s p r (i + k) else s
    | .poison a => errRsp (logXtu b.2.2 3 r.owner a) p 0 (Fin.atPpa .poisoned a)
    | .guard a => errRsp (logXtu b.2.2 3 r.owner a) p 0 (Fin.atPpa .guardMismatch a)

/-- Answer an entry node's question for a set, the current one or a bound version's (R42, R27). The home remembers who learned it. -/
def answerSet (s : State) (p : Pkt) : State :=
  let region := p.body % 2 ^ 32
  let v := keyVer p.body
  let i := region % 2 ^ 18
  if !tenantActive s p.tenant then errRsp s p 0 (Fin.of .tenantGone)
  else if regionHome region ≠ s.dev.node ∨ rgnCount s ≤ i then errRsp s p 0 (atRegion .unmapped region)
  else
    let q := readRgn s i
    match q.2.1 with
    | .none =>
      match (if q.1.opn then homeSet q.2.2 region q.1 v else none) with
      | none => errRsp q.2.2 p 0 (atRegion .unmapped region)
      | some (ver, setPpa, cnt, len) =>
        let s := if ver = q.1.version then { q.2.2 with xtu := { q.2.2.xtu with
            nodesOf := if q.2.2.xtu.nodesOf.contains (region, p.src) then q.2.2.xtu.nodesOf else q.2.2.xtu.nodesOf ++ [(region, p.src)] } }
          else noteFar q.2.2 region ver p.src
        sendSet 17 s p { q.1 with version := ver, setPpa := setPpa, setCount := cnt, length := len } 0
    | e => errRsp (logXtu q.2.2 3 p.tenant (rgnPpa q.2.2 i)) p 0 (badGran e (rgnPpa q.2.2 i))

/-- SET_REQ (R42). -/
def execSetReq (inPort : Nat) (p : Pkt) (s : State) : Out :=
  let p := { p with ptype := 0x07 }
  let a := arrives s inPort p
  .next (if a.1 then answerSet a.2 p else a.2)

/-- Translations that wait for a region's set go on. -/
def wakeSet (s : State) (region : Nat) (v : Option Nat) : State := resumeHeld s (fun w => w == .set region v)

/-- A set that is whole enters the set cache of 4,096 entries, the longest cached leaving it, and its waiting translations proceed (R42, R174;
an entry holds one set, and the order in which entries leave is a DESIGN CHOICE, log 83). -/
def cacheSetEnt (s : State) (e : SetEnt) (v : Option Nat) : State :=
  wakeSet { s with xtu := { s.xtu with
    sets := (e :: s.xtu.sets.filter (fun x => !(x.region == e.region && x.version == e.version))).take 4096 } } e.region v

/-- The home knows no such region or version: the waiting translations end UNMAPPED at their own PVA (R39). -/
def noSet (s : State) (region : Nat) (v : Option Nat) : State :=
  let e : SetEnt := ⟨region, v.getD 0, 0, 0, [], v.isSome⟩
  let s := wakeSet { s with xtu := { s.xtu with sets := e :: s.xtu.sets } } region v
  { s with xtu := { s.xtu with sets := s.xtu.sets.filter (fun x => x ≠ e) } }

/-- The records of a SET_RSP. -/
def rspRecs (p : Pkt) : List ExtRec :=
  let bs := p.data.flatMap (fun g => g.data)
  (List.range (rspBytes p / 32)).map (fun i => parseExt (leToNat ((bs.drop (32 * i)).take 32)))

/-- A part of a set arrives (R42): a current version that was replaced while the question was out is asked for again. A set that was asked
for by its version binds nothing new. -/
def takeSet (s : State) (o : Outst) (p : Pkt) : State :=
  let region := o.part % 2 ^ 32
  let asked := keyVer o.part
  let version := rspValue p % 2 ^ 32
  let count := (rspFin p).hint / 65536 % 65536
  let same : SetEnt → Bool := fun x => x.region == region && (match asked with | some v => x.withdrawn && x.version == v | none => !x.withdrawn)
  match (if asked.isSome then none else nfind s.xtu.replacedTo region) with
  | some v =>
    let s := { dropOutst s o with xtu := { s.xtu with replacedTo := ndel s.xtu.replacedTo region,
                                                      setPart := s.xtu.setPart.filter (fun x => !same x) } }
    if version ≤ v then askSet s p.tenant region none
    else if (rspRecs p).length = count then cacheSetEnt s ⟨region, version, rspValue p / 2 ^ 32, count, rspRecs p, false⟩ none
    else askSet s p.tenant region none
  | none =>
    let old := (s.xtu.setPart.find? same).getD ⟨region, version, rspValue p / 2 ^ 32, count, [], asked.isSome⟩
    let e := { old with recs := old.recs ++ rspRecs p }
    let rest := s.xtu.setPart.filter (fun x => !same x)
    if e.recs.length < count then { s with xtu := { s.xtu with setPart := e :: rest } }
    else cacheSetEnt { dropOutst s o with xtu := { s.xtu with setPart := rest } } e asked

/-- SET_RSP (R42). -/
def execSetRsp (inPort : Nat) (p : Pkt) (s : State) : Out :=
  let p := { p with ptype := 0x87 }
  let a := arrives s inPort p
  if !a.1 then .next a.2
  else match matchOutst a.2 p with
    | some o => .next (takeSet a.2 o p)
    | none => .next (lateRsp a.2)

/-- Withdraw a replaced version: the set cache is emptied of it, and work that is bound to it learns its set by the version (R42, R43, R174). -/
def withdrawSet (s : State) (region version : Nat) : State :=
  let asked := s.nie.outst.any (fun o => o.ptype == 0x07 && o.part == setKey region none)
  { s with xtu := { s.xtu with
      sets := s.xtu.sets.filter (fun e => !(e.region == region && decide (e.version ≤ version)))
      replacedTo := if asked then nput s.xtu.replacedTo region version else s.xtu.replacedTo } }

/-- SET_WITHDRAW (R43). -/
def execSetWithdraw (inPort : Nat) (p : Pkt) (s : State) : Out :=
  let p := { p with ptype := 0xC4 }
  let a := arrives s inPort p
  if !a.1 then .next a.2
  else
    let s := withdrawSet a.2 (p.body % 2 ^ 32) (bitsOf p.body 32 32)
    .next (inject s { pkt0 s p.src 0xC5 4 with body := p.body })

/-- WITHDRAW_ACK (R43). -/
def execWithdrawAck (inPort : Nat) (p : Pkt) (s : State) : Out :=
  let p := { p with ptype := 0xC5 }
  let a := arrives s inPort p
  if !a.1 then .next a.2
  else
    let region := p.body % 2 ^ 32
    let v := bitsOf p.body 32 32
    .next { a.2 with xtu := { a.2.xtu with publishes := a.2.xtu.publishes.map (fun q =>
      if q.region = region ∧ q.replaced = v then { q with waiting := q.waiting.filter (fun n => n ≠ p.src) } else q) } }

end Sys2Proof.Machine
end

