-- ==== Sys2Proof/Machine/Fabric.lean ====
section
/-!
DEFINITION. Machine/Fabric.lean: the request and response packets of the fabric, the recent-completions cache, flows and jobs
(spec 14 R304, R313 to R320, R445, R446; spec 03 R54; spec 04 R83).
-/
namespace Sys2Proof.Machine
open Sys2Proof

/-! Requests -/

/-- RD_REQ (R18, R19, R445, R446). -/
def execRdReq (inPort : Nat) (p : Pkt) (s : State) : Out := .next (takeReq s inPort { p with ptype := 0x01 })

/-- WR_REQ (R18, R19, R317, R445, R446). -/
def execWrReq (inPort : Nat) (p : Pkt) (s : State) : Out := .next (takeReq s inPort { p with ptype := 0x02 })

/-- ATOMIC_REQ (R118, R319, R445). -/
def execAtomicReq (inPort : Nat) (p : Pkt) (s : State) : Out := .next (takeReq s inPort { p with ptype := 0x03 })

/-! Doorbells (R54 to R56, R304, R324) -/

/-- Apply a doorbell packet to its page: the page is owned by the fabric and the tenant matches (R54). One for another node goes on
with its header as it stands (R303, R308). -/
def doorApply (s : State) (p : Pkt) : State :=
  if p.dst ≠ s.dev.node then enterWest s p
  else
    let q := p.body % 65536
    if getF s Reg.qmgDbpage_owner (q / 64) = 3 ∧ getF s Reg.qmgDbpage_tenant (q / 64) = p.tenant then
      ringDoor s q 0x7E (bitOf p.body 16) (bitsOf p.body 32 32)
    else dropDoorbell s q 0x7E

/-- Charge a doorbell packet at its entry node (R324, R326). -/
def doorAdmit (s : State) (port : Nat) (p : Pkt) : State :=
  if p.body / 2 ^ 64 ≠ 0 ∨ bitsOf p.body 17 15 ≠ 0 then flowDone s port p
  else
    let host := hostBkt s p.src
    let d := decideCharge s host p.tenant 0 true
    let s := countCls d.2 d.1.cls
    if d.1.cls = 2 then flowDone (errRsp s p 2 ⟨.busy, 0, .none, ceilUs d.1.waitNs⟩) port p
    else if d.1.waitNs = 0 then flowDone (doorApply s p) port p
    else flowDone (holdWork s p.tenant host 0 d.1 (.door p)) port p

/-- A doorbell packet whose flow number may run now, or not (R316). Only an admission refusal is answered (R445). -/
def doorFlow (s : State) (port : Nat) (p : Pkt) : State :=
  match flowCheck s p with
  | .go => doorAdmit s port p
  | .hold => { s with nie := { s.nie with reorder := s.nie.reorder ++ [(port, p)] } }
  | .busy => s
  | .again => bump s Reg.nieDup_count
  | .denied => s

/-- DOORBELL_PACKET (R54, R56, R445): a doorbell that an SR2 passed on is applied without a charge. -/
def execDoorbellPacket (inPort : Nat) (p : Pkt) (s : State) : Out :=
  let p := { p with ptype := 0x04 }
  let a := arrives s inPort p
  if !a.1 then .next a.2
  else
    let q := entryChecks a.2 inPort p
    match q.1 with
    | .inr _ => .next q.2
    | .inl p2 => .next (if fromSr2 s inPort then doorApply q.2 p2 else doorFlow q.2 inPort p2)

/-! Tile batches (R83) -/

/-- The region pairs of a batch. -/
def batchBinds (p : Pkt) (bs : List Byte) : List Bind :=
  (List.range (bitsOf p.body 16 8)).map (fun i => ⟨leToNat ((bs.drop (8 * i)).take 4), leToNat ((bs.drop (8 * i + 4)).take 4)⟩)

/-- The tiles of a batch: the number of each, with the number before the split and the path of halves where the batch carries them (log 41). -/
def batchNames (p : Pkt) (bs : List Byte) : List (Nat × Nat × Nat) :=
  let k := if bitOf p.body 24 then 12 else 4
  let w := fun i j => leToNat ((bs.drop (8 * bitsOf p.body 16 8 + k * i + 4 * j)).take 4)
  (List.range (p.body % 65536)).map (fun i => if k = 12 then (w i 0, w i 1, w i 2) else (w i 0, 0, 0))

/-- The descriptor image that a batch carries. -/
def batchRaw (p : Pkt) : Nat :=
  let w := leToNat ((p.data.head?.getD zeroGran).data)
  if opBig (hOpcode w) then w + leToNat (((p.data.drop 1).head?.getD zeroGran).data) * 2 ^ 512 else w

/-- A descriptor that stands for a batch (R83). -/
def batchDesc (s : State) (p : Pkt) : Desc :=
  let raw := batchRaw p
  let bs := (p.data.drop (if opBig (hOpcode raw) then 2 else 1)).flatMap (fun g => g.data)
  { newDesc s 65536 (ctxOf s 0) raw 0 with
    tenant := p.tenant, reqId := p.reqId, cls := p.admClass, binds := batchBinds p bs, phase := .ready, charged := true,
    tilesOut := (batchNames p bs).map (·.1), leaves := if bitOf p.body 24 then batchNames p bs else [] }

/-- Take a batch into the machine (R27, R83, R319, R320): a hit ends every further check, and TENANT_GONE stands before BUSY (R65). -/
def takeBatch (s : State) (p : Pkt) (env : NMap Gran) : State :=
  match (if batchRecorded (batchRaw p) then rcFind s p.tenant p.reqId 0x05 else none) with
  | some e => replayRsp s p e
  | none =>
    if tenantActive s p.tenant && batchRecorded (batchRaw p) && feature s 8 && !rcRoom s then let b := rcFull s; errRsp b.2 p p.admClass b.1
    else
      let d := batchDesc s p
      let s := addDesc s d
      let s := { s with nme := { s.nme with remote := nput s.nme.remote d.uid p } }
      if !tenantActive s p.tenant then batchFail s d.uid (Fin.of .tenantGone) else runBatch s d.uid env

/-- TILE_BATCH (R83): `remote` answers the reads of operands on other nodes. -/
def execTileBatch (inPort : Nat) (p : Pkt) (remote : NMap Gran) (s : State) : Out :=
  let p := { p with ptype := 0x05 }
  let a := arrives s inPort p
  .next (if a.1 then takeBatch a.2 p remote else a.2)

/-! Responses (R304, R318, R445) -/

/-- A response to this node's own write is an acknowledgement; its failure joins the descriptor at the tile that wrote (R60, R84). -/
def writeBack (s : State) (o : Outst) (f : Fin) : State :=
  match o.uid with
  | none => dropOutst s o
  | some u => ackDone (if f.st = .done then dropOutst s o else noteEnd (dropOutst s o) u o.part f) u

/-- A response to a forwarded request completes its piece. -/
def clientBack (s : State) (o : Outst) (id : Nat) (p : Pkt) : State :=
  let f := rspFin p
  let s := match reqOf s id with | some r => stampReq s r.pkt 7 | none => s
  pieceBack (dropOutst s o) id ⟨f, rspBytes p, p.data, rspValue p, bitOf f.hint 8, p.fathom⟩

/-- The answer to an ATOMIC of this node's own (R117, R118, R320). -/
def atomicBack (s : State) (o : Outst) (uid : Nat) (p : Pkt) (env : NMap Gran) : State :=
  let f := rspFin p
  let s := noteFathom (releaseEntry (dropOutst s o) p.src p.tenant p.reqId) uid p
  atomicReply s uid o.part env ⟨f, rspValue p, bitOf f.hint 8, f.st == .replayed⟩

/-- A batch response reaches the fetching node (R83): a recorded result comes without partial states. -/
def batchBack (s : State) (o : Outst) (uid : Nat) (p : Pkt) (env : NMap Gran) : State :=
  let s := sampleStamp (noteFathom (dropOutst s o) uid p) true uid 7 true
  let s := match descOf s uid with
    | some d => if batchRecorded d.raw then releaseEntry s p.src p.tenant p.reqId else s
    | none => s
  let f := rspFin p
  batchOver s uid o.dst f (if f.st = .done then none else some (rspValue p / 2 ^ 32)) (rspBytes p)
    (if f.st = .replayed then [] else parseParts (rspValue p % 2 ^ 32) (p.data.flatMap (fun g => g.data))) env

/-- The home could not give a set: the waiting translations end (R39, R42). -/
def setFail (s : State) (o : Outst) (f : Fin) : State :=
  let s := dropOutst s o
  let region := o.part % 2 ^ 32
  if f.st = .unmapped then noSet s region (keyVer o.part) else failHeld s (fun w => w == .set region (keyVer o.part)) (fun _ => f)

/-- An outstanding request ends with a status and nothing else: an ERR_RSP of a node of a Fathom level, or a timeout. -/
def failOutst (s : State) (o : Outst) (fathom : Nat) (f : Fin) : State :=
  match o.client, o.uid with
  | some id, _ => pieceBack (dropOutst s o) id (failed fathom f)
  | none, some u =>
    if o.ptype = 2 then writeBack s o f
    else if o.ptype = 3 then atomicReply (dropOutst s o) u o.part [] ⟨f, 0, false, false⟩
    else if o.ptype = 5 then batchOver (dropOutst s o) u o.dst f none 0 [] []
    else (match descOf s u with
      | some d => endDesc (dropOutst s o) d f false
      | none => dropOutst s o)
  | none, none => if o.ptype = 7 then setFail s o f else dropOutst s o

/-- RD_RSP (R445, R446). -/
def execRdRsp (inPort : Nat) (p : Pkt) (s : State) : Out :=
  let p := { p with ptype := 0x81 }
  let a := arrives s inPort p
  if !a.1 then .next a.2
  else match matchOutst a.2 p with
    | none => .next (lateRsp a.2)
    | some o => (match o.client with
      | some id => .next (clientBack a.2 o id (ingressData a.2 inPort p))
      | none => .next (dropOutst a.2 o))

/-- WR_RSP (R445, R60). -/
def execWrRsp (inPort : Nat) (p : Pkt) (s : State) : Out :=
  let p := { p with ptype := 0x82 }
  let a := arrives s inPort p
  if !a.1 then .next a.2
  else match matchOutst a.2 p with
    | none => .next (lateRsp a.2)
    | some o => (match o.client with
      | some id => .next (clientBack a.2 o id p)
      | none => .next (writeBack a.2 o (rspFin p)))

/-- ATOMIC_RSP (R118, R445): `remote` answers the read of a granule on another node that the old value is written into. -/
def execAtomicRsp (inPort : Nat) (r : RspCmd) (s : State) : Out :=
  let p := { r.pkt with ptype := 0x83 }
  let a := arrives s inPort p
  if !a.1 then .next a.2
  else match matchOutst a.2 p with
    | none => .next (lateRsp a.2)
    | some o => (match o.client, o.uid with
      | some id, _ => .next (clientBack a.2 o id p)
      | none, some u => .next (atomicBack a.2 o u p r.remote)
      | none, none => .next (dropOutst a.2 o))

/-- BATCH_RSP (R83, R84): `remote` answers the reads of granules on other nodes that combined results are written into. -/
def execBatchRsp (inPort : Nat) (r : RspCmd) (s : State) : Out :=
  let p := { r.pkt with ptype := 0x85 }
  let a := arrives s inPort p
  if !a.1 then .next a.2
  else match matchOutst a.2 p with
    | none => .next (lateRsp a.2)
    | some o => (match o.uid with
      | some u => .next (batchBack a.2 o u p r.remote)
      | none => .next (dropOutst a.2 o))

/-- ERR_RSP (R445). -/
def execErrRsp (inPort : Nat) (p : Pkt) (s : State) : Out :=
  let p := { p with ptype := 0x8F }
  let a := arrives s inPort p
  if !a.1 then .next a.2
  else match matchOutst a.2 p with
    | none => .next (lateRsp a.2)
    | some o => .next (failOutst a.2 o p.fathom (rspFin p))

/-- The late-write drain in nanoseconds (XTU_CTL.late_drain, 0 as 1). -/
def lateDrainNs (s : State) : Nat := max 1 (getF s Reg.xtuCtl_late_drain) * 10000

/-- The ells through which a forwarded write was translated: every ell of a request's piece, or that of a tile's or transfer's granule. -/
def writeElls (s : State) (o : Outst) : List Nat :=
  match o.client.bind (reqOf s) with
  | some r => (r.pieces.take 1).flatMap (fun c => (ellCuts c.pva c.len).map (fun a => a / ellBytes))
  | none => o.ell.toList

/-- A forwarded write that timed out may still land until late_drain has passed (R178 step 5). -/
def noteLate (s : State) (o : Outst) : State :=
  if !o.isWrite then s
  else { s with xtu := { s.xtu with late := s.xtu.late ++ (writeElls s o).map (fun e => ⟨o.tenant, e, s.nowNs + lateDrainNs s⟩) } }

/-- COMPLETION_TIMEOUT (R318): the timer of the request sent to node `dst` under a tenant and request ID expires. -/
def execCompletionTimeout (dst tenant reqId : Nat) (s : State) : Out :=
  match s.nie.outst.find? (fun o => o.dst == dst && o.tenant == tenant && o.reqId == reqId) with
  | none => .next s
  | some o =>
    let s := advance s o.deadlineNs
    .next (failOutst (noteLate s o) o (fathomNow s) (Fin.atPpa .timeout o.ppa))

/-! The recent-completions cache (R320) -/

/-- CACHE_RELEASE (R320): entries of the named requests leave, where the release comes from the node that sent the request. -/
def execCacheRelease (inPort : Nat) (p : Pkt) (s : State) : Out :=
  let p := { p with ptype := 0xC3 }
  let a := arrives s inPort p
  if !a.1 then .next a.2
  else
    let n := p.body % 16
    let ids := (List.range (min n 9)).map (fun i => bitsOf p.body (8 + 24 * i) 24)
    .next (rcView { a.2 with nie := { a.2.nie with rc := a.2.nie.rc.filter (fun e =>
      !(e.tenant == p.tenant && e.src == p.src && ids.contains e.reqId)) } })

/-- REPLAY_CACHE_EXPIRY (R320): the oldest entry of a tenant and request reaches 64 ms. -/
def execReplayCacheExpiry (tenant reqId : Nat) (s : State) : Out :=
  match s.nie.rc.find? (fun e => e.tenant == tenant && e.reqId == reqId) with
  | none => .next s
  | some e => .next (rcSweep (advance s (e.writtenNs + rcLifeNs)))

/-! Flows and jobs (R313, R316) -/

/-- Judge a held packet again. -/
def releasePkt (s : State) (port : Nat) (p : Pkt) : State :=
  if p.ptype = 0x04 then doorFlow s port p else entryFlow s port p

/-- FLOW_RELEASE (R316): the first held packet of a flow whose earlier numbers have all completed is released to admission. -/
def execFlowRelease (flow : Nat) (s : State) : Out :=
  match s.nie.reorder.find? (fun x => x.2.flow == flow && (flowCheck s x.2 == .go || flowCheck s x.2 == .again)) with
  | none => .next s
  | some x => .next (releasePkt { s with nie := { s.nie with reorder := s.nie.reorder.erase x } } x.1 x.2)

/-- NIE_FLOW_CMD's operands and result. -/
def flowCmd (s : State) (flow job src res : Nat) : State :=
  setF (setF (setF (setF s Reg.nieFlowCmd_flow flow) Reg.nieFlowCmd_job job) Reg.nieFlowCmd_src_node src) Reg.nieFlowCmd_result res

/-- NIE_FLOW_OPEN (R316). -/
def execNieFlowOpen (flow job srcNode : Nat) (s : State) : Out :=
  let f := flow % 65536
  let j := job % 4096
  if f = 0 ∨ (nfind s.nie.flows f).isSome then .next (flowCmd s flow job srcNode 1)
  else if !getB s Reg.nieJob0_valid j then .next (flowCmd s flow job srcNode 2)
  else
    let s := { s with nie := { s.nie with flows := nput s.nie.flows f ⟨j, srcNode % 2 ^ 14, 0, 0⟩ } }
    .next (flowCmd s flow job srcNode 0)

/-- NIE_FLOW_CLOSE (R316): the held packets of the flow are answered with ACCESS_DENIED. -/
def execNieFlowClose (flow job srcNode : Nat) (s : State) : Out :=
  let f := flow % 65536
  if f = 0 ∨ (nfind s.nie.flows f).isNone then .next (flowCmd s flow job srcNode 1)
  else
    let mine := s.nie.reorder.filter (fun x => x.2.flow == f)
    let s := { s with nie := { s.nie with flows := ndel s.nie.flows f, reorder := s.nie.reorder.filter (fun x => x.2.flow ≠ f) } }
    let s := mine.foldl (fun s x => if x.2.ptype = 0x04 then s else errRsp s x.2 0 (Fin.of .accessDenied)) s
    .next (flowCmd s flow job srcNode 0)

/-- JOB_BIND (R28, R313): a record whose valid reads 0 takes its fields, then valid. -/
def execJobBind (job tenant ranks rankPpa : Nat) (s : State) : Out :=
  if 4096 ≤ job ∨ getB s Reg.nieJob0_valid job then .next s
  else
    let s := setF s Reg.nieJob0_tenant tenant job
    let s := setF s Reg.nieJob4_rank_count ranks job
    let s := setF s Reg.nieJob8_rank_ppa rankPpa job
    .next (setB s Reg.nieJob0_valid true job)

end Sys2Proof.Machine
end

