-- ==== Sys2Proof/Machine/Admission.lean ====
section
/-!
DEFINITION. Machine/Admission.lean: the commands of admission: releases, fresh decisions, the bucket commands and the Fathom
level (spec 15 R322, R326 to R328, R331).
-/
namespace Sys2Proof.Machine
open Sys2Proof

/-- A tile that admission let go is queued at its engine, or in a batch that leaves (R82, R83). -/
def goTile (s : State) (uid num : Nat) : State :=
  match (descOf s uid).bind (fun d => tileOf d num) with
  | some t => if (descOf s uid).any (fun d => mayStart d num) then descCheck (sendBatches 256 (queueTile s uid t) uid) uid else s
  | none => s

/-- Work leaves admission (R326). -/
def letGo (s : State) (it : AdmItem) : State :=
  match it with
  | .req id => translateReq s id
  | .door p => doorApply s p
  | .desc uid => releaseDesc s uid
  | .tile uid num => goTile s uid num
  | .piece e => modRun s e (fun r => { r with charged := true })

/-- ADM_RELEASE (R326): the entry with the earliest release time leaves; of entries with one time the shared arbiter chooses, at rank 0
over the queue's positions. -/
def execAdmRelease (s : State) : Out :=
  match s.adm.hold with
  | [] => .next s
  | h :: hs =>
    let t := hs.foldl (fun a e => min a e.atNs) h.atNs
    let due := (h :: hs).filter (fun e => e.atNs == t)
    let r := arbPick 8192 (arbN s Reg.xbarArbCtl_n_adm) s.adm.arb (due.map (fun e => (e.pos, 0)))
    match r.1.bind (fun p => due.find? (fun e => e.pos == p)) with
    | none => .next s
    | some e =>
      let s := holdView { advance s t with adm := { s.adm with hold := s.adm.hold.erase e, arb := arbStay r.2 ((due.erase e).map (·.pos)) } }
      .next (letGo s e.item)

/-- Decide a held tile or piece afresh (R327): it counts once, as DEFERRED. -/
def decideAgain (s : State) (e : HoldEnt) : State :=
  let d := decideCharge s e.host e.tenant e.charge false
  if d.1.cls = 2 then redoWork d.2 e.tenant e.host e.charge d.1 e.item
  else
    let s := countCls d.2 1
    let uid := match e.item with | .tile u _ => some u | .piece g => (nfind s.dma.run g).map (·.uid) | _ => none
    let s := match uid with | some u => modDesc s u (fun x => { x with cls := max x.cls 1 }) | none => s
    if d.1.waitNs = 0 then letGo s e.item else holdWork s e.tenant e.host e.charge ⟨1, d.1.waitNs⟩ e.item

/-- ADM_REDECIDE (R327): the held tile or piece whose retry-after ends first is decided afresh. -/
def execAdmRedecide (s : State) : Out :=
  match s.adm.redo with
  | [] => .next s
  | h :: hs =>
    let e := hs.foldl (fun a x => if x.atNs < a.atNs then x else a) h
    .next (decideAgain { advance s e.atNs with adm := { s.adm with redo := s.adm.redo.erase e } } e)

/-- ADM_BKT_CMD.result. -/
def bktResult (s : State) (bucket res : Nat) : State := setF (setF s Reg.admBktSel_bucket bucket) Reg.admBktCmd_result res

/-- The READ of ADM_BKT_CMD on the selected bucket (R322): the level reads rounded down to a whole byte. -/
def bktRead (s : State) (bucket : Nat) : State :=
  if 5120 ≤ bucket % 8192 then bktResult s bucket 1
  else
    let b := bktAt s (bucket % 8192)
    let s := bktResult s bucket 0
    let s := setF s Reg.admBktRate_rate b.rate
    let s := setF s Reg.admBktGust_gust b.gust
    let s := setF s Reg.admBktCfg_overhead b.ovh
    let s := setF s Reg.admBktCfg_target_us b.target
    let s := setF s Reg.admBktCfg_limit_us b.limit
    let s := setB s Reg.admBktCfg_reset_mode b.resetMode
    setF s Reg.admBktLevel_level ((bktLevel b s.nowNs / (lvlUnit : Int)) % (2 ^ 48 : Int)).toNat

/-- The WRITE of ADM_BKT_CMD: the staged parameters go to the selected bucket and its level becomes full or zero (R328). -/
def bktWrite (s : State) (bucket : Nat) : State :=
  if 5120 ≤ bucket % 8192 then bktResult s bucket 1
  else
    let b : Bkt := ⟨getF s Reg.admBktRate_rate, getF s Reg.admBktGust_gust, getF s Reg.admBktCfg_overhead,
      getF s Reg.admBktCfg_target_us, getF s Reg.admBktCfg_limit_us, getB s Reg.admBktCfg_reset_mode, 0, s.nowNs⟩
    let s := bktResult s bucket 0
    setBkt s (bucket % 8192) { b with level := if b.resetMode then 0 else bktCap b }

/-- ADM_BKT_READ: op READ of ADM_BKT_CMD with ADM_BKT_SEL set (R322). -/
def execAdmBktRead (bucket : Nat) (s : State) : Out := .next (bktRead s bucket)

/-- ADM_BKT_WRITE: op WRITE of ADM_BKT_CMD with the stage registers set (R328). -/
def execAdmBktWrite (bucket rate gust overhead target limit : Nat) (resetMode : Bool) (s : State) : Out :=
  let s := setF s Reg.admBktRate_rate rate
  let s := setF s Reg.admBktGust_gust gust
  let s := setF s Reg.admBktCfg_overhead overhead
  let s := setF s Reg.admBktCfg_target_us target
  let s := setF s Reg.admBktCfg_limit_us limit
  let s := setB s Reg.admBktCfg_reset_mode resetMode
  .next (bktWrite s bucket)

/-- A component level of a utilisation given as a sum over 2^w samples in units of 1/65,536 (R331). -/
def fathomLevel (sum w : Nat) : Nat := min 15 (16 * sum / (65536 * 2 ^ w))

/-- The share in percent of one count of a stack's grants reaches a floor (R331). -/
def shareAt (part whole pct : Nat) : Bool := decide (0 < whole) && decide (max 1 pct * whole ≤ part * 100)

/-- FATHOM_UPDATE (R331): one more microsecond's utilisations; the level is formed over the window. -/
def execFathomUpdate (u : UtilSample) (s : State) : Out :=
  let u := { u with held := s.adm.hold.length }
  let w := min 10 (getF s Reg.admFathomCtl_window_log2)
  let s := { s with adm := { s.adm with samples := (u :: s.adm.samples).take 1024 } }
  let win := s.adm.samples.take (2 ^ w)
  let total : (UtilSample → Nat) → Nat := fun f => (win.map f).sum
  let mem := ((members s).map (fun k => total (fun x => x.mem.getD k 0))).foldl max 0
  let fab := (((List.range 12).filter (fun p => getF s Reg.fptStatus_state p == 4)).map (fun p => total (fun x => x.fab.getD p 0))).foldl max 0
  let lm := fathomLevel mem w
  let le := fathomLevel (total (·.eng)) w
  let lf := fathomLevel fab w
  let la := min 15 (16 * total (·.held) / (8192 * 2 ^ w))
  let hot : (UtilSample → List Nat) → Nat → Bool := fun f pct =>
    (members s).any (fun k => shareAt (total (fun x => (f x).getD k 0)) (total (fun x => x.grants.getD k 0)) pct)
  let l := max (max lm le) (max lf la)
  let l := if hot (·.grants2) (getF s Reg.admFathomCtl_u2_pct) then max l 8 else l
  let l := if hot (·.grants3) (getF s Reg.admFathomCtl_u3_pct) then max l 12 else l
  let l := if win.any (fun x => decide (8192 ≤ x.held)) then 15 else l
  let s := setF s Reg.admFathom_mem lm
  let s := setF s Reg.admFathom_eng le
  let s := setF s Reg.admFathom_fab lf
  let s := setF s Reg.admFathom_adm la
  .next (setF s Reg.admFathom_level l)

end Sys2Proof.Machine
end

