-- ==== Sys2Proof/Machine/Dma.lean ====
section
/-!
DEFINITION. Machine/Dma.lean: the commands of the DMA engines (spec 09).
-/
namespace Sys2Proof.Machine
open Sys2Proof

/-- Take the head of a channel and start it: it is charged now (R194, R195). -/
def startChannel (s : State) (e c : Nat) : State :=
  match ngetD [] s.dma.chans (e * 8 + c) with
  | [] => s
  | uid :: rest =>
    let s := { s with dma := { s.dma with chans := nset [] s.dma.chans (e * 8 + c) rest, run := nput s.dma.run e ⟨c, uid, 0, 0, none, false, false, none, [], none⟩ } }
    dmaView (startDesc (dmaRefill s) uid) e

/-! Migration commands (R208, spec 08 R184 step 3) -/

/-- Blocks of 4 KiB in one ell. -/
def migPieces : Nat := 16

/-- A migration fails: UNMAPPED for a host translation that PRI does not give, TIMEOUT for a host that is not reached (R184). -/
def failMig (s : State) (e : Nat) (st : Status) : State :=
  let s := modRun s (32 + e) (fun r => { r with fail := some (r.piece, 0, Fin.of st) })
  { s with dma := { s.dma with reads := s.dma.reads.filter (fun q => q.engine ≠ 32 + e) },
           hif := { s.hif with waits := s.hif.waits.filter (fun w => w.who ≠ .mig e) } }

/-- A migration reads ahead under PF1 and the extent's PASID: a block once ATS has translated its page and the engine's window has room
(R180, R197, R336). -/
def migGo : Nat → State → Nat → State
  | 0, s, _ => s
  | k + 1, s, e =>
    match nfind s.dma.run (32 + e) with
    | none => s
    | some r =>
      match r.mig with
      | none => s
      | some m =>
        if migPieces ≤ r.ahead ∨ r.fail.isSome = true ∨ rdWindow s < readsOut s e + 4096 then s
        else if !hostUp s 1 then failMig s e .timeout
        else
          let page := m.iova / 4096 + r.ahead
          if !atsHit s 1 m.pasid page false then atsAsk s 1 m.pasid page false (.mig e)
          else migGo k (modRun (issueReads s (32 + e) r.ahead 1 m.pasid [(page * 4096, 4096)]) (32 + e) (fun x => { x with ahead := x.ahead + 1 })) e

/-- Take the first migration command of an engine (R208). -/
def startMigration (s : State) (e : Nat) : State :=
  match s.dma.migs.find? (fun m => m.engine == e) with
  | none => s
  | some m =>
    let s := { s with dma := { s.dma with migs := s.dma.migs.erase m, run := nput s.dma.run (32 + e) ⟨7, 0, 0, 0, some m, false, true, none, [], none⟩ } }
    dmaView (migGo migPieces s e) e

/-- Store a block of a migrated ell, its guards computed as it enters (R15, R184), under the placement and key of the fault that its index
names; with no such fault, under profile 0 and the device slot (DESIGN CHOICE, log 42). The whole block is one block write where the
channel unit holds it (spec 10 R232). -/
def storeBlock (s : State) (m : Mig) (k : Nat) (gs : List Gran) : State :=
  let f := nfind s.xtu.migEnts m.index
  let pl := (f.map (·.place)).getD ⟨0, false, 0⟩
  let key := (f.map (fun x => dataKey s x.key)).getD (dataKey s 4096)
  let a := m.ppa + k * 4096
  match locate s pl (localOf a) with
  | none => s
  | some p =>
    if decide (4096 ≤ chanUnit s pl) && !isLost s p then memStoreBlock s p a gs key
    else gs.zipIdx.foldl (fun s g =>
      match locate s pl (localOf a + g.2 * 64) with
      | some p => if isLost s p then s else memStore s p (a + g.2 * 64) g.1 key
      | none => s) s

/-- The 64 granules of a block from the host's answers; a poisoned answer poisons every granule that draws on it (R15, R201). -/
def blockGrans (bytes : List Byte) (bad : List (Nat × Nat)) : List Gran :=
  (chop64 64 bytes).zipIdx.map (fun x => if bad.any (fun r => overlaps r (x.2 * 64, 64)) then poisonGran else freshGran x.1)

/-- Blocks of a migration whose data are complete are stored in ascending order. -/
def migStore : Nat → State → Nat → State
  | 0, s, _ => s
  | k + 1, s, e =>
    match nfind s.dma.run (32 + e) with
    | none => s
    | some r =>
      match r.mig with
      | none => s
      | some m =>
        let mine : HostRead → Bool := fun q => q.engine == 32 + e && q.piece == r.piece
        let rs := s.dma.reads.filter mine
        if rs == [] || rs.any (fun q => q.got.isNone) then s
        else
          let j := joinReads rs
          let s := { s with dma := { s.dma with reads := s.dma.reads.filter (fun q => !mine q) } }
          let s := bump (storeBlock s m r.piece (blockGrans j.1 j.2)) Reg.dmaBytes_count 4096 e
          migStore k (modRun s (32 + e) (fun x => { x with piece := x.piece + 1 })) e

/-! The management channels (R193, R336, spec 20 R424, R425) -/

/-- Transfers pending on the management channel of engine e. -/
def mgtsOf (s : State) (e : Nat) : Nat := (s.dma.mgts.filter (fun m => m.engine == e)).length

/-- The management channel with the fewest pending transfers, the lower engine on a tie (DESIGN CHOICE, log 127: R193 names none). -/
def mgtEngine (s : State) : Nat := (List.range 16).foldl (fun b i => if mgtsOf s (16 + i) < mgtsOf s b then 16 + i else b) 16

/-- A TEL dump has been written to the host, or a host write of it failed (R425). -/
def dumpSent (s : State) (ok : Bool) : State :=
  if ok then
    let c := ringCnt s ringDump
    let s := setRing s ringDump { c with wr := (c.wr + 1) % 2 ^ 24 }
    { s with tel := { s.tel with skipped := 0 } }
  else bumpSat s Reg.telDumpOvf_count

/-- Run the first transfer of an engine's management channel: writes under PF0 with no PASID (R336); PF0 has no ATS (R334), so its
addresses go as they are (DEDUCED, log 127). -/
def runMgt (s : State) (e : Nat) : State :=
  match s.dma.mgts.find? (fun m => m.engine == e) with
  | none => s
  | some m =>
    let s := { s with dma := { s.dma with mgts := s.dma.mgts.erase m } }
    let ok := hostUp s 0
    let s := if ok then
        ((blockCuts m.addr m.data.length).flatMap (fun r => reqCuts r.2 (max 1 s.hif.mps) r.1 r.2)).foldl (fun s r =>
          emit s (.memWrite 0 0 r.1 ((m.data.drop (r.1 - m.addr)).take r.2) false (getB s Reg.dmaCtl_host_ro && s.hif.roEn)))
          (bump s Reg.dmaBytes_count m.data.length e)
      else s
    dmaView (if m.dump then dumpSent s ok else s) e

/-- Channel 7 of an engine has work: migrations on engines 0 to 15, management transfers on 16 to 31 (R193). -/
def sevenWaits (s : State) (e : Nat) : Bool := s.dma.migs.any (fun m => m.engine == e) || s.dma.mgts.any (fun m => m.engine == e)

/-- Start what channel 7 of an engine holds. -/
def startSeven (s : State) (e : Nat) : State := if e < 16 then startMigration s e else runMgt s e

/-- After a start, only channels that still hold work keep their waits (R227). -/
def chanRest (s : State) (e : Nat) : State :=
  let on := (List.range 8).filter (fun c => if c = 7 then sevenWaits s e else ngetD [] s.dma.chans (e * 8 + c) != [])
  { s with dma := { s.dma with arbs := nput s.dma.arbs e (arbStay (ngetD arb0 s.dma.arbs e) on) } }

/-- DMA_CHANNEL_SELECT (R195, R196): a free engine chooses its next channel; an engine whose descriptor is suspended serves
only its channel 7. -/
def execDmaChannelSelect (engine : Nat) (s : State) : Out :=
  let run := nfind s.dma.run engine
  let suspended := (run.map (·.suspended)).getD false
  if decide (32 ≤ engine) || (nfind s.dma.run (32 + engine)).isSome || (run.isSome && !suspended) then .next s
  else
    let seven := sevenWaits s engine
    let chans := if suspended then [] else (List.range 7).filter (fun c => ngetD [] s.dma.chans (engine * 8 + c) ≠ [])
    let rank := fun c => ((((ngetD [] s.dma.chans (engine * 8 + c)).head?).bind (descOf s)).map (fun d => (ctxOf s d.queue).qprio)).getD 0
    let reqs := chans.map (fun c => (c, rank c)) ++ (if seven then [(7, 3)] else [])
    let r := arbPick 64 (arbN s Reg.xbarArbCtl_n_dma) (ngetD arb0 s.dma.arbs engine) reqs
    let s := { s with dma := { s.dma with arbs := nput s.dma.arbs engine r.2 } }
    match r.1 with
    | none => .next s
    | some c => .next (chanRest (if c = 7 then startSeven s engine else startChannel s engine c) engine)

/-- Charge the next piece (R324, R327): true when it may go on now. -/
def pieceCharge (s : State) (e : Nat) (r : DmaRun) (d : Desc) (n : Nat) : Bool × State :=
  let mine : AdmItem → Bool := fun i => match i with | .piece x => x == e | _ => false
  if r.charged then (true, s)
  else if s.adm.hold.any (fun h => mine h.item) || s.adm.redo.any (fun h => mine h.item) then (false, s)
  else
    let host := hostBkt s (queueEntry s d.queue)
    let q := decideCharge s host d.tenant n false
    let s := if q.1.cls = 2 then q.2 else modDesc (countCls q.2 q.1.cls) d.uid (fun x => { x with cls := max x.cls q.1.cls })
    if q.1.cls = 2 then (false, redoWork s d.tenant host n q.1 (.piece e))
    else if q.1.waitNs = 0 then (true, modRun s e (fun x => { x with charged := true }))
    else (false, holdWork s d.tenant host n q.1 (.piece e))

/-- The pages of a piece's host side that ATS has not translated. -/
def hostMissing (s : State) (d : Desc) (b n : Nat) : List Nat :=
  dedupSort (((hostSegs d.raw b n).map (fun r => r.1 / 4096)).filter (fun p => !atsHit s (fnOf s d.queue) (c2Pasid d.raw) p (c2DstHost d.raw)))

/-- What DMA_PIECE does with a piece that is charged and translated (R198, R199): a failure, a wait in translation or for the host, host
reads, or the writes to the host. -/
def pieceGo (s : State) (e : Nat) (r : DmaRun) (d : Desc) (x : XAll) (remote : NMap Gran) : State :=
  let p := pieceOf d.raw r.ahead
  let fn := fnOf s d.queue
  let hostAddr := ((hostSegs d.raw p.1 p.2).head?.map (·.1)).getD 0
  if x.fin.st ≠ .done then failPiece s e r.ahead 6 x.fin
  else if x.waits ≠ [] then
    let h := holdItem s d.tenant x.waits (.desc d.uid)
    if h.1 then dmaView (modRun (modDesc h.2 d.uid (fun y => { y with phase := .held })) e (fun y => { y with suspended := true })) e
    else let b := busyFin h.2; failPiece b.2 e r.ahead 0 b.1
  else if !flightRoom s d.tenant x.xl then s
  else if !s.hif.linkUp then failPiece s e r.ahead 2 ⟨.timeout, hostAddr, .iova, 0⟩
  else if !hostUp s fn then s
  else
    let miss := hostMissing s d p.1 p.2
    if miss ≠ [] then miss.foldl (fun s pg => atsAsk s fn (c2Pasid d.raw) pg (c2DstHost d.raw) (.dma e)) s
    else
      let s := modRun s e (fun y => { y with ahead := y.ahead + 1, charged := false, xl := nput y.xl r.ahead x.xl })
      if c2SrcHost d.raw then issueReads s e r.ahead fn (c2Pasid d.raw) (hostSegs d.raw p.1 p.2)
      else slotRetry (pieceToHost s e r d x.xl p.1 p.2 remote)

/-- DMA_PIECE (R197 to R199): the next piece of the running descriptor is charged and translated. A host source is read, ahead of the
pieces still to be written while the engine's window has room; its writes follow as the data come. Pool bytes go to the host at once. -/
def execDmaPiece (engine : Nat) (remote : NMap Gran) (s : State) : Out :=
  match nfind s.dma.run engine with
  | none => .next s
  | some r =>
    match descOf s r.uid with
    | none => .next s
    | some d =>
      let p := pieceOf d.raw r.ahead
      if r.mig.isSome || r.suspended || r.fail.isSome || !(d.phase == .ready || d.phase == .running) || decide (pieces d.raw ≤ r.ahead)
          || (c2SrcHost d.raw && decide (rdWindow s < readsOut s engine + p.2)) then .next s
      else
        let c := pieceCharge s engine r d p.2
        if !c.1 then .next c.2
        else
          let s := modDesc c.2 d.uid (fun x => { x with phase := .running })
          let x := pieceXlate (attrib s 4 4 d.tenant) engine r.ch r.ahead d
          .next (pieceGo x.2 engine r d x.1 remote)

/-- A flush read came back (R204, R205): the progress record that waited for it, or the end of the transfer. -/
def flushDone (s : State) (q : HostRead) : State :=
  let s := { s with dma := { s.dma with reads := s.dma.reads.filter (fun x => x.tag ≠ q.tag) } }
  match nfind s.dma.run q.engine with
  | none => s
  | some r =>
    match descOf s r.uid with
    | none => s
    | some d =>
      match r.half with
      | some h => if h.flush = some q.tag then halfGo s q.engine d h else if d.phase = .draining then endDma s d.uid (finOf d) else s
      | none => if d.phase = .draining then endDma s d.uid (finOf d) else s

/-- The function under which a host read went out (R336). -/
def readFn (s : State) (q : HostRead) : Nat :=
  if 32 ≤ q.engine then 1
  else match (nfind s.dma.run q.engine).bind (fun r => descOf s r.uid) with
    | some d => fnOf s d.queue
    | none => 1

/-- A host read failed (R206, R346): a flush read that fails ends the descriptor, logged with cause 0x05; a data read fails its piece, and a
migration's read its migration. -/
def hostFail (s : State) (q : HostRead) (cause : Nat) (st : Status) : State :=
  let s := if cause = 2 then aerNote s (readFn s q) .completionTimeout else s
  let s := { s with dma := { s.dma with reads := s.dma.reads.filter (fun x => x.tag ≠ q.tag) } }
  if 32 ≤ q.engine then failMig s (q.engine - 32) .timeout
  else if !q.flush then failPiece s q.engine q.piece cause ⟨st, q.addr, .iova, 0⟩
  else match runOf s (((nfind s.dma.run q.engine).map (·.uid)).getD 0) with
    | none => s
    | some (e, r) =>
      match descOf s r.uid with
      | none => s
      | some d =>
        let s := logDma s 5 e r.ch d.tenant d.reqId
        let m := mergeEnd d r.piece ⟨st, q.addr, .iova, 0⟩
        endDma (modDesc s d.uid (fun _ => m)) d.uid m.fin

/-- FLUSH_READ_COMPLETE (R204). -/
def execFlushReadComplete (tag : Nat) (s : State) : Out :=
  match s.dma.reads.find? (fun q => q.tag == tag && q.flush) with
  | none => .next s
  | some q => .next (flushDone s q)

/-- Data of a host read arrive (R201, R208, R346): pieces that are complete are written, and a migration stores its blocks and reads on. -/
def hostData (s : State) (q : HostRead) (bytes : List Byte) (poisoned : Bool) (remote : NMap Gran) : State :=
  let s := if poisoned then aerNote s (readFn s q) .poisonedTlp else s
  let full := (bytes ++ List.replicate q.len 0).take q.len
  let s := { s with dma := { s.dma with reads := s.dma.reads.map (fun x => if x.tag = q.tag then { x with got := some (full, poisoned) } else x) } }
  if 32 ≤ q.engine then migGo migPieces (migStore migPieces s (q.engine - 32)) (q.engine - 32)
  else match nfind s.dma.run q.engine with
    | none => s
    | some r =>
      match descOf s r.uid with
      | none => s
      | some d => slotRetry <| piecesGo (r.ahead - r.piece) (if poisoned then logDma s 3 q.engine r.ch d.tenant d.reqId else s) q.engine remote

/-- HOST_COMPLETION (R201, R206): data, or Unsupported Request or Completer Abort. -/
def execHostCompletion (tag : Nat) (res : HostCpl) (remote : NMap Gran) (s : State) : Out :=
  match s.dma.reads.find? (fun q => q.tag == tag) with
  | none => .next s
  | some q =>
    match res with
    | .ur => .next (hostFail s q 1 .accessDenied)
    | .ca => .next (hostFail s q 1 .accessDenied)
    | .data bytes poisoned => if q.flush then .next (flushDone (if poisoned then aerNote s (readFn s q) .poisonedTlp else s) q) else .next (hostData s q bytes poisoned remote)

/-- HOST_COMPLETION_TIMEOUT (R206). -/
def execHostCompletionTimeout (tag : Nat) (s : State) : Out :=
  match s.dma.reads.find? (fun q => q.tag == tag) with
  | none => .next s
  | some q => .next (hostFail s q 2 .timeout)

/-- DMA_SUSPEND_RESUME (R196): the ell is resident and channel 7 is free again. -/
def execDmaSuspendResume (engine : Nat) (s : State) : Out :=
  match nfind s.dma.run engine with
  | none => .next s
  | some r =>
    let waits := s.xtu.held.any (fun h => match h.item with | .desc u => u == r.uid | _ => false)
    if !r.suspended || waits || (nfind s.dma.run (32 + engine)).isSome then .next s
    else
      let s := modRun s engine (fun x => { x with suspended := false })
      .next (dmaView (modDesc s r.uid (fun d => { d with phase := .running })) engine)

/-- WRITE_ACKNOWLEDGE (R60, R204): the owning node acknowledges a write of a descriptor, named by its request ID. -/
def execWriteAcknowledge (uid reqId : Nat) (s : State) : Out :=
  match s.nie.outst.find? (fun o => o.uid == some uid && o.reqId == reqId && o.isWrite) with
  | none => .next s
  | some o => .next (ackDone { s with nie := { s.nie with outst := s.nie.outst.erase o } } uid)

/-! Migration (R208) -/

/-- DMA_MIG_CMD: firmware issues a migration of one ell. -/
def execDmaMigCmd (ppa iova pasid index : Nat) (s : State) : Out :=
  let s := setF s Reg.dmaMigCmd0_ppa ppa
  let s := setF s Reg.dmaMigCmd1_iova iova
  let s := setF s Reg.dmaMigCmd2_pasid pasid
  let s := setF s Reg.dmaMigCmd2_index index
  let a := getF s Reg.dmaMigCmd0_ppa
  let v := getF s Reg.dmaMigCmd1_iova
  if !getB s Reg.xtuCtl_mig_en then .next (setF s Reg.dmaMigCmd2_result 3)
  else if a % ellBytes ≠ 0 ∨ v % ellBytes ≠ 0 ∨ ownerOf a ≠ s.dev.node then .next (setF s Reg.dmaMigCmd2_result 2)
  else
    let best := (List.range 16).foldl (fun b e => if migsOf s e < migsOf s b then e else b) 0
    if 4 ≤ migsOf s best then .next (setF s Reg.dmaMigCmd2_result 1)
    else
      let m : Mig := ⟨best, getF s Reg.dmaMigCmd2_index, a, v, getF s Reg.dmaMigCmd2_pasid⟩
      .next (dmaView (setF { s with dma := { s.dma with migs := s.dma.migs ++ [m] } } Reg.dmaMigCmd2_result 0) best)

/-- MIGRATION_DONE (R208): the command on an engine's channel 7 has stored its 16 blocks and confirmed their arrival, or has failed, and
enters its outcome in the result FIFO: 0 moved, 1 PRI denied, 2 host unreachable. -/
def execMigrationDone (engine : Nat) (_a _b : Unit) (s : State) : Out :=
  match nfind s.dma.run (32 + engine) with
  | none => .next s
  | some r =>
    match r.mig with
    | none => .next s
    | some m =>
      let out := match r.fail with
        | some (_, _, f) => some (if f.st = .unmapped then 1 else 2)
        | none => if migPieces ≤ r.piece then some 0 else none
      match out with
      | none => .next s
      | some o =>
        if 64 ≤ s.dma.results.length then .next s
        else .next (migView (dmaView { s with dma := { s.dma with run := ndel s.dma.run (32 + engine), results := s.dma.results ++ [(m.index, o)] } } engine))

/-- DMA_MIG_POP: the oldest result leaves the FIFO. -/
def execDmaMigPop (s : State) : Out :=
  .next (migView { s with dma := { s.dma with results := s.dma.results.drop 1 } })

end Sys2Proof.Machine
end

