-- ==== Sys2Proof/Machine/Directory.lean ====
section
/-!
DEFINITION. Machine/Directory.lean: the commands of the home directory (spec 12).
-/
namespace Sys2Proof.Machine
open Sys2Proof

/-! Flushes of a set (R277) -/

/-- Every way of a flushed set is I, and its requests resume. -/
def endFlush (s : State) (k : Nat) : State :=
  let lines := (s.dir.ents.map (·.1)).filter (fun l => dirSet l == k)
  let s := lines.foldl (fun s l => putEnt s l none) s
  settleDir { s with dir := { s.dir with flushes := s.dir.flushes.filter (fun f => f.set ≠ k) } } []

/-- Change the flush of a set, which ends once every agent has answered, or has failed. -/
def modFlush (s : State) (k : Nat) (f : DirFlush → DirFlush) : State :=
  let s := { s with dir := { s.dir with flushes := s.dir.flushes.map (fun x => if x.set = k then f x else x) } }
  if s.dir.flushes.any (fun f => f.set == k && f.waiting == []) then endFlush s k else s

/-- An agent that has answered with its wb_count and whose writebacks are all in is waited for no longer (R277). -/
def flushSeen (f : DirFlush) (a : Nat) : DirFlush :=
  match nfind f.due a with
  | some n => if n ≤ ngetD 0 f.got a then { f with waiting := f.waiting.filter (fun x => x ≠ a) } else f
  | none => f

/-- SNP_RSP of an agent to a flush, with the number of writebacks it sent (R277). -/
def flushRsp (s : State) (k a n : Nat) : State := modFlush s k (fun f => flushSeen { f with due := nput f.due a n } a)

/-- A writeback of an agent arrives during a flush (R277). -/
def flushWb (s : State) (k a : Nat) : State := modFlush s k (fun f => flushSeen { f with got := nput f.got a (ngetD 0 f.got a + 1) } a)

/-- An agent that has failed answers a flush no more (R275, R277). -/
def flushGone (s : State) (k a : Nat) : State := modFlush s k (fun f => { f with waiting := f.waiting.filter (fun x => x ≠ a) })

/-- The entry of a line is uncorrectable: it is lost, and its set is flushed. -/
def entryLost (s : State) (line : Nat) : State :=
  let s := startFlush (putEnt s line none) line
  if s.dir.flushes.any (fun f => f.set == dirSet line && f.waiting == []) then endFlush s (dirSet line) else s

/-- The line of this node that a caching request names, before it is served. -/
def lineNamed (s : State) (p : Pkt) : Option Nat :=
  if p.isPpa then (if ownerOf p.addr = s.dev.node then some (lineOf p.addr) else none)
  else match (xlate s p.tenant p.addr .rd []).1 with
    | .ok x => if ownerOf x.ppa = s.dev.node then some (lineOf x.ppa) else none
    | _ => none

/-- A caching request, whose lookup may meet an uncorrectable entry (R277). -/
def cachingReq (s : State) (port : Nat) (p : Pkt) (dirErr : Bool) : State :=
  let s := if dirErr then (match lineNamed s p with | some l => entryLost s l | none => s) else s
  takeReq s port p

/-- RD_SHARED (R261, R267). -/
def execRdShared (inPort : Nat) (p : Pkt) (dirErr : Bool) (s : State) : Out := .next (cachingReq s inPort { p with ptype := 0x40 } dirErr)

/-- RD_OWN (R261, R267). -/
def execRdOwn (inPort : Nat) (p : Pkt) (dirErr : Bool) (s : State) : Out := .next (cachingReq s inPort { p with ptype := 0x41 } dirErr)

/-- UPGRADE (R261, R267). -/
def execUpgrade (inPort : Nat) (p : Pkt) (dirErr : Bool) (s : State) : Out := .next (cachingReq s inPort { p with ptype := 0x42 } dirErr)

/-! Messages of agents on VC2 -/

/-- The agent that sent a message, unless it is failed: then the message is discarded and counted (R275). -/
def sender (s : State) (p : Pkt) : Option Nat × State :=
  match agentOf s p.src with
  | some a => if agentFailed s a then (none, bump s Reg.dirStaleWb_count 1 (dirBank (lineOf p.addr))) else (some a, s)
  | none => (none, bump s Reg.dirStaleWb_count 1 (dirBank (lineOf p.addr)))

/-- The data flit of a message. -/
def dataFlit (p : Pkt) : Option Gran := (p.data.drop 1).head?

/-- Change the transaction of a line. -/
def modTxn (s : State) (line : Nat) (f : DirTxn → DirTxn) : State :=
  { s with dir := { s.dir with txns := s.dir.txns.map (fun t => if t.req.line = line then f t else t) } }

/-- The transaction of a line. -/
def txnOf (s : State) (line : Nat) : Option DirTxn := s.dir.txns.find? (fun t => t.req.line == line)

/-- Advance the transaction of a line and settle what follows. -/
def stepTxn (s : State) (line : Nat) : State := let a := advTxn s line; settleDir a.2 a.1

/-- WB_ACK to the sender of a writeback. -/
def wbAck (s : State) (p : Pkt) (a : Nat) : State := cohSend s p.src 0x4F (lineOf p.addr) p.reqId (cohFlit 0 false false a 0 0 0 0 0) none

/-- A writeback whose line a transaction waits for, or will: its data becomes the line's contents (R267). -/
def wbIntoTxn (s : State) (t : DirTxn) (a : Nat) (g : Gran) : State :=
  let e := (dirEnt s t.req.line).getD ⟨0, false, false, [], 0, t.req.key, t.req.place⟩
  let s := storeBack s t.req.line e g a
  modTxn s t.req.line (fun x => { x with wb := x.wb.filter (fun y => y ≠ a), wbGot := if x.snp.contains a then x.wbGot ++ [a] else x.wbGot })

/-- A writeback reaches its home (R267, R276, R277, R279). -/
def takeWb (s : State) (p : Pkt) (a : Nat) : State :=
  let line := lineOf p.addr
  match dataFlit p with
  | none => s
  | some g =>
    let stale := bump s Reg.dirStaleWb_count 1 (dirBank line)
    if s.dir.flushes.any (fun f => f.set == dirSet line && f.waiting.contains a) then
      flushWb (match dirEnt s line with
        | some e => wbAck (storeBack s line e g a) p a
        | none => wbAck (logDir s 4 line a) p a) (dirSet line) a
    else match txnOf s line with
      | some t =>
        if t.wb.contains a || t.snp.contains a then wbAck (stepTxn (wbIntoTxn s t a g) line) p a
        else (match dirEnt s line with
          | some e => if ownerAgent e = some a then wbAck (putEnt (storeBack s line e g a) line none) p a else wbAck stale p a
          | none => wbAck stale p a)
      | none =>
        match dirEnt s line with
        | some e =>
          if ownerAgent e = some a then wbAck (settleDir (putEnt (storeBack s line e g a) line none) []) p a else wbAck stale p a
        | none => wbAck stale p a

/-- WB_DATA (R267). -/
def execWbData (inPort : Nat) (p : Pkt) (s : State) : Out :=
  let p := { p with ptype := 0x43 }
  let b := arrives s inPort p
  if !b.1 then .next b.2
  else
    let q := sender b.2 p
    match q.1 with
    | some a => .next (takeWb q.2 (ingressData q.2 inPort p) a)
    | none => .next (if (agentOf b.2 p.src).isNone then wbAck q.2 p 0 else q.2)

/-- EVICT_CLEAN (R267). -/
def execEvictClean (inPort : Nat) (p : Pkt) (s : State) : Out :=
  let p := { p with ptype := 0x44 }
  let b := arrives s inPort p
  if !b.1 then .next b.2
  else
    let q := sender b.2 p
    let line := lineOf p.addr
    match q.1, dirEnt q.2 line with
    | some a, some e =>
      if e.st = 2 then .next (if ownerAgent e = some a then settleDir (putEnt q.2 line none) [] else q.2)
      else .next (settleDir (putEnt q.2 line (dropSharer e a)) [])
    | _, _ => .next q.2

/-- A request at the directory fails and its transaction closes. -/
def failTxn (s : State) (t : DirTxn) (ent : Option DirEnt) (f : Fin) : State :=
  let s := putEnt (closeTxn s t.req.line 0 0) t.req.line ent
  let d := dirSettle s []
  afterDir d.2 ((t.req, some f) :: d.1)

/-- The state that memory grants once no forward was made. -/
def memGrant (t : DirTxn) : DirTxn :=
  match t.next with
  | .forwarded => { t with next := .grant t.granted true, comp := false }
  | _ => t

/-- A snoop response joins its transaction (R267, R268, R279). An owner that was told to forward its data under ownership returns none to
memory; a sharer that answers a forward in state I held nothing. -/
def takeSnp (s : State) (t : DirTxn) (a : Nat) (flit : Nat) (data : Option Gran) : State :=
  let line := t.req.line
  let e := (dirEnt s line).getD ⟨0, false, false, [], 0, t.req.key, t.req.place⟩
  if data.isSome && !tenantActive s e.key then
    failTxn (bump s Reg.dirStaleWb_count 1 (dirBank line)) t none (Fin.of .tenantGone)
  else
    let s := match data.filter (fun _ => t.next ≠ .forwarded ∨ t.granted ≠ 3) with | some g => storeBack s line e g a | none => s
    let pend := bitOf flit 4 && !t.wbGot.contains a
    let gone := flit % 8 == 0 && (t.granted == 4 || t.req.op == 1)
    let s := if gone then putEnt s line ((dirEnt s line).bind (fun x => if x.st = 2 then some x else dropSharer x a)) else s
    let s := modTxn s line (fun x =>
      let x := { x with snp := x.snp.filter (fun y => y ≠ a), wb := if pend then x.wb ++ [a] else x.wb }
      if bitOf flit 4 || gone then memGrant x else x)
    stepTxn s line

/-- SNP_RSP (R267, R277). -/
def execSnpRsp (inPort : Nat) (p : Pkt) (s : State) : Out :=
  let p := { p with ptype := 0x45 }
  let b := arrives s inPort p
  if !b.1 then .next b.2
  else
    let q := sender b.2 p
    let line := lineOf p.addr
    match q.1 with
    | none => .next q.2
    | some a =>
      match txnOf q.2 line with
      | some t =>
        if t.snp.contains a then .next (takeSnp q.2 t a (cohOf p) ((dataFlit (ingressData q.2 inPort p)).filter (fun _ => bitOf (cohOf p) 3)))
        else .next (flushRsp q.2 (dirSet line) a (bitsOf (cohOf p) 48 16))
      | none => .next (flushRsp q.2 (dirSet line) a (bitsOf (cohOf p) 48 16))

/-- COMP_ACK (R270). -/
def execCompAck (inPort : Nat) (p : Pkt) (s : State) : Out :=
  let p := { p with ptype := 0x46 }
  let b := arrives s inPort p
  if !b.1 then .next b.2
  else
    let q := sender b.2 p
    let line := lineOf p.addr
    match q.1, txnOf q.2 line with
    | some a, some t =>
      if t.comp && t.req.agent == a then .next (stepTxn (modTxn q.2 line (fun x => { x with comp := false, compNs := q.2.nowNs })) line) else .next q.2
    | _, _ => .next q.2

/-! Timers (R270, R275) -/

/-- HOLD_EXPIRY (R270). -/
def execHoldExpiry (line : Nat) (s : State) : Out :=
  match nfind s.dir.holds line with
  | none => .next s
  | some t => .next (settleDir { advance s t with dir := { s.dir with holds := ndel s.dir.holds line } } [])

/-- Mark an agent failed (R275). -/
def markFailed (s : State) (line a : Nat) : State := logDir (setB s Reg.dirAgent_failed true a) 1 line a

/-- SNOOP_TIMEOUT (R275, R277): agent `agent` has not answered a snoop of a line, or of the line's set. -/
def execSnoopTimeout (line agent : Nat) (s : State) : Out :=
  match txnOf s line with
  | some t =>
    if t.snp.contains agent || t.wb.contains agent then
      let s := markFailed (advance s (t.startNs + snoopNs s)) line agent
      if (t.old.bind ownerAgent) = some agent then .next (failTxn s t t.old (Fin.atPpa .timeout (linePpa s line)))
      else
        let s := putEnt s line ((dirEnt s line).bind (fun e => if e.st = 2 then some e else dropSharer e agent))
        .next (stepTxn (modTxn s line (fun x =>
          let x := { x with snp := x.snp.filter (fun y => y ≠ agent), wb := x.wb.filter (fun y => y ≠ agent) }
          if (t.old.bind (fun e => if e.fValid then e.ptrs.head? else none)) = some agent then memGrant x else x)) line)
    else .next s
  | none =>
    if s.dir.flushes.any (fun f => f.set == dirSet line && f.waiting.contains agent) then
      .next (flushGone (markFailed s line agent) (dirSet line) agent)
    else .next s

/-- COMP_ACK_TIMEOUT (R275). -/
def execCompAckTimeout (line : Nat) (s : State) : Out :=
  match txnOf s line with
  | some t =>
    if t.comp then
      let s := logDir (advance s (t.startNs + snoopNs s)) 2 line t.req.agent
      .next (stepTxn (modTxn s line (fun x => { x with comp := false, compNs := s.nowNs })) line)
    else .next s
  | none => .next s

/-! Directory commands (R275, R278) -/

/-- BINV_RANGE (R278). A write while a command runs is ignored. -/
def execBinvRange (ppa ells : Nat) (s : State) : Out :=
  if getB s Reg.dirCmd_busy then .next s
  else
    let s := setF (setF s Reg.dirCmdArg0_ppa ppa) Reg.dirCmdArg1_ells ells
    let a := getF s Reg.dirCmdArg0_ppa
    let n := getF s Reg.dirCmdArg1_ells
    if a % ellBytes ≠ 0 ∨ ownerOf a ≠ s.dev.node ∨ n = 0 ∨ 2 ^ 42 < localOf a + n * ellBytes then .next (setF s Reg.dirCmd_result 2)
    else
      let lo := lineOf a
      let hi := lo + n * 1024
      let s := setB (setF s Reg.dirCmd_result 0) Reg.dirCmd_busy true
      let s := { s with dir := { s.dir with binv := some (lo, hi) } }
      let lines := s.dir.ents.filter (fun e => decide (lo ≤ e.1) && decide (e.1 < hi))
      let r := lines.foldl (fun (b : List DirReq × State) e =>
        if linePinned b.2 e.1 || (ownerAgent e.2).any (agentFailed b.2) then
          (b.1, { b.2 with dir := { b.2.dir with queue := b.2.dir.queue ++ [{ line := e.1, op := 0, agent := 0, req := none, pkt := none, key := e.2.key, place := e.2.place }] } })
        else let c := startBinv b.2 e.1 e.2; (b.1 ++ c.1, c.2)) ([], s)
      .next (settleDir r.2 r.1)

/-- AGENT_RELEASE (R275). -/
def execAgentRelease (agent : Nat) (s : State) : Out :=
  if getB s Reg.dirCmd_busy then .next s
  else
    let s := setF s Reg.dirCmd_agent agent
    let a := getF s Reg.dirCmd_agent
    if !agentFailed s a then .next (setF s Reg.dirCmd_result 3)
    else
      let s := s.dir.ents.foldl (fun s e =>
        if ownerAgent e.2 = some a then putEnt s e.1 none
        else if e.2.ptrs.contains a then putEnt s e.1 (dropSharer e.2 a) else s) s
      .next (settleDir (setF (setB s Reg.dirAgent_failed false a) Reg.dirCmd_result 0) [])

/-- DIR_COMMIT: every pending field of DIR takes effect; a new N resets the grant counters of the banks' arbiters (R229). -/
def commitDir (s0 : State) : State :=
  let s := commitTable s0 Reg.tableDir
  if arbN s0 Reg.dirCtl_arb_n = arbN s Reg.dirCtl_arb_n then s else { s with dir := { s.dir with arbs := zeroCnts s.dir.arbs } }

/-- DIR_COMMIT (R229). -/
def execDirCommit (s : State) : Out := .next (commitDir s)

end Sys2Proof.Machine
end

