-- ==== Sys2Proof/Machine/Translation.lean ====
section
/-!
DEFINITION. Machine/Translation.lean: tenants (spec 02 R25, R26; spec 17 R356, R357, R372), invalidation, TABLE_SWAP, RESMAP_CLEAR
and REVOKE (spec 08 R175 to R191, R450), migration (R184, R186) and host translations (R181, R182).
-/
namespace Sys2Proof.Machine
open Sys2Proof

/-! Command rings (spec 08, spec 17) -/

/-- A record of a command ring: sq_id 0x0000 and the tag as request_id. The opcode is the command's op code, or 0x00 (DESIGN CHOICE,
log 49). -/
def ccqRecord (s : State) (r : Ring) (opcode tag bytes : Nat) (f : Fin) (wc : Nat) : List Byte :=
  let m := maskFin f bytes
  recordBytes f.st.code 0 (fathomNow s) (wc / ringSize s r % 2 == 0) 0 0 opcode false false tag m.2.1 m.1 m.2.2.1 m.2.2.2

/-- An entry of the XTU command ring can be reserved, with at most 64 commands outstanding. -/
def xccqRoom (s : State) : Bool :=
  decide (s.xtu.ccqResv < 64) && decide (ringUsed (ringCnt s ringXccq) + s.xtu.ccqResv < ringSize s ringXccq)

/-- Post the record of an XTU command, in its reserved entry. -/
def xtuDone (s : State) (op tag : Nat) (f : Fin) : State :=
  ringPush { s with xtu := { s.xtu with ccqResv := s.xtu.ccqResv - 1 } } ringXccq (ccqRecord s ringXccq op tag 0 f)

/-- XTU_RCMD's operands and result. -/
def rcmd (s : State) (tenant tag addr count res : Nat) : State :=
  let s := setF (setF s Reg.xtuRcmd_tenant tenant) Reg.xtuRcmd_tag tag
  setF (setF (setF s Reg.xtuRcmdArg0_addr addr) Reg.xtuRcmdArg1_count count) Reg.xtuRcmd_result res

/-- What refuses an XTU command, in the order of R450. -/
def rcmdRefusal (s : State) (argOk active : Bool) : Nat :=
  if !argOk then 3 else if !active then 2 else if !xccqRoom s then 1 else 0

/-- Run an XTU command that passes its checks; its completion entry is reserved. -/
def issueRcmd (s : State) (tenant tag addr count : Nat) (argOk active : Bool) (f : State → State) : State :=
  let r := rcmdRefusal s argOk active
  let s := rcmd s tenant tag addr count r
  if r ≠ 0 then s else f { s with xtu := { s.xtu with ccqResv := s.xtu.ccqResv + 1 } }

/-! Invalidation (R178, R179) -/

/-- Every engine that is present and every DMA channel. -/
def allHolders (s : State) : List Holder :=
  ((List.range 96).filter (engOn s)).map Holder.engine ++ ((List.range 256).filter (fun c => c % 8 ≠ 7)).map Holder.dma

/-- A request of a tenant was translated through ells of a range. -/
def reqTouches (r : ReqRun) (t lo n : Nat) : Bool :=
  r.pkt.tenant == t && !r.pkt.isPpa && (r.pieces ++ r.served).any (fun c => decide (c.pva / ellBytes < lo + n) && decide (lo * ellBytes < c.pva + c.len))

/-- Steps 1 and 2 of R178. -/
def startInval (s : State) (tag t lo n : Nat) : State :=
  let s := cacheDrop s t lo n
  let e := (s.xtu.epoch + 1) % 2 ^ 32
  let ids := (s.nie.reqs.filter (fun r => reqTouches r t lo n)).map (·.id)
  let v : Inval := { tag := tag, tenant := t, lo := lo, count := n, epoch := e, toNotify := allHolders s, waiting := [], stopped := 0,
                     reqs := ids, ats := none }
  { s with xtu := { s.xtu with epoch := e, invals := s.xtu.invals ++ [v] } }

/-- INVALIDATE_RANGE (R178, R450). -/
def execInvalidateRange (tenant tag addr count : Nat) (s : State) : Out :=
  let t := tenant % 4096
  let n := count % 2 ^ 32
  let a := addr % 2 ^ 64
  let ok := decide (a < 2 ^ 52) && n ≠ 0 && decide (a / ellBytes + n ≤ 2 ^ 36)
  .next (issueRcmd s t tag addr count ok (tenantActive s t) (fun s => startInval s (tag % 2 ^ 24) t (a / ellBytes) n))

/-- INVALIDATE_TENANT (R178). -/
def execInvalidateTenant (tenant tag : Nat) (s : State) : Out :=
  let t := tenant % 4096
  .next (issueRcmd s t tag (getF s Reg.xtuRcmdArg0_addr) (getF s Reg.xtuRcmdArg1_count) true (tenantActive s t)
    (fun s => startInval s (tag % 2 ^ 24) t 0 (2 ^ 36)))

/-- Change an invalidation. -/
def modInval (s : State) (epoch : Nat) (f : Inval → Inval) : State :=
  { s with xtu := { s.xtu with invals := s.xtu.invals.map (fun v => if v.epoch = epoch then f v else v) } }

/-- A notice makes a lease stale: the extents overlap, and the lease was granted before the notice was sent, since both travel one ordered path
(R177). -/
def overtaken (v : Inval) (l : Lease) : Bool :=
  l.tenant == v.tenant && decide (l.ext.pvaStart < v.lo + v.count) && decide (v.lo < l.ext.pvaStart + l.ext.length)
  && decide (2 ^ 31 ≤ (l.epoch + 2 ^ 32 - v.epoch) % 2 ^ 32)

/-- The descriptors that a notice stops at a holder: those with a lease that it makes stale (R91, R206). -/
def noticeHits (s : State) (v : Inval) (h : Holder) : List Nat :=
  dedupSort ((s.xtu.leases.filter (fun l => l.holder == h && !l.stale && overtaken v l)).flatMap (·.uids))

/-- Pages of the host side that an engine's transfer holds host leases on: those within its read-ahead (R182, R206). -/
def hostPages (s : State) (r : DmaRun) (d : Desc) : List Nat :=
  let b := r.piece * 4096
  let w := clamp 1 8 (getF s Reg.dmaCtl_rd_window) * 32768
  (hostSegs d.raw b (min w (c2Total d.raw - b))).map (fun x => x.1 / 4096)

/-- The descriptors that a host invalidation stops at a DMA channel (R182, R206). -/
def atsHits (s : State) (v : Inval) (fn pasid : Nat) (h : Holder) : List Nat :=
  match h with
  | .dma c =>
    (match nfind s.dma.run (c / 8) with
     | some r => (match descOf s r.uid with
       | some d => if r.mig.isNone && r.ch == c % 8 && fnOf s d.queue == fn && c2Pasid d.raw == pasid
           && (hostPages s r d).any (fun p => decide (v.lo ≤ p) && decide (p < v.lo + v.count)) then [r.uid] else []
       | none => [])
     | none => [])
  | _ => []

/-- A descriptor will be stopped by a notice: it is in progress and not stopping yet. -/
def stoppable (s : State) (uid : Nat) : Bool :=
  match descOf s uid with
  | some d => !d.stopping && d.phase ≠ .draining && ((opRow d.opcode).map (fun r => r.unit == .engine)).getD false
  | none => false

/-- A host invalidation whose holders have all acknowledged is answered (R182); one that a function reset started (R341, its tag is
2^32) has nobody to answer. -/
def atsFinish (s : State) : State :=
  let fin := s.xtu.invals.filter (fun v => v.ats.isSome && v.toNotify == [] && v.waiting == [])
  fin.foldl (fun s v =>
    let s := { s with xtu := { s.xtu with invals := s.xtu.invals.erase v } }
    if v.tag < 2 ^ 32 then emit s (.invalCompletion v.tag) else s) s

/-- A notice reaches a holder: overlapping leases go stale and their descriptors stop (R91, R177, R206); the holder acknowledges
when no stale work is left (R92). -/
def notice (s : State) (v : Inval) (h : Holder) : State :=
  let hits := match v.ats with
    | some (fn, pasid) => atsHits s v fn pasid h
    | none => noticeHits s v h
  let s := if v.ats.isSome then s else
    { s with xtu := { s.xtu with leases := s.xtu.leases.map (fun l =>
        if l.holder == h && overtaken v l then { l with stale := true } else l) } }
  let n := (hits.filter (stoppable s)).length
  let s := modInval s v.epoch (fun x => { x with toNotify := x.toNotify.filter (fun y => y ≠ h), waiting := x.waiting ++ [h], stopped := x.stopped + n })
  let s := hits.foldl (fun s u => if stoppable s u then stopDesc s u (Fin.of .part) else s) s
  match h with
  | .engine e => atsFinish (ackInvals s e)
  | _ => atsFinish (modInval s v.epoch (fun x => { x with waiting := x.waiting.filter (fun y => y ≠ h) }))

/-- The notice of an epoch, where it has not reached a holder yet. -/
def noticeOf (s : State) (h : Holder) (epoch : Nat) : State :=
  match s.xtu.invals.find? (fun v => v.epoch == epoch && v.toNotify.contains h) with
  | some v => notice s v h
  | none => s

/-- LEASE_NOTICE (R91, R92, R177): the notice of an epoch reaches engine `n`, or DMA channel `n` (engine × 8 + channel). Notices reach a holder in
order: those that were sent before it come first. -/
def execLeaseNotice (epoch : Nat) (dma : Bool) (n : Nat) (s : State) : Out :=
  let h := if dma then Holder.dma n else Holder.engine n
  if s.xtu.invals.any (fun v => v.epoch == epoch && v.toNotify.contains h) then
    .next ((((s.xtu.invals.takeWhile (fun v => v.epoch ≠ epoch)).map (·.epoch)) ++ [epoch]).foldl (fun s e => noticeOf s h e) s)
  else .next s

/-- A caching request that stands at this node's directory and has not been granted (R267). -/
def cachingWaits (s : State) : List DirReq :=
  s.dir.queue.filter (fun q => q.via.isSome)
    ++ ((s.dir.txns.filter (fun t => t.req.via.isSome && (t.snp ≠ [] || t.wb ≠ [] || t.next ≠ .forwarded))).map (·.req))

/-- The tenant of a caching request. -/
def cachingOf (q : DirReq) (t : Nat) : Bool := (q.pkt.map (·.tenant)) == some t

/-- Work of a range of ells other than the requests that an invalidation noted: caching requests at the directory, and forwarded writes of tiles
and transfers that have not been answered (R178 step 5, R179; later ones delay the completion too: DESIGN CHOICE, log 140). -/
def rangeBusy (s : State) (v : Inval) : Bool :=
  let hit : Option Nat → Bool := fun e => e.any (fun x => decide (v.lo ≤ x) && decide (x < v.lo + v.count))
  (cachingWaits s).any (fun q => cachingOf q v.tenant && hit (q.via.map (·.2)))
  || s.nie.outst.any (fun o => o.isWrite && o.tenant == v.tenant && hit o.ell)

/-- INVALIDATION_COMPLETE (R178, R179): every holder has acknowledged, every request through a dropped entry has completed, and
late_drain has passed after its timed-out writes. -/
def execInvalidationComplete (tag : Nat) (s : State) : Out :=
  match s.xtu.invals.find? (fun v => v.ats.isNone && v.tag == tag) with
  | none => .next s
  | some v =>
    if v.toNotify ≠ [] ∨ v.waiting ≠ [] ∨ v.reqs ≠ [] ∨ rangeBusy s v then .next s
    else
      let l : List LateWrite := s.xtu.late.filter (fun x => x.tenant == v.tenant && decide (v.lo ≤ x.ell) && decide (x.ell < v.lo + v.count))
      let s := advance s ((l.map LateWrite.untilNs).foldl max s.nowNs)
      let s := { s with xtu := { s.xtu with invals := s.xtu.invals.erase v,
                                            late := s.xtu.late.filter (fun x => decide (s.nowNs < x.untilNs)),
                                            leases := s.xtu.leases.filter (fun q => !(q.stale && q.tenant == v.tenant)) } }
      .next (xtuDone s (if v.count = 2 ^ 36 then 2 else 1) v.tag ⟨.done, 0, .none, min v.stopped 0xFFFFFF⟩)

/-! Tables (R173, R176, R183) -/

/-- The checks of R26 on a table: its size and its place. -/
def tableOk (s : State) (ppa cap : Nat) : Bool := decide (cap ≤ 1048576) && ppa % 4096 == 0 && decide (ppa < 2 ^ 56) && ownerOf ppa == s.dev.node

/-- TABLE_SWAP (R176). -/
def execTableSwap (tenant tag ppa count : Nat) (s : State) : Out :=
  let t := tenant % 4096
  let n := count % 2 ^ 32
  .next (issueRcmd s t tag ppa count (tableOk s (ppa % 2 ^ 64) n) (tenantActive s t) (fun s =>
    let s := setF (setF s Reg.xtuTenant8_ext_table_ppa ppa t) Reg.xtuTenant4_ext_capacity n t
    xtuDone (cacheDropTenant s t) 4 (tag % 2 ^ 24) Fin.ok))

/-- RESMAP_CLEAR (R183): the residency bits of a range of local ells clear. -/
def execResmapClear (tag offset count : Nat) (s : State) : Out :=
  let a := offset % 2 ^ 64 / ellBytes
  let n := count % 2 ^ 32
  .next (issueRcmd s (getF s Reg.xtuRcmd_tenant) tag offset count (n ≠ 0 && decide (a + n ≤ 18874368)) true (fun s =>
    xtuDone ((List.range n).foldl (fun s i => setResident s (a + i) false) s) 5 (tag % 2 ^ 24) Fin.ok))

/-- TRANSLATION_MISS (R172, R173): the table of a tenant is searched for an address that the cache does not hold. -/
def execTranslationMiss (tenant pva : Nat) (s : State) : Out :=
  let t := tenant % 4096
  if !tenantActive s t || decide (2 ^ 52 ≤ pva) || (s.xtu.cache.any (entHits t (pva / ellBytes))) then .next s
  else .next (findRec s t (pva / ellBytes) pva).2

/-! REVOKE (R185, R188 to R190) -/

/-- The hint of a REVOKE (R190). -/
def revHint (v : Revoke) : Nat := min v.aborted 0xFFFFFF + b2n v.fwdWrite * 2 ^ 31

/-- Answer one waiter of a REVOKE. -/
def revAnswer (s : State) (w : RevWaiter) (f : Fin) : State :=
  match w with
  | .tag t => xtuDone s 3 t f
  | .desc u => (match descOf s u with | some d => endDesc s d f false | none => s)

/-- Write an extent's revocation epoch: into the record, and into the cache entries and leases of the extent, wherever its record stood when they
were filled (R189 step 3). -/
def raiseRev (s : State) (t ppa start v : Nat) : State :=
  let s := hwWrite s (.tenant t) (ppa + 0x14) (natToLe 4 v)
  { s with xtu := { s.xtu with
      cache := s.xtu.cache.map (fun e => if e.tenant = t ∧ e.ext.pvaStart = start then { e with ext := { e.ext with revEpoch := v } } else e)
      leases := s.xtu.leases.map (fun l => if l.tenant = t ∧ l.ext.pvaStart = start then { l with ext := { l.ext with revEpoch := v } } else l) } }

/-- An item waits for the migration of an ell of an extent. -/
def waitsExtent (t start n : Nat) : HeldWhy → Bool
  | .migrate m => m.tenant == t && decide (start ≤ m.pvaEll) && decide (m.pvaEll < start + n)
  | _ => false

/-- The PVA of the ell that an item waits for. -/
def heldPva (st : Status) : HeldWhy → Fin
  | .migrate m => Fin.atPva st (m.pvaEll * ellBytes)
  | _ => Fin.of st

/-- Steps 1 to 3 of R189. -/
def startRevoke (s : State) (t pva : Nat) (w : RevWaiter) : State :=
  let q := searchTable s t (pva / ellBytes)
  match q.1 with
  | .nothing => revAnswer q.2 w (Fin.atPva .unmapped pva)
  | .bad e ppa => revAnswer (logXtu q.2 3 t ppa) w (badGran e (ppa / 64 * 64))
  | .hit r _ ppa =>
    let s := q.2
    if !r.valid || r.pvaStart ≠ pva / ellBytes then revAnswer s w (Fin.atPva .unmapped pva)
    else if !extOk s r then revAnswer (logXtu s 1 t ppa) w (Fin.atPva .unmapped pva)
    else if s.xtu.revokes.any (fun v => v.tenant == t && v.pvaStart == r.pvaStart) then
      { s with xtu := { s.xtu with revokes := s.xtu.revokes.map (fun v =>
          if v.tenant = t ∧ v.pvaStart = r.pvaStart then { v with waiters := v.waiters ++ [w] } else v) } }
    else if r.revEpoch % 2 = 1 then revAnswer s w Fin.ok
    else
      let s := raiseRev s t ppa r.pvaStart ((r.revEpoch + 1) % 2 ^ 32)
      let v : Revoke := { tenant := t, recPpa := ppa, pvaStart := r.pvaStart, length := r.length, startNs := s.nowNs, waiters := [w],
                          aborted := 0, fwdWrite := false }
      let s := { s with xtu := { s.xtu with revokes := s.xtu.revokes ++ [v] } }
      failHeld s (waitsExtent t r.pvaStart r.length) (heldPva .revoked)

/-- Run a REVOKE descriptor that stands ready. -/
def runRevoke (s : State) (uid : Nat) : State :=
  match descOf s uid with
  | none => s
  | some d =>
    if d.phase ≠ .ready then s
    else if badRevoke d.raw then endDesc s d (Fin.of .badDescriptor) false
    else startRevoke (modDesc s uid (fun x => { x with phase := .running })) d.tenant (dfld d.raw 0x10 0 64) (.desc uid)

/-- Who issues a REVOKE. -/
def revokeBy (s : State) (c : RevCmd) : State :=
  match c with
  | .desc o => (match opTake s 0x51 o with
    | (none, s) => s
    | (some u, s) => runRevoke s u)
  | .rcmd tenant tag addr =>
    let t := tenant % 4096
    issueRcmd s t tag addr (getF s Reg.xtuRcmdArg1_count) (revPvaOk (addr % 2 ^ 64)) (tenantActive s t) (fun s =>
      startRevoke s t (addr % 2 ^ 64) (.tag (tag % 2 ^ 24)))

/-- REVOKE (R189, R450): a descriptor, or a command of XTU_RCMD. -/
def execRevoke (c : RevCmd) (s : State) : Out := .next (revokeBy s c)

/-- The REVOKE in progress of a record that starts at a PVA. -/
def revokeOf (s : State) (t pva : Nat) : Option Revoke := s.xtu.revokes.find? (fun v => v.tenant == t && v.pvaStart == pva / ellBytes)

/-- Work in flight under an extent (R189). -/
def inFlight (s : State) (v : Revoke) : List Flight := s.xtu.flights.filter (fun f => f.tenant == v.tenant && f.start == v.pvaStart)

/-- Caching requests in flight under an extent (R189). One that went on to a home elsewhere is answered there, and never through this node
(DEDUCED, log 139). -/
def inFlightDir (s : State) (v : Revoke) : List DirReq :=
  (cachingWaits s).filter (fun q => cachingOf q v.tenant && (q.via.map (·.1)) == some v.pvaStart)

/-- REVOKE_DRAIN_DONE (R189 step 6). -/
def execRevokeDrainDone (tenant pva : Nat) (s : State) : Out :=
  match revokeOf s (tenant % 4096) pva with
  | none => .next s
  | some v =>
    if inFlight s v ≠ [] ∨ inFlightDir s v ≠ [] then .next s
    else
      let s := { s with xtu := { s.xtu with revokes := s.xtu.revokes.erase v } }
      .next (v.waiters.foldl (fun s w => revAnswer s w ⟨.done, 0, .none, revHint v⟩) s)

/-- Abort a request as a straggler: it completes with REVOKED (R190). -/
def abortReq (s : State) (v : Revoke) (id : Nat) : State :=
  match reqOf s id with
  | none => s
  | some r =>
    let a := ((r.pieces.head?).map (·.pva)).getD (reqStart r.pkt)
    answerReq s { r with fin := Fin.worse (Fin.atPva .revoked (max a (v.pvaStart * ellBytes))) r.fin }

/-- Abort one piece of work as a straggler (R190): a request, a tile, a batch's tile, or a DMA descriptor. -/
def abortFlight (s : State) (v : Revoke) (f : Flight) : State :=
  let a := v.pvaStart * ellBytes
  match f.holder with
  | .request id => abortReq s v id
  | .engine _ => endTile s f.uid f.tile (Fin.atPva .revoked a)
  | .dma c => (match nfind s.dma.run (c / 8) with
    | some r => if r.uid = f.uid then
        let first := match descOf s f.uid with
          | some d => ((poolSegs d.raw (pieceOf d.raw r.piece).1 (pieceOf d.raw r.piece).2).head?.map (·.1)).getD a
          | none => a
        stopDma s f.uid (Fin.atPva .revoked first) else s
    | none => s)

/-- Abort a caching request as a straggler: REVOKED goes to the requester; where its transaction has snoops out, they run to their end and nothing
is granted after them (R190; DESIGN CHOICE, log 139). -/
def abortCaching (s : State) (q : DirReq) : State :=
  let a := match q.via with | some x => x.2 * ellBytes | none => 0
  let s := match q.pkt with | some p => cohErr s p (Fin.atPva .revoked a) | none => s
  let s := { s with dir := { s.dir with
    queue := s.dir.queue.erase q
    txns := s.dir.txns.map (fun t => if t.req = q then { t with req := { q with via := none }, next := match t.next with | .grant _ _ => .forwarded | n => n } else t) } }
  stepTxn s q.line

/-- The stragglers that count: requests and tiles each, and every DMA descriptor once (R190). -/
def stragglers (fs : List Flight) : Nat :=
  let dma : Flight → Bool := fun f => match f.holder with | .dma _ => true | _ => false
  (fs.filter (fun f => !dma f)).length + (((fs.filter dma).map (·.uid)).eraseDups).length

/-- Some straggler is a forwarded write, or has one out (R190). -/
def fwdWriteOut (s : State) (fs : List Flight) : Bool :=
  fs.any (fun f => match f.holder with
    | .request id => s.nie.outst.any (fun o => o.client == some id && o.isWrite)
    | _ => s.nie.outst.any (fun o => o.uid == some f.uid && o.part == f.tile && o.isWrite))

/-- REVOKE_STRAGGLER_TIMEOUT (R189 step 5, R190). -/
def execRevokeStragglerTimeout (tenant pva : Nat) (s : State) : Out :=
  match revokeOf s (tenant % 4096) pva with
  | none => .next s
  | some v =>
    let s := advance s (v.startNs + 2000000)
    let fs := inFlight s v
    let cs := inFlightDir s v
    let s := { s with xtu := { s.xtu with revokes := s.xtu.revokes.map (fun x =>
      if x = v then { x with aborted := x.aborted + stragglers fs + cs.length, fwdWrite := x.fwdWrite || fwdWriteOut s fs } else x) } }
    let s := cs.foldl abortCaching (fs.foldl (fun s f => abortFlight s v f) s)
    .next { s with xtu := { s.xtu with flights := s.xtu.flights.filter (fun f => !fs.contains f) } }

/-! Migration (R184, R186) -/

/-- An item waits for the migration of an ell. -/
def waitsEll (ell : Nat) : HeldWhy → Bool
  | .migrate m => m.ell == ell
  | _ => false

/-- The host IOVA an item waits for. -/
def heldIova (st : Status) : HeldWhy → Fin
  | .migrate m => ⟨st, m.iova, .iova, 0⟩
  | _ => Fin.of st

/-- XTU_MIG_DONE (R184 steps 4 to 6, R186). -/
def execXtuMigDone (index outcome : Nat) (s : State) : Out :=
  let i := index % 4096
  match nfind s.xtu.migEnts i with
  | none => .next s
  | some m =>
    if 3 ≤ outcome then .next s
    else
      let s := { s with xtu := { s.xtu with migEnts := ndel s.xtu.migEnts i } }
      if outcome = 0 then .next (resumeHeld (setResident s m.ell true) (waitsEll m.ell))
      else .next (failHeld s (waitsEll m.ell) (heldIova (if outcome = 1 then .unmapped else .timeout)))

/-- Entries of the migration ring that firmware has not taken. -/
def untaken (s : State) : List Nat :=
  let h := getF s Reg.xtuMigCtl_head
  (List.range ((getF s Reg.xtuMigCtl_tail + 4096 - h) % 4096)).map (fun i => (h + i) % 4096)

/-- MIG_EN_CLEAR (R186): mig_en goes from 1 to 0. -/
def execMigEnClear (s : State) : Out :=
  if !getB s Reg.xtuCtl_mig_en then .next s
  else
    let gone := untaken s
    let s := setB s Reg.xtuCtl_mig_en false
    let s := { s with xtu := { s.xtu with migEnts := s.xtu.migEnts.filter (fun e => !gone.contains e.1) } }
    let s := setF s Reg.xtuMigCtl_head (getF s Reg.xtuMigCtl_tail)
    .next (failHeld s isMigrate (heldIova .unmapped))

/-! Tenants (R25, R26, R356, R357, R372) -/

/-- A tenant's key must be random: SESSION class, a confidential tenant, or a slot that has wrapped (R355, R356). -/
def needsRandom (s : State) (t : Nat) (conf : Bool) : Bool := getB s Reg.secCtl_mem_class || conf || getB s Reg.secSlot_wrapped t

/-- An entry of the SEC error ring: the port or 0xFF, and the tenant concerned (R442). -/
def logSec (s : State) (cause : Nat) (port tenant : Option Nat) : State :=
  logErr s ringSec cause ⟨tenant, 0, port.getD 255, 0, 0⟩

/-- A create is refused: the record stays as it was and the XTU logs cause 0x02 (R26, R357). -/
def refuseCreate (s : State) (t : Nat) : State := logXtu s 2 t (tableOf s t).1

/-- TENANT_CREATE (R26, R357, R410): word 0x00 of a FREE record is written with state ACTIVE. -/
def execTenantCreate (tenant : Nat) (confidential busError : Bool) (s : State) : Out :=
  let t := tenant % 4096
  let tb := tableOf s t
  if getF s Reg.xtuTenant0_state t ≠ 0 then .next s
  else if confidential && getB s Reg.secStatus_debug_granted then .next (logSec (refuseCreate s t) 4 none (some t))
  else if !getB s Reg.cfgStatus_committed || (confidential && !feature s 2) || !tableOk s tb.1 tb.2 || (busError && !feature s 1) || (needsRandom s t confidential && !getB s Reg.secStatus_trng_ok) then
    .next (refuseCreate s t)
  else
    let s := setF s Reg.xtuTenant0_state 1 t
    let s := setB s Reg.xtuTenant0_confidential confidential t
    let s := setB s Reg.xtuTenant0_sr1_bus_error busError t
    .next { s with sec := { s.sec with pendingLoad := s.sec.pendingLoad ++ [t] } }

/-- Load a key slot: its generation steps, and a wrap is remembered (R356). -/
def loadSlot (s : State) (t : Nat) (session : Bool) : State :=
  let g := getF s Reg.secSlot_generation t
  let s := setF s Reg.secSlot_generation (g + 1) t
  let s := if g = 65535 then setB s Reg.secSlot_wrapped true t else s
  let s := setB s Reg.secSlot_cls (session || getB s Reg.secSlot_wrapped t) t
  let s := setF s Reg.secSlot_state 1 t
  { s with sec := { s.sec with serial := nput s.sec.serial t (ngetD 0 s.sec.serial t + 1) } }

/-- KEY_SLOT_LOADED (R357); a load that needs a random value waits while the health tests fail (R353). -/
def execKeySlotLoaded (tenant : Nat) (s : State) : Out :=
  let t := tenant % 4096
  let random := needsRandom s t (getB s Reg.xtuTenant0_confidential t)
  if !s.sec.pendingLoad.contains t || (random && !getB s Reg.secStatus_trng_ok) then .next s
  else
    let s := loadSlot s t random
    let s := { s with sec := { s.sec with pendingLoad := s.sec.pendingLoad.filter (fun x => x ≠ t) } }
    .next (resumeHeld s (fun w => w == .key t))

/-- The tenant of a held item. -/
def heldTenant (s : State) (h : Held) : Option Nat :=
  match h.item with
  | .req id => (reqOf s id).map (fun r => r.pkt.tenant)
  | .desc u => (descOf s u).map (·.tenant)
  | .tile u _ => (descOf s u).map (·.tenant)

/-- Work of the holding queue leaves with TENANT_GONE (R329). -/
def goneHold (s : State) (h : HoldEnt) : State :=
  match h.item with
  | .req id => (match reqOf s id with | some r => refuseReq s r r.cls (Fin.of .tenantGone) | none => s)
  | .door _ => s
  | .desc u => stopDesc s u (Fin.of .tenantGone)
  | .tile u _ => stopDesc s u (Fin.of .tenantGone)
  | .piece e => (match nfind s.dma.run e with | some r => stopDma s r.uid (Fin.of .tenantGone) | none => s)

/-- Stop a tenant's work (R372 step 2). -/
def stopTenant (s : State) (t : Nat) : Nat × State :=
  let mine := s.qmg.descs.filter (fun d => d.tenant == t && d.phase ≠ .draining
    && !(d.phase == .running && ((opRow d.opcode).map (fun r => r.unit != .engine)).getD false))
  let hold := s.adm.hold.filter (fun h => h.tenant == t)
  let s := hold.foldl goneHold (holdView { s with adm := { s.adm with hold := s.adm.hold.filter (fun h => h.tenant ≠ t) } })
  let s := failWhere s (fun h => heldTenant s h == some t) (fun _ => Fin.of .tenantGone)
  let s := mine.foldl (fun s d => stopDesc s d.uid (Fin.of .tenantGone)) s
  let pk := s.nie.reorder.filter (fun x => x.2.tenant == t)
  let s := { s with nie := { s.nie with reorder := s.nie.reorder.filter (fun x => x.2.tenant ≠ t) } }
  (mine.length, pk.foldl (fun s x => if x.2.ptype = 0x04 then s else errRsp s x.2 0 (Fin.of .tenantGone)) s)

/-- TENANT_RETIRE (R26, R372 steps 1 and 2). -/
def execTenantRetire (tenant : Nat) (s : State) : Out :=
  let t := tenant % 4096
  if getF s Reg.xtuTenant0_state t ≠ 1 then .next s
  else
    let s := setF (setF s Reg.xtuTenant0_state 2 t) Reg.secSlot_state 2 t
    let s := { s with sec := { s.sec with pendingLoad := s.sec.pendingLoad.filter (fun x => x ≠ t) } }
    let r := stopTenant s t
    .next { r.2 with sec := { r.2.sec with removals := r.2.sec.removals ++ [⟨t, r.1⟩] } }

/-- Work of a tenant, and accesses under its key, that have not finished at this node (R372 step 4). -/
def tenantBusy (s : State) (t : Nat) : Bool :=
  s.qmg.descs.any (fun d => d.tenant == t) || s.nie.reqs.any (fun r => r.pkt.tenant == t) || s.nie.outst.any (fun o => o.tenant == t)
  || s.nme.tiles.any (fun r => decide (2 ≤ r.step) && r.xl.any (fun x => x.2.keyTenant == t))
  || s.nie.reqs.any (fun r => r.pieces.any (fun c => c.xl.keyTenant == t && ownerOf c.xl.ppa == s.dev.node))
  || (s.dir.queue ++ s.dir.txns.map (·.req)).any (fun q => decide (3 ≤ q.op) && (q.key == t || cachingOf q t))

/-- TENANT_KEY_DESTROY (R372 steps 4 to 6). Cached translations and idle leases of the tenant go with it (DEDUCED, log 50). -/
def execTenantKeyDestroy (tenant : Nat) (s : State) : Out :=
  let t := tenant % 4096
  match s.sec.removals.find? (fun r => r.tenant == t) with
  | none => .next s
  | some r =>
    if tenantBusy s t then .next s
    else
      let s := setF (setF s Reg.secSlot_state 0 t) Reg.xtuTenant0_state 0 t
      let s := { cacheDropTenant s t with sec := { s.sec with removals := s.sec.removals.erase r,
                                                              serial := nput s.sec.serial t (ngetD 0 s.sec.serial t + 1) } }
      let s := { s with xtu := { s.xtu with leases := s.xtu.leases.filter (fun l => l.tenant ≠ t) } }
      let f : Fin := ⟨.done, 0, .none, t + min r.stopped 65535 * 65536⟩
      if ringSize s ringSccq ≤ ringUsed (ringCnt s ringSccq) + s.sec.cmds then .next (bumpSat s Reg.secErrOvf_dropped)
      else .next (ringPush s ringSccq (ccqRecord s ringSccq 0 0 0 f))

/-! Host translations (R181, R182) -/

/-- A wait for a host translation ends; the operation that waited fails (R181, R206): a ring puts its queue in ERROR, with cause 0x03 for an SQ
and, as records are lost, 0x04 for a CQ (R72, R181; DEDUCED, log 128). -/
def atsFail (s : State) (w : AtsWait) (st : Status) : State :=
  let s := { s with hif := { s.hif with waits := s.hif.waits.erase w } }
  match w.who with
  | .dma e => (match nfind s.dma.run e with
    | some r => failPiece s e r.ahead 7 ⟨st, w.page * 4096, .iova, 0⟩
    | none => s)
  | .mig e => failMig s e st
  | .sq q => queueError s q 3 0x7F 0
  | .cq q => recordsLost s q

/-- A wait for a host translation ends well: what waited goes on. A DMA transfer goes on at its next DMA_PIECE, and a ring at its next fetch. -/
def atsGo (s : State) (w : AtsWait) : State :=
  match w.who with
  | .mig e => migGo migPieces s e
  | .cq q => recordsGo s q
  | .dma _ => s
  | .sq _ => s

/-- Put a translation into the ATS cache of 8,192 entries, the oldest out first. -/
def atsPut (s : State) (e : AtsEnt) : State :=
  let rest := s.hif.ats.filter (fun x => !(x.fn == e.fn && x.pasid == e.pasid && x.page == e.page))
  { s with hif := { s.hif with ats := e :: rest.take 8191 } }

/-- ATS_TRANSLATION_COMPLETION (R181): the host's answer for a page of a function and PASID, with the rights it gives. `priMax` is
how many page requests the host allows, 0 where PRI is not enabled. -/
def execAtsTranslationCompletion (fn pasid page : Nat) (rd wr : Bool) (priMax : Nat) (s : State) : Out :=
  match s.hif.waits.find? (fun w => w.fn == fn && w.pasid == pasid && w.page == page && w.pri.isNone) with
  | none => .next s
  | some w =>
    if (if w.wr then wr else rd) then
      let done : AtsWait → Bool := fun x => x.fn == fn && x.pasid == pasid && x.page == page && x.pri.isNone && (if x.wr then wr else rd)
      .next ((s.hif.waits.filter done).foldl atsGo
        (atsPut { s with hif := { s.hif with waits := s.hif.waits.filter (fun x => !done x) } } ⟨fn, pasid, page, rd, wr⟩))
    else if priMax = 0 then .next (atsFail s w .unmapped)
    else if min 512 priMax ≤ (s.hif.waits.filter (fun x => x.pri.isSome)).length then
      .next { s with hif := { s.hif with waits := s.hif.waits.erase w } }
    else
      let i := s.hif.nextPri
      let dl := s.nowNs + max 1 (getF s Reg.xtuCtl_pri_timeout_ms) * 1000000
      let s := { s with hif := { s.hif with nextPri := i + 1, waits := s.hif.waits.map (fun x => if x = w then { x with pri := some (i, dl) } else x) } }
      .next (emit s (.pageRequest fn pasid (page * 4096) i))

/-- The wait of a page request. -/
def priWait (s : State) (index : Nat) : Option (AtsWait × Nat) :=
  s.hif.waits.findSome? (fun w => match w.pri with | some (i, t) => if i = index then some (w, t) else none | none => none)

/-- PAGE_REQUEST_RESPONSE (R181). -/
def execPageRequestResponse (index : Nat) (success : Bool) (s : State) : Out :=
  match priWait s index with
  | none => .next s
  | some (w, _) =>
    if success then
      let s := { s with hif := { s.hif with waits := s.hif.waits.map (fun x => if x = w then { x with pri := none } else x) } }
      .next (emit s (.translationRequest w.fn w.pasid (w.page * 4096)))
    else .next (atsFail s w .unmapped)

/-- PRI_TIMEOUT (R181). -/
def execPriTimeout (index : Nat) (s : State) : Out :=
  match priWait s index with
  | none => .next s
  | some (w, t) => .next (atsFail (advance s t) w .timeout)

/-- ATS_INVALIDATION_REQUEST (R182): `pages` pages from `page` on, of a function and PASID; the cached translations go and the
notices start. -/
def execAtsInvalidationRequest (fn pasid page pages tag : Nat) (s : State) : Out :=
  let s := { s with hif := { s.hif with ats := s.hif.ats.filter (fun e =>
    !(e.fn == fn && e.pasid == pasid && decide (page ≤ e.page) && decide (e.page < page + pages))) } }
  let e := (s.xtu.epoch + 1) % 2 ^ 32
  let v : Inval := { tag := tag, tenant := 0, lo := page, count := pages, epoch := e, toNotify := allHolders s, waiting := [], stopped := 0,
                     reqs := [], ats := some (fn, pasid) }
  .next { s with xtu := { s.xtu with epoch := e, invals := s.xtu.invals ++ [v] } }

end Sys2Proof.Machine
end

