-- ==== Sys2Proof/Machine/Loss.lean ====
section
/-!
DEFINITION. Machine/Loss.lean: the zero map, lost memory and failed member stacks (spec 10 R230 to R234, spec 11 R254 to R258).
-/
namespace Sys2Proof.Machine
open Sys2Proof

/-! The zero map -/

/-- Where the 4 KiB piece k of the zero map lies; the map begins at the first byte of reserved memory (R211). -/
def mapPiece (s : State) (k : Nat) : Option Nat := locateRsv s (rsvBase s + k * 4096)

/-! Loss in full-capacity mode, and of a second member (R256, R258) -/

/-- A structure of this node has a granule on lost memory. -/
def structLost (s : State) (ppa bytes : Nat) : Bool :=
  (List.range (cdiv (ppa % 64 + bytes) 64)).any (fun i =>
    match hwLocate s (localOf ppa / 64 * 64 + i * 64) with
    | some p => isLost s p
    | none => false)

/-- Zero-map granules that lie on lost memory and are not yet given up: their blocks are poisoned (R233, R256). -/
def loseMaps (s : State) : State :=
  (List.range 9216).foldl (fun s k =>
    match mapPiece s k with
    | none => s
    | some p =>
      if !isLost s p then s
      else (List.range 64).foldl (fun s i =>
        if ngetD false s.mem.zlost (k * 64 + i) then s
        else logRas (loseMapGran s (k * 64 + i) true) 0x0A (p + i * 64)) s) s

/-- Tenants whose extent table, and queues whose context, newly lie on lost memory: the queue stands in cause 0x05 whatever its state
(R448), every queue of each tenant receives FATAL (R46, R73), and cause 0x0B is logged for each tenant (R256). QMG examines the
contexts it has written (log 125). -/
def loseStructs (s : State) : State :=
  let tabs := (List.range 4096).filter (fun t =>
    tenantActive s t && !ngetD false s.xtu.tblLost t && structLost s (tableOf s t).1 ((tableOf s t).2 * 32))
  let qs := (s.qmg.tenantOf.map (·.1)).filter (fun q => (nfind s.qmg.lost q).isNone && structLost s (ctxPpa s q) 64)
  let tens := dedupSort (tabs ++ qs.map (fun q => ngetD 0 s.qmg.tenantOf q))
  let s := tabs.foldl (fun s t => { s with xtu := { s.xtu with tblLost := nset false s.xtu.tblLost t true } }) s
  let s := qs.foldl markLost s
  let s := tens.foldl fatalTenant s
  tens.foldl (fun s t => logErr s ringRas 0x0B ⟨some t, 0, 0, 0, 0⟩) s

/-- What follows a loss of memory already noted in the state (R256). -/
def afterLoss (s : State) : State := loseStructs (loseMaps s)

/-- The memory of channels is lost (R256). -/
def loseChannels (s : State) (st : Nat) (chs : List Nat) : State :=
  afterLoss { s with mem := { s.mem with lostCh := chs.foldl (fun m c => nset false m (st * 32 + c) true) s.mem.lostCh } }

/-! Failed members (R255 to R258) -/

/-- PAR is rebuilding the promoted stack. -/
def rebuilding (s : State) : Bool := getF s Reg.parStatus_state == 2

/-- The first failed member is lost where it is not rebuilt, and so is the whole of the second (R258). -/
def loseMember (s : State) (first second : Nat) : State :=
  let s' := setF { s with ras := { s.ras with lostMember := some first } } Reg.parStatus_state 5
  let s' := if first = second then { s' with ras := { s'.ras with promoted := false, rebuilt := [] } }
    else { s' with mem := { s'.mem with
      lostCh := (List.range 32).foldl (fun m c => nset false m (second * 32 + c) true) s'.mem.lostCh } }
  afterLoss s'

/-- A member stack is declared FAILED (R255, R257, R258). -/
def declareFailed (s : State) (st : Nat) : State :=
  if !s.mem.prot || !(members s).contains st || getF s Reg.smcStatus_state (placeOf s st) == 2 then s
  else
    let s := logRasStack (setF s Reg.smcStatus_state 2 (placeOf s st)) 7 st
    match s.ras.failedMember with
    | some f => if getF s Reg.parStatus_state = 5 then loseChannels s st (List.range 32) else loseMember s f st
    | none =>
      let s := { s with ras := { s.ras with failedMember := some st, promoted := false, rebuilt := [] } }
      if getF s Reg.parStatus_state = 1 ∧ getB s Reg.parCtl_auto_promote ∧ getF s Reg.smcStatus_state s.mem.spare = 3 then
        let s := { s with ras := { s.ras with promoted := true } }
        let s := setF (setF s Reg.parStatus_state 2) Reg.parStatus_rebuild_stack st
        let s := setF (setF s Reg.parRebuild_frames_done 0) Reg.smcStatus_state 1 s.mem.spare
        logRasStack s 8 st
      else setF s Reg.parStatus_state 4

/-- A stack or channel stops serving: a member FAILED in protected mode, lost memory in full-capacity mode (R225, R255, R256). -/
def stackGone (s : State) (st : Nat) (chs : List Nat) : State :=
  if s.mem.prot then declareFailed s st else loseChannels s st chs

/-- Rebuild pointer of a channel (R257). -/
def rebuildPtr (s : State) (ch : Nat) : Nat := ngetD 0 s.ras.rebuilt ch

/-- Frames of the promoted stack whose every unit has been written (PAR_REBUILD): frame p lies on the four channels of its engine
group, a quarter in each. -/
def framesDone (s : State) : Nat :=
  ((List.range 8).map (fun k => ((List.range 4).map (fun v => rebuildPtr s (4 * k + v) / 16384)).foldl min (chanBytes / 16384))).sum

end Sys2Proof.Machine
end

