-- ==== Sys2Proof/WellFormed.lean ====
section
/-!
DEFINITION. WellFormed.lean: a command that can be sent: every operand within the width that the spec gives its field. Numbers that
only name something of the model (a tile, a descriptor, a held packet) have no width.
-/
namespace Sys2Proof

/-- Placement attributes fit their fields (spec 10, R218). -/
def placeOk (p : Place) : Bool := decide (p.icls < 4) && decide (p.affStack < 16)

/-- A granule carries 64 bytes, or none while poisoned, and a 16-bit guard (spec 01, R14 to R16). -/
def granOkForm (g : Gran) : Bool := (g.data.length == 64 || (g.poison && g.data.length == 0)) && decide (g.guard < 65536)

/-- A list of granules. -/
def gransOk (l : List Gran) : Bool := l.all granOkForm

/-- Granules by number, in rising order. -/
def granMapOk (m : NMap Gran) : Bool := decide (NMap.sorted m) && m.all (fun e => granOkForm e.2)

/-- Lists of granules by number, in rising order. -/
def granListsOk (m : NMap (List Gran)) : Bool := decide (NMap.sorted m) && m.all (fun e => gransOk e.2)

/-- A packet's header fields fit the header of R302 (spec 14). -/
def pktOk (p : Pkt) : Bool :=
  decide (p.dst < 2 ^ 14) && decide (p.src < 2 ^ 14) && decide (p.job < 4096) && decide (p.tenant < 4096) && decide (p.ptype < 256)
    && decide (p.vc < 8) && decide (p.flow < 65536) && decide (p.seq < 65536) && decide (p.reqId < 2 ^ 24) && decide (p.length < 256)
    && decide (p.addr < 2 ^ 56) && decide (p.admClass < 4) && decide (p.fathom < 16) && decide (p.icls < 4) && decide (p.affStack < 16)
    && decide (p.keyTenant < 4096) && decide (p.hops < 256) && decide (p.status < 256) && decide (p.rsv < 2 ^ 13) && decide (p.hcrc < 65536)
    && decide (p.body < 2 ^ 256) && gransOk p.data

/-- A posted descriptor: a queue number and an image of at most 128 bytes (spec 03, R58, R59). -/
def opOk (o : OpCmd) : Bool := decide (o.queue < 65536) && decide (o.raw < 2 ^ 1024) && granMapOk o.remote

/-- A REVOKE's operands (spec 08, R189). -/
def revOk : RevCmd → Bool
  | .desc o => opOk o
  | .rcmd t tag a => decide (t < 4096) && decide (tag < 2 ^ 24) && decide (a < 2 ^ 64)

/-- A PCIe completion carries at most 4,096 bytes (spec 16, R334). -/
def cplOk : HostCpl → Bool
  | .data bs _ => decide (bs.length ≤ 4096)
  | .ur => true
  | .ca => true

/-- A flit of 64 bytes and its sideband fields (spec 13, R282). -/
def flitOk (x : Flit) : Bool := x.data.length == 64 && decide (x.guard < 65536) && decide (x.ty < 16) && decide (x.vc < 8)

/-- A frame of four flits and its control word (spec 13, R283). -/
def frameOk (f : Frame) : Bool :=
  f.flits.length == 4 && f.flits.all flitOk && decide (f.seq < 4096) && decide (f.ack < 4096) && decide (f.xoff < 32) && decide (f.crc < 2 ^ 32)

/-- What CONFIG exchanges (spec 13, R293, R294). -/
def cfgOk (c : CfgInfo) : Bool :=
  decide (c.node < 2 ^ 14) && decide (c.expected < 4096) && decide (c.nonce < 2 ^ 256) && decide (c.rxFail < 512) && decide (c.txFail < 512)

/-- What a start meets: verification steps 0 to 5, a mask of twelve stacks, diagnosis causes of a byte (spec 17 R366, spec 18 R378). -/
def startOk (e : StartEnv) : Bool :=
  decide (e.rot0 < 6) && decide (e.rot1 < 6) && decide (e.mgt0 < 6) && decide (e.mgt1 < 6) && decide (e.trainFail < 4096)
    && decide (e.diagA < 256) && decide (e.diagB < 256) && decide (e.straps < 4)
    && (match e.link with
        | some (sp, w, _) => decide (sp < 7) && decide (w < 17)
        | none => true)

/-- A host configuration within R334: 128, 256 or 512 bytes of payload, read requests of 128 to 4,096 bytes in powers of two. -/
def hostCfgOk (c : HostCfg) : Bool := [128, 256, 512].contains c.mps && [128, 256, 512, 1024, 2048, 4096].contains c.mrrs

/-- What a register write can meet. -/
def regEnvOk (e : RegEnv) : Bool := hostCfgOk e.host && placeOk e.place && decide (e.failed < 2 ^ 32) && granMapOk e.remote

/-- A utilisation sample: twelve stacks and twelve ports, each at most 65,536 (spec 15, R331). -/
def utilOk (u : UtilSample) : Bool :=
  u.mem.length == 12 && u.fab.length == 12 && u.grants.length == 12 && u.grants2.length == 12 && u.grants3.length == 12
    && u.mem.all (fun x => decide (x ≤ 65536)) && u.fab.all (fun x => decide (x ≤ 65536)) && decide (u.eng ≤ 65536)

/-- Symbols in error: 72 symbols, non-zero bytes, in rising order (spec 11, R235). -/
def errsOk (e : SymErr) : Bool := decide (NMap.sorted e) && e.all (fun x => decide (x.1 < 72) && decide (0 < x.2) && decide (x.2 < 256))

/-- A position that presents requests to a channel: a port of R222 that is neither unused nor a bridge port, or one of the stack's eight
engines (spec 10, R222, R226). -/
def posPresents (p : Nat) : Bool := (decide (p < 32) && !([7, 15, 17, 23, 31].contains p)) || (decide (32 ≤ p) && decide (p < 40))

/-- Requests at a channel scheduler: positions that present requests, addresses in the channel (spec 10, R215, R222, R226). -/
def reqsOk (l : List MemReq) : Bool :=
  l.all (fun r => posPresents r.pos && decide (r.z < 786432 * 4096) && r.write.all granOkForm
    && (r.block == [] || (r.block.length == 64 && gransOk r.block)))

/-- Well-formed commands. -/
def Instr.wellFormed : Instr → Bool
  | .deviceReset => true
  | .deviceStart env => startOk env
  | .pcieReset => true
  | .pcieLinkDown => true
  | .functionLevelReset fn => decide (fn < 66)
  | .vfDisable n => decide (n < 65)
  | .atsInvalidationRequest fn pasid page pages tag =>
    decide (fn < 66) && decide (pasid < 2 ^ 20) && decide (page < 2 ^ 52) && decide (pages < 2 ^ 52) && decide (tag < 32)
  | .pageRequestResponse index _ => decide (index < 512)
  | .priTimeout index => decide (index < 512)
  | .hostCompletion tag res remote => decide (tag < 2 ^ 14) && cplOk res && granMapOk remote
  | .hostCompletionTimeout tag => decide (tag < 2 ^ 14)
  | .registerWrite src env off size v => regEnvOk env && decide (off < 2 ^ 28 ∨ (src ≠ .pf0 ∧ off = 2 ^ 28)) && decide (size < 4097) && decide (v < 2 ^ 64)
  | .blockUnavailableTimeout off bytes _ => decide (off < 2 ^ 28) && decide (bytes < 4097)
  | .sqTail fn page idx value => decide (fn < 66) && decide (page < 1024) && decide (idx < 64) && decide (value < 2 ^ 32)
  | .cqHead fn page idx value => decide (fn < 66) && decide (page < 1024) && decide (idx < 64) && decide (value < 2 ^ 32)
  | .doorbellWriteDropped fn off bytes => decide (fn < 66) && decide (off < 2 ^ 22) && decide (bytes < 4097)
  | .readCtx queue => decide (queue < 65536)
  | .writeCtx queue => decide (queue < 65536)
  | .enable queue => decide (queue < 65536)
  | .disableDrain queue => decide (queue < 65536)
  | .disableAbort queue => decide (queue < 65536)
  | .clearPred queue => decide (queue < 65536)
  | .descriptorFetch hosts => granListsOk hosts
  | .predicateRelease _ => true
  | .waitSlotsCleared _ => true
  | .moderationTimerExpiry queue => decide (queue < 65536)
  | .copy2d o => opOk o
  | .fill o => opOk o
  | .gather o => opOk o
  | .scatterAdd o => opOk o
  | .embedBag o => opOk o
  | .reduce o => opOk o
  | .atomic o => opOk o
  | .quantize o => opOk o
  | .scrubRange o => opOk o.op && o.far.all (fun e => decide (e.1 < 2 ^ 50))
  | .attendDecode o => opOk o
  | .attendMerge o => opOk o
  | .topk o => opOk o
  | .moeDispatch o => opOk o
  | .expertFfn o => opOk o
  | .moeCombine o => opOk o
  | .publish o => opOk o
  | .publishComplete p => decide (p.region < 2 ^ 32) && p.bound.all (fun b => decide (b.1 < 2 ^ 32) && decide (b.2 < 2 ^ 14))
  | .revoke c => revOk c
  | .revokeDrainDone tenant pva => decide (tenant < 4096) && decide (pva < 2 ^ 52)
  | .revokeStragglerTimeout tenant pva => decide (tenant < 4096) && decide (pva < 2 ^ 52)
  | .waitListService => true
  | .tileDispatch _ remote => granMapOk remote
  | .tileStart e => decide (e.engine < 96) && granMapOk e.remote
  | .tileLoadData _ _ remote => granMapOk remote
  | .tileComputeDone _ _ c remote => decide (c.corrected < 2 ^ 16) && c.bad.all (fun a => decide (a < 2 ^ 46)) && granMapOk remote
  | .tileRetire _ _ remote => granMapOk remote
  | .partialStateCombine _ _ remote => granMapOk remote
  | .engineFault engine => decide (engine < 96)
  | .tileWatchdogExpiry _ _ => true
  | .spareActivated engine => decide (engine < 96)
  | .nmeRetire e => decide (e.engine < 128) && granMapOk e.remote
  | .nmeCommit => true
  | .dmaChannelSelect engine => decide (engine < 32)
  | .dmaPiece engine remote => decide (engine < 32) && granMapOk remote
  | .flushReadComplete tag => decide (tag < 2 ^ 14)
  | .dmaSuspendResume engine => decide (engine < 32)
  | .writeAcknowledge _ reqId => decide (reqId < 2 ^ 24)
  | .tenantCreate tenant _ _ => decide (tenant < 4096)
  | .keySlotLoaded tenant => decide (tenant < 4096)
  | .tenantRetire tenant => decide (tenant < 4096)
  | .tenantKeyDestroy tenant => decide (tenant < 4096)
  | .invalidateRange tenant tag addr count =>
    decide (tenant < 4096) && decide (tag < 2 ^ 24) && decide (addr < 2 ^ 64) && decide (count < 2 ^ 32)
  | .invalidateTenant tenant tag => decide (tenant < 4096) && decide (tag < 2 ^ 24)
  | .leaseNotice epoch _ n => decide (epoch < 2 ^ 32) && decide (n < 256)
  | .invalidationComplete tag => decide (tag < 2 ^ 24)
  | .tableSwap tenant tag ppa count => decide (tenant < 4096) && decide (tag < 2 ^ 24) && decide (ppa < 2 ^ 56) && decide (count < 2 ^ 32)
  | .resmapClear tag offset count => decide (tag < 2 ^ 24) && decide (offset < 2 ^ 42) && decide (count < 2 ^ 32)
  | .translationMiss tenant pva => decide (tenant < 4096) && decide (pva < 2 ^ 52)
  | .migEnClear => true
  | .dmaMigCmd ppa iova pasid index => decide (ppa < 2 ^ 56) && decide (iova < 2 ^ 64) && decide (pasid < 2 ^ 20) && decide (index < 4096)
  | .migrationDone engine _ _ => decide (engine < 32)
  | .dmaMigPop => true
  | .xtuMigDone index outcome => decide (index < 4096) && decide (outcome < 4)
  | .rdReq inPort p => decide (inPort < 14) && pktOk p
  | .wrReq inPort p => decide (inPort < 14) && pktOk p
  | .atomicReq inPort p => decide (inPort < 14) && pktOk p
  | .doorbellPacket inPort p => decide (inPort < 14) && pktOk p
  | .tileBatch inPort p remote => decide (inPort < 14) && pktOk p && granMapOk remote
  | .cmdFwd inPort p => decide (inPort < 14) && pktOk p
  | .setReq inPort p => decide (inPort < 14) && pktOk p
  | .setRsp inPort p => decide (inPort < 14) && pktOk p
  | .setWithdraw inPort p => decide (inPort < 14) && pktOk p
  | .withdrawAck inPort p => decide (inPort < 14) && pktOk p
  | .rdRsp inPort p => decide (inPort < 14) && pktOk p
  | .wrRsp inPort p => decide (inPort < 14) && pktOk p
  | .atomicRsp inPort r => decide (inPort < 14) && pktOk r.pkt && granMapOk r.remote
  | .batchRsp inPort r => decide (inPort < 14) && pktOk r.pkt && granMapOk r.remote
  | .cmdRsp inPort p => decide (inPort < 14) && pktOk p
  | .errRsp inPort p => decide (inPort < 14) && pktOk p
  | .cacheRelease inPort p => decide (inPort < 14) && pktOk p
  | .replayCacheExpiry tenant reqId => decide (tenant < 4096) && decide (reqId < 2 ^ 24)
  | .flowRelease flow => decide (flow < 65536)
  | .nieFlowOpen flow job srcNode => decide (flow < 65536) && decide (job < 4096) && decide (srcNode < 2 ^ 14)
  | .nieFlowClose flow job srcNode => decide (flow < 65536) && decide (job < 4096) && decide (srcNode < 2 ^ 14)
  | .jobBind job tenant ranks rankPpa =>
    decide (job < 4096) && decide (tenant < 4096) && decide (ranks < 16385) && decide (rankPpa < 2 ^ 56)
  | .completionTimeout dst tenant reqId => decide (dst < 2 ^ 14) && decide (tenant < 4096) && decide (reqId < 2 ^ 24)
  | .rdShared inPort p _ => decide (inPort < 14) && pktOk p
  | .rdOwn inPort p _ => decide (inPort < 14) && pktOk p
  | .upgrade inPort p _ => decide (inPort < 14) && pktOk p
  | .wbData inPort p => decide (inPort < 14) && pktOk p
  | .evictClean inPort p => decide (inPort < 14) && pktOk p
  | .snpRsp inPort p => decide (inPort < 14) && pktOk p
  | .compAck inPort p => decide (inPort < 14) && pktOk p
  | .holdExpiry line => decide (line < 2 ^ 36)
  | .snoopTimeout line agent => decide (line < 2 ^ 36) && decide (agent < 256)
  | .compAckTimeout line => decide (line < 2 ^ 36)
  | .binvRange ppa ells => decide (ppa < 2 ^ 56) && decide (ells < 2 ^ 32)
  | .agentRelease agent => decide (agent < 256)
  | .dirCommit => true
  | .packetHeaderArrival inPort p => decide (inPort < 14) && pktOk p
  | .headerHoldTimeout _ => true
  | .routeTableWrite _ dest entry => decide (dest < 2 ^ 14) && decide (entry < 2 ^ 32)
  | .epochFlip inPort p => decide (inPort < 14) && pktOk p
  | .epochRetire => true
  | .routerCommit => true
  | .frameTransmit port => decide (port < 12)
  | .frameReceive port fecCorr _ f => decide (port < 12) && decide (fecCorr < 2 ^ 32) && frameOk f
  | .replayReq port number => decide (port < 12) && decide (number < 4096)
  | .replayTimeout port => decide (port < 12)
  | .retrainReq port => decide (port < 12)
  | .rttProbe port stamp => decide (port < 12) && decide (stamp < 2 ^ 64)
  | .rttEcho port stamp => decide (port < 12) && decide (stamp < 2 ^ 64)
  | .rttProbeTimer port => decide (port < 12)
  | .lossOfSignal port lane => decide (port < 12) && decide (lane < 9)
  | .laneErrorLimit port lane => decide (port < 12) && decide (lane < 9)
  | .portEnable port => decide (port < 12)
  | .portDisable port => decide (port < 12)
  | .portRetrain port => decide (port < 12)
  | .detectSignal port => decide (port < 12)
  | .trainDone port _ => decide (port < 12)
  | .configDone port c => decide (port < 12) && cfgOk c
  | .retrainDone port c => decide (port < 12) && cfgOk c
  | .retrainTimeout port => decide (port < 12)
  | .autoUpTimer port => decide (port < 12)
  | .rekeyTimer port => decide (port < 12)
  | .linkRekey port tag => decide (port < 16) && decide (tag < 2 ^ 24)
  | .keyPhaseSwitch port => decide (port < 12)
  | .pairSet port tag => decide (port < 16) && decide (tag < 2 ^ 24)
  | .admRelease => true
  | .admRedecide => true
  | .admBktRead bucket => decide (bucket < 8192)
  | .admBktWrite bucket rate gust overhead target limit _ =>
    decide (bucket < 8192) && decide (rate < 2 ^ 24) && decide (gust < 2 ^ 20) && decide (overhead < 256) && decide (target < 65536) && decide (limit < 65536)
  | .fathomUpdate u => utilOk u
  | .channelGrant stack channel reqs errs => decide (stack < 12) && decide (channel < 32) && reqsOk reqs && errsOk errs.syms
  | .parityDelta _ => true
  | .refresh stack channel pseudo bank reqs =>
    decide (stack < 12) && decide (channel < 32) && decide (pseudo < 2) && decide (bank < 64) && reqsOk reqs
  | .channelRetrain stack channel temp _ => decide (stack < 12) && decide (channel < 32) && decide (temp < 1024)
  | .smcRetrainNow stack failed => decide (stack < 12) && decide (failed < 2 ^ 32)
  | .stackNoResponse stack => decide (stack < 12)
  | .rebuildUnit channel => decide (channel < 32)
  | .ueLimitExceeded stack => decide (stack < 12)
  | .parRetire stack => decide (stack < 16)
  | .mistralRead stack channel errs => decide (stack < 12) && decide (channel < 32) && errsOk errs
  | .rowRepair stack channel pseudo bank row _ =>
    decide (stack < 12) && decide (channel < 32) && decide (pseudo < 2) && decide (bank < 64) && decide (row < 2 ^ 15)
  | .smcLock => true
  | .smcCommit => true
  | .xbarCommit => true
  | .eraseRange tenant tag offset ells pl =>
    decide (tenant < 4096) && decide (tag < 2 ^ 24) && decide (offset < 2 ^ 42) && decide (ells < 2 ^ 32) && placeOk pl
  | .eraseComplete tag => decide (tag < 2 ^ 24)
  | .trngHealthFail => true
  | .identityReady => true
  | .debugGrant _ => true
  | .spdmGetVersion => true
  | .spdmGetCapabilities => true
  | .spdmNegotiateAlgorithms => true
  | .spdmGetMeasurements block nonce _ => decide (block < 256) && nonce.length == 32
  | .mctpMessage source _ _ => decide (source < 4)
  | .hifMbxSubmit bytes => decide (bytes.length ≤ 256)
  | .hifMbxPop => true
  | .mailboxTake => true
  | .pwrStatus source tag => decide (source < 4) && decide (tag < 65536)
  | .powerCap source tag => decide (source < 4) && decide (tag < 65536)
  | .domainPower source tag => decide (source < 4) && decide (tag < 65536)
  | .pointCeiling source tag => decide (source < 4) && decide (tag < 65536)
  | .thermalLimit source tag => decide (source < 4) && decide (tag < 65536)
  | .fwStage source tag _ fails _ => decide (source < 4) && decide (tag < 65536) && decide (fails < 6)
  | .fwActivate source tag cause => decide (source < 4) && decide (tag < 65536) && decide (cause < 9)
  | .handover source tag => decide (source < 4) && decide (tag < 65536)
  | .mgtStatus source tag => decide (source < 4) && decide (tag < 65536)
  | .cfgReport source tag => decide (source < 4) && decide (tag < 65536)
  | .fieldGet source tag => decide (source < 4) && decide (tag < 65536)
  | .fieldSet source tag => decide (source < 4) && decide (tag < 65536)
  | .imageWrite source tag _ _ => decide (source < 4) && decide (tag < 65536)
  | .recoveryWrite source tag => decide (source < 4) && decide (tag < 65536)
  | .attest source tag _ => decide (source < 4) && decide (tag < 65536)
  | .svnAdvance source tag => decide (source < 4) && decide (tag < 65536)
  | .pldm source tag => decide (source < 4) && decide (tag < 65536)
  | .cfgFeatCommit host => hostCfgOk host
  | .cfgRptRead => true
  | .claimRaise _ _ => true
  | .claimDrop _ _ => true
  | .heartbeat core => decide (core < 4)
  | .watchdogExpiry _ => true
  | .selfDiagPeriodic cause => decide (cause < 9)
  | .standbyTakeover _ cause => decide (cause < 9)
  | .pairBootDone _ cause => decide (cause < 9)
  | .mgtPairReset _ _ => true
  | .doldrumsAlert => true
  | .dvfsTarget _ point => decide (point < 8)
  | .dvfsStepDone => true
  | .avsTimeout _ => true
  | .powerLoop power icc => decide (power < 2 ^ 16) && decide (icc < 2 ^ 16)
  | .thermalLoop temp _ => decide (temp < 256)
  | .fastCurrentLimit => true
  | .hwThermalThrottle => true
  | .thermtrip => true
  | .pdSwitch _ domain _ => decide (domain < 128)
  | .telCommit => true
  | .telCntClear n => decide (n < 4096)
  | .telDumpEnable => true
  | .telDumpPeriod _ _ => true
  | .telSampCtlWrite _ k filter log2 => decide (k < 32) && decide (filter < 16) && decide (log2 < 16)
  | .pcieLinkUp speed width link => decide (speed < 7) && decide (width < 17) && hostCfgOk link.host
  | .hwThermalThrottleRelease => true
  | .trngHealthPass => true
  | .atsTranslationCompletion fn pasid page _ _ priMax =>
    decide (fn < 66) && decide (pasid < 2 ^ 20) && decide (page < 2 ^ 52) && decide (priMax < 513)
  | .vfEnable n => decide (n < 65)
  | .d3hotTransition fn _ => decide (fn < 66)
  | .replayReqResendTimeout port => decide (port < 12)
  | .openMaxExpiry stack channel pseudo bank => decide (stack < 12) && decide (channel < 32) && decide (pseudo < 2) && decide (bank < 64)
  | .zmapReady => true
  | .pdSwitchDone => true

end Sys2Proof
end

