-- ==== Sys2Proof/Machine/MemSys.lean ====
section
/-!
DEFINITION. Machine/MemSys.lean: the channel schedulers, refresh, retraining, the layout lock and the commits of SMC and XBAR
(spec 10).
-/
namespace Sys2Proof.Machine
open Sys2Proof

/-! Channel schedulers (R220 to R228) -/

/-- The port of an arbiter position: its XBAR port's target in nanoseconds, or SMC_ENG_LAT's from position 32 on (R221, R226). -/
def posTarget (s : State) (pos : Nat) : Nat :=
  10 * max 1 (if pos < 32 then getF s Reg.xbarPortCfg_lat_target pos else getF s Reg.smcEngLat_lat_target)

/-- The rank of an arbiter position (R223). -/
def posRank (s : State) (pos : Nat) : Nat := if pos < 32 then getF s Reg.xbarPortCfg_rank pos else getF s Reg.smcEngLat_rank

/-- The urgency step of an age against a target, the age at a resolution of 10 ns (R221, R223). -/
def urgency (age target : Nat) : Nat :=
  let a := age / 10 * 10
  if target ≤ a then 3 else if 3 * target ≤ 4 * a then 2 else if target ≤ 2 * a then 1 else 0

/-- The key of a channel's bank: channel × 128 + pseudo-channel × 64 + bank. -/
def bankKey (p : Nat) : Nat := chanOf p * 128 + (rowOf p).1 * 64 + (rowOf p).2.1

/-- The request's row is open. -/
def rowOpen (s : State) (p : Nat) : Bool := (nfind s.smc.openRow (bankKey p)).map (·.1) == some (rowOf p).2.2

/-- The oldest of some requests, the first on a tie. -/
def oldest (l : List MemReq) : Option MemReq :=
  l.foldl (fun b r => match b with
    | none => some r
    | some x => if x.ageNs < r.ageNs then some r else b) none

/-- What a port offers in a cycle (R223): its oldest request from U2 on, below it the oldest one to an open row if there is one. -/
def offer (s : State) (ch : Nat) (l : List MemReq) : Option MemReq :=
  match oldest l with
  | none => none
  | some o =>
    if 2 ≤ urgency o.ageNs (posTarget s o.pos) then some o
    else (oldest (l.filter (fun r => rowOpen s (ch * chanBytes + r.z)))).orElse (fun _ => some o)

/-- The rank that a request takes part with: the higher of its port's rank and its step (R223). -/
def effRank (s : State) (r : MemReq) : Nat := max (posRank s r.pos) (urgency r.ageNs (posTarget s r.pos))

/-- The page hint that a request carries by its issuing unit (R220): DMA pieces OPEN; XTU table reads and DIR accesses CLOSE; of an
engine, HIF or the fabric as the request says (an anchor load, 1 KiB or more: OPEN), and so of a unit that R220 does not name. -/
def pageHint (r : MemReq) : Bool :=
  if r.pos = 2 ∨ r.pos = 18 then true else if r.pos = 4 ∨ r.pos = 20 ∨ r.pos = 5 ∨ r.pos = 21 then false else r.openHint

/-- A request moves data from west to east over the bridge, from east to west, or does not cross it: a west port and an east stack, or the
reverse; a promoted spare counts where it stands (R219, R222, R255). 0 is west to east. -/
def crossing (s : State) (st : Nat) (r : MemReq) : Option Nat :=
  if 32 ≤ r.pos then none
  else
    let portWest := decide (r.pos < 16)
    if portWest = decide (placeOf s st < 6) then none
    else if (r.write.isSome || r.block ≠ []) = portWest then some 0 else some 1

/-- Bytes of a request that crosses the bridge (R219). -/
def countBridge (s : State) (st : Nat) (r : MemReq) : State :=
  let n := if r.block = [] then 64 else 4096
  match crossing s st r with
  | none => s
  | some 0 => bump s Reg.xbarBridgeWeBytes_count n
  | some _ => bump s Reg.xbarBridgeEwBytes_count n

/-- One cycle of a bridge port: among the crossing offers of a direction the shared arbiter lets one through at its effective rank; the others
wait, which BRIDGE_STALL counts (R219, R226; one transfer in the cycle is a DESIGN CHOICE, log 51). -/
def bridgeDir (s : State) (st dir : Nat) (l : List MemReq) : List MemReq × State :=
  let mine := l.filter (fun r => crossing s st r == some dir)
  if mine = [] then (l, s)
  else
    let a := arbPick 64 (arbN s Reg.xbarArbCtl_n_xbar) (ngetD arb0 s.smc.xbar dir) (mine.map (fun r => (r.pos, effRank s r)))
    let s1 := { s with smc := { s.smc with xbar := nput s.smc.xbar dir a.2 } }
    (l.filter (fun r => !(crossing s st r == some dir) || a.1 == some r.pos),
      if mine.length = 1 then s1 else bump s1 Reg.xbarBridgeStall_count)

/-- Both directions of the bridge. -/
def bridge (s : State) (st : Nat) (l : List MemReq) : List MemReq × State :=
  let a := bridgeDir s st 0 l
  bridgeDir a.2 st 1 a.1

/-- A request that comes over the XBAR takes the link into its stack (R226). -/
def takeLink (s : State) (st : Nat) (r : MemReq) : State :=
  if 32 ≤ r.pos then s
  else { s with smc := { s.smc with
    xbar := nput s.smc.xbar (2 + st) (arbOne (arbN s Reg.xbarArbCtl_n_xbar) (ngetD arb0 s.smc.xbar (2 + st)) r.pos) } }

/-- The last acknowledgement of a channel. -/
def ackOut (s : State) (ch : Nat) (a : MemAck) : State := { s with smc := { s.smc with out := nput s.smc.out ch a } }

/-- The status with which a granule that was read goes on (R15, R16). -/
def granSt (g : Gran) : Status := if g.poison then .poisoned else if granOk g then .done else .guardMismatch

/-- The row of a request's bank after the access: it stays open under the OPEN hint or a forced one; a read that the zero map answers
activates none (R220, R231). -/
def accessRow (s : State) (st p : Nat) (r : MemReq) : State :=
  if r.write.isNone && r.block == [] && zbit s (p / 4096) then s
  else
    let ov := getF s Reg.smcCtl_page_override st
    let stays := if ov = 1 then true else if ov = 2 then false else pageHint r
    let rows := if stays then nput s.smc.openRow (bankKey p) ((rowOf p).2.2, s.nowNs) else ndel s.smc.openRow (bankKey p)
    { s with smc := { s.smc with openRow := rows } }

/-- A stored write is acknowledged, in protected mode by its delta (R253); lost memory discards it and it ends POISONED (R256). -/
def ackWrite (s : State) (ch p ackId : Nat) : State :=
  if isLost s p then ackOut s ch ⟨ackId, [], .poisoned⟩
  else if s.mem.prot then { s with mem := { s.mem with deltas := s.mem.deltas ++ [⟨p / 64, ackId⟩] } }
  else ackOut s ch ⟨ackId, [], .done⟩

/-- Carry out a granted request. A granule whose guard fails goes no further: it is neither stored nor returned (R15). -/
def grantReq (s : State) (ch : Nat) (r : MemReq) (errs : SymErr) : State :=
  let st := ch / 32
  let p := ch * chanBytes + r.z % chanBytes / 64 * 64
  let u := urgency r.ageNs (posTarget s r.pos)
  let s := if u = 3 then bump s Reg.smcUrg3_count 1 st else s
  let s := takeLink (accessRow s st p r) st r
  let s := countBridge (attribOwn s (if r.pos < 32 then 7 else 3)) st r
  let key := (r.keySlot.map (dataKey s)).getD none
  match r.write with
  | some g =>
    if !granOk g then ackOut s ch ⟨r.ackId, [], .guardMismatch⟩
    else ackWrite (memStore s p r.ppa g key) ch p r.ackId
  | none =>
    if r.block ≠ [] then
      if !r.block.all granOk then ackOut s ch ⟨r.ackId, [], .guardMismatch⟩
      else
        let was := zbit s (p / 4096)
        let s := memStoreBlock s (p / 4096 * 4096) (r.ppa / 4096 * 4096) r.block key
        -- an elided write touches no stored codeword and sends no delta (R253)
        if zbit s (p / 4096) && (was || allZero r.block) then ackOut s ch ⟨r.ackId, [], .done⟩
        else ackWrite s ch p r.ackId
    else
      let x := memReadX s p r.ppa key errs
      ackOut x.2 ch ⟨r.ackId, if granSt x.1 = .guardMismatch then [] else [x.1], granSt x.1⟩

/-- A channel is in service. -/
def chanOnline (s : State) (st ch : Nat) : Bool := bitOf (getF s Reg.smcChOnline_mask st) ch

/-- CHANNEL_GRANT (R219 to R233, R249, R253): one cycle of a channel's scheduler: each port offers one request, the bridge lets those of the
other die through, the arbiter decides, and the winner's transfer is carried out. A port that R222 leaves unused presents nothing.
`errs.syms` are errors of the first read alone; `errs.line` is an uncorrectable error in the line of a zero-map slice that the winner's
block needs (R233). -/
def execChannelGrant (stack channel : Nat) (reqs : List MemReq) (errs : GrantErrs) (s : State) : Out :=
  let st := stack % 12
  let ch := st * 32 + channel % 32
  let reqs := reqs.filter (fun r => posPresents r.pos)
  if !chanOnline s st (channel % 32) then .next s
  else
    let b := bridge s st ((List.range 64).filterMap (fun i => offer s ch (reqs.filter (fun r => r.pos == i))))
    let offers := b.1
    let s := b.2
    let a := arbPick 64 (arbN s Reg.xbarArbCtl_n_smc) (ngetD arb0 s.smc.arbs ch) (offers.map (fun r => (r.pos, effRank s r)))
    let s := { s with smc := { s.smc with arbs := nset arb0 s.smc.arbs ch a.2 } }
    match offers.find? (fun r => a.1 == some r.pos) with
    | none => .next s
    | some r =>
      let s := if errs.line then zLineError s ((ch * chanBytes + r.z % chanBytes) / 4096) else s
      .next (grantReq s ch r errs.syms)

/-- PARITY_DELTA (R253): the parity channel applies the oldest delta of a granule's write, and its acknowledgement goes out. -/
def execParityDelta (gran : Nat) (s : State) : Out :=
  match s.mem.deltas.find? (fun d => d.gran == gran) with
  | none => .next s
  | some d => .next { s with
      mem := { s.mem with deltas := s.mem.deltas.erase d }
      smc := { s.smc with out := nput s.smc.out (chanOf (gran * 64)) ⟨d.ackId, [], .done⟩ } }

/-! Rows and refresh -/

/-- OPEN_MAX_EXPIRY (R220): a row held open is closed when open_max has gone by. -/
def execOpenMaxExpiry (stack channel pseudo bank : Nat) (s : State) : Out :=
  let st := stack % 12
  let k := (st * 32 + channel % 32) * 128 + pseudo % 2 * 64 + bank % 64
  match nfind s.smc.openRow k with
  | none => .next s
  | some r => .next { advance s (r.2 + 10 * max 1 (getF s Reg.smcCtl_open_max st)) with smc := { s.smc with openRow := ndel s.smc.openRow k } }

/-- The average refresh interval: 3.9 µs, half of it above 85 °C; SMC_s_TEMP counts quarter degrees above −40 °C (R224). -/
def refreshNs (s : State) (st : Nat) : Nat := if 500 < getF s Reg.smcTemp_temp st then 1950 else 3900

/-- REFRESH (R224): a bank's refresh falls due, an average interval after its last one. `reqs` are the requests that wait at the channel:
while one of U2 or U3 waits for the bank the refresh is postponed, up to postpone_max times; otherwise it issues ahead of them and closes
the bank's row. A bank for which nothing waits repays what it owes. -/
def execRefresh (stack channel pseudo bank : Nat) (reqs : List MemReq) (s : State) : Out :=
  let st := stack % 12
  let ch := st * 32 + channel % 32
  let k := ch * 128 + pseudo % 2 * 64 + bank % 64
  let mine := reqs.filter (fun r => posPresents r.pos && bankKey (ch * chanBytes + r.z % chanBytes) == k)
  let urgent := mine.any (fun r => decide (2 ≤ urgency r.ageNs (posTarget s r.pos)))
  let owed := ngetD 0 s.smc.owed k
  let s := match nfind s.smc.lastRefresh k with
    | some t => advance s (t + refreshNs s st)
    | none => s
  let s := { s with smc := { s.smc with lastRefresh := nput s.smc.lastRefresh k s.nowNs } }
  if urgent && decide (owed < min 8 (getF s Reg.smcCtl_postpone_max st)) then
    .next (telEvent { s with smc := { s.smc with owed := nset 0 s.smc.owed k (owed + 1) } } 0x15 st 1)
  else .next { s with smc := { s.smc with
      openRow := ndel s.smc.openRow k
      owed := if mine = [] then nset 0 s.smc.owed k 0 else s.smc.owed } }

/-! Retraining (R225) -/

/-- A channel is removed from service (R225). -/
def removeChannel (s : State) (st ch : Nat) : State :=
  let s := setF s Reg.smcChOnline_mask (putBits (getF s Reg.smcChOnline_mask st) ch 1 0) st
  let s := setF s Reg.smcStatus_channels (getF s Reg.smcStatus_channels st - 1) st
  let s := logErr s ringRas 6 ⟨none, 0, st + 16 * ch, 0, 0⟩
  stackGone s st [ch]

/-- A channel retrains once: success clears its failures, the third failure in succession removes it (R225). -/
def retrainChannel (s : State) (st ch : Nat) (ok : Bool) : State :=
  let k := st * 32 + ch
  if !chanOnline s st ch then s
  else
    let s := { s with smc := { s.smc with trainTemp := nset 0 s.smc.trainTemp k (getF s Reg.smcTemp_temp st), trainAt := nput s.smc.trainAt k s.nowNs } }
    if ok then { s with smc := { s.smc with trainFails := nset 0 s.smc.trainFails k 0 } }
    else
      let f := ngetD 0 s.smc.trainFails k + 1
      if f < 3 then { s with smc := { s.smc with trainFails := nset 0 s.smc.trainFails k f } }
      else removeChannel { s with smc := { s.smc with trainFails := nset 0 s.smc.trainFails k 0 } } st ch

/-- The temperature has moved by more than 10 °C since a channel's last training (R225); SMC_s_TEMP counts quarter degrees. -/
def tempMoved (s : State) (st ch : Nat) : Bool :=
  let t := ngetD 0 s.smc.trainTemp (st * 32 + ch)
  let n := getF s Reg.smcTemp_temp st
  decide (t + 40 < n) || decide (n + 40 < t)

/-- CHANNEL_RETRAIN (R225): the stack's temperature reads `temp`. A channel retrains at once where that has moved by more than 10 °C since its
last training or its last training failed, and otherwise when period_ms has gone by since the last one. -/
def execChannelRetrain (stack channel temp : Nat) (ok : Bool) (s : State) : Out :=
  let st := stack % 12
  let c := channel % 32
  let s := setF s Reg.smcTemp_temp temp st
  let again := tempMoved s st c || ngetD 0 s.smc.trainFails (st * 32 + c) ≠ 0
  let s := if again then s
    else advance s (ngetD s.dev.t0 s.smc.trainAt (st * 32 + c) + clamp 10 1000 (getF s Reg.smcTrain_period_ms st) * 1000000)
  .next (retrainChannel s st c ok)

/-- A retraining pass of every channel of a stack; `failed` has a bit for each channel that fails. -/
def retrainPass (s : State) (st failed : Nat) : State :=
  let s := (List.range 32).foldl (fun s c => retrainChannel s st c (!bitOf failed c)) (setB s Reg.smcTrain_retrain_now true st)
  setB s Reg.smcTrain_retrain_now false st

/-- SMC_RETRAIN_NOW (R225): SMC_s_TRAIN.retrain_now starts a pass of every channel and clears when the pass ends. -/
def execSmcRetrainNow (stack failed : Nat) (s : State) : Out := .next (retrainPass s (stack % 12) failed)

/-- STACK_NO_RESPONSE (R255, R256): a stack that has not answered for 10 µs is FAILED, or all its channels are lost. -/
def execStackNoResponse (stack : Nat) (s : State) : Out :=
  let st := stack % 12
  if s.mem.prot then .next (stackGone s st [])
  else if getF s Reg.smcStatus_state st = 2 then .next s
  else .next (stackGone (logRasStack (setF s Reg.smcStatus_state 2 st) 7 st) st (List.range 32))

/-! The layout lock and the zero map (R212, R230, R254) -/

/-- Setting SMC_LOCK.locked: bits of non-member stacks leave the masks, an empty mask becomes every member, and SMC_RSV takes its
clamped value (R211, R212). -/
def lockLayout (s : State) : State :=
  if getB s Reg.smcLock_locked then s
  else
    let all := (members s).foldl (fun m k => m + 2 ^ k) 0
    let s := (List.range 4).foldl (fun s n =>
      let m := (members s).foldl (fun m k => m + (if bitOf (getF s Reg.smcProf_stack_mask n) k then 2 ^ k else 0)) 0
      setF s Reg.smcProf_stack_mask (if m = 0 then all else m) n) s
    setB (setF s Reg.smcRsv_frames (rsvFrames s)) Reg.smcLock_locked true

/-- SMC_LOCK (R212). -/
def execSmcLock (s : State) : Out := .next (lockLayout s)

/-- The zero map is ready (R230, R254): memory reads as zero and requests that waited go on. -/
def zmapReady (s : State) : State :=
  if !getB s Reg.smcLock_locked || getB s Reg.smcLock_zmap_ready then s
  else
    let s := setB (zeroMemory s) Reg.smcLock_zmap_ready true
    resumeHeld s (fun w => w == .zmap)

/-- ZMAP_READY (R230, R254). -/
def execZmapReady (s : State) : Out := .next (zmapReady s)

/-! Commits (R5, R229) -/

/-- SMC_COMMIT: every pending field of SMC takes effect. -/
def commitSmc (s : State) : State := commitTable s Reg.tableSmc

/-- SMC_COMMIT (R229). -/
def execSmcCommit (s : State) : Out := .next (commitSmc s)

/-- XBAR_COMMIT: every pending field of XBAR takes effect; a new N resets the grant counters of its instances (R229). -/
def commitXbar (s0 : State) : State :=
  let s := commitTable s0 Reg.tableXbar
  let ch := fun (f : Fld) => arbN s0 f ≠ arbN s f
  let s := if ch Reg.xbarArbCtl_n_xbar then { s with smc := { s.smc with xbar := zeroCnts s.smc.xbar } } else s
  let s := if ch Reg.xbarArbCtl_n_home then { s with
      smc := { s.smc with granArb := { s.smc.granArb with cnt := 0 } }, xtu := { s.xtu with pubArbs := zeroCnts s.xtu.pubArbs } } else s
  let s := if ch Reg.xbarArbCtl_n_smc then { s with smc := { s.smc with arbs := zeroCnts s.smc.arbs } } else s
  let s := if ch Reg.xbarArbCtl_n_qmg then { s with qmg := { s.qmg with arb := { s.qmg.arb with cnt := 0 } } } else s
  let s := if ch Reg.xbarArbCtl_n_nme then { s with nme := { s.nme with arbs := zeroCnts s.nme.arbs } } else s
  let s := if ch Reg.xbarArbCtl_n_dma then { s with dma := { s.dma with arbs := zeroCnts s.dma.arbs } } else s
  if ch Reg.xbarArbCtl_n_adm then { s with adm := { s.adm with arb := { s.adm.arb with cnt := 0 } } } else s

/-- XBAR_COMMIT (R229). -/
def execXbarCommit (s : State) : Out := .next (commitXbar s)

end Sys2Proof.Machine
end

