-- ==== Sys2Proof/Machine/Router.lean ====
section
/-!
DEFINITION. Machine/Router.lean: the ROUTER: header checks, routing by epoch, channel allocation, flow-control bits, and the table
commands (spec 13 R289, spec 14 R303 to R312).
-/
namespace Sys2Proof.Machine
open Sys2Proof

/-! Ports -/

/-- Change the link of port p. -/
def modPort (s : State) (p : Nat) (f : PortState → PortState) : State := { s with ports := nset port0 s.ports p (f (portAt s p)) }

/-- FPT_p_STATUS.state. -/
def portState (s : State) (p : Nat) : Nat := getF s Reg.fptStatus_state p

/-- Packets in the output queue of a port and channel. -/
def outAt (s : State) (k : Nat) : List RtrPkt := ngetD [] s.rtr.outq k

/-- Set an input region. -/
def setIn (s : State) (k : Nat) (l : List RtrPkt) : State := { s with rtr := { s.rtr with inq := nset [] s.rtr.inq k l } }

/-- Set an output queue. -/
def setOut (s : State) (k : Nat) (l : List RtrPkt) : State := { s with rtr := { s.rtr with outq := nset [] s.rtr.outq k l } }

/-- The register FPT_p_VC_n: region, xoff_at and xon_at; VZ has its own (R289). -/
def vcRegion (s : State) (p vc : Nat) : Nat × Nat × Nat :=
  if vc = 0 then (getF s Reg.fptVc0_region p, getF s Reg.fptVc0_xoff_at p, getF s Reg.fptVc0_xon_at p)
  else if vc = 1 then (getF s Reg.fptVc1_region p, getF s Reg.fptVc1_xoff_at p, getF s Reg.fptVc1_xon_at p)
  else if vc = 2 then (getF s Reg.fptVc2_region p, getF s Reg.fptVc2_xoff_at p, getF s Reg.fptVc2_xon_at p)
  else if vc = 3 then (getF s Reg.fptVc3_region p, getF s Reg.fptVc3_xoff_at p, getF s Reg.fptVc3_xon_at p)
  else (256, 8, 4)

/-- The xoff bits a port sends, as its regions now stand (R289). -/
def updXoff (s : State) (p : Nat) : State :=
  if 12 ≤ p then s
  else
    let bits := (List.range 5).foldl (fun b vc =>
      let n := heldFlits s p vc
      let r := vcRegion s p vc
      if r.2.1 ≤ n then putBits b vc 1 1 else if n ≤ r.2.2 then putBits b vc 1 0 else b) (portAt s p).xoffOut
    modPort s p (fun q => { q with xoffOut := bits })

/-! Header checks (R303, R304) -/

/-- Channel, least and most DATA flits, and SR2-only mark of a packet type; none for a reserved one (R304, R264, R265). -/
def pktShape (t : Nat) : Option PktRow :=
  if 0x40 ≤ t ∧ t ≤ 0x42 then some ⟨t, 0, 1, 1, false⟩
  else if t = 0x43 ∨ t = 0x47 ∨ t = 0x4C then some ⟨t, 2, 2, 2, false⟩
  else if t = 0x45 then some ⟨t, 2, 1, 2, false⟩
  else if 0x40 ≤ t ∧ t ≤ 0x4F then some ⟨t, 2, 1, 1, false⟩
  else pktTable.find? (fun r => r.ptype == t)

/-- A header passes its own checks at a port (R303, R304). -/
def headerOk (s : State) (port : Nat) (p : Pkt) : Bool :=
  p.hcrc == hcrcOf p && p.rsv == 0 && decide (p.length ≤ 128) &&
    (match pktShape p.ptype with
     | none => false
     | some r => (p.vc == r.vc || (r.vc == 0 && p.vc == 3)) && decide (r.lo ≤ p.length) && decide (p.length ≤ r.hi)
         && (!r.sr2 || fromSr2 s port))

/-! Routing (R306 to R308) -/

/-- State of the table half that an epoch bit names: 0 IDLE, 1 ACTIVE, 2 RETIRING (R310). -/
def halfState (s : State) (b : Bool) : Nat := if b then getF s Reg.routerEpoch_half1 else getF s Reg.routerEpoch_half0

/-- The internal port of the die that holds a packet's target: the stack of a PPA, else the west one (R305). -/
def localPort (s : State) (p : Pkt) : Nat :=
  if p.isPpa && ownerOf p.addr == s.dev.node then
    match locate s ⟨p.icls, p.affEn, p.affStack⟩ (localOf p.addr) with
    | some x => if 6 ≤ stackOf x then 13 else 12
    | none => 12
  else 12

/-- The output port of a packet, none for discard (R308). A request from a peer that is no SR2 goes to this node, its entry node (R18,
R314). -/
def routeOf (s : State) (port : Nat) (p : Pkt) : Option Nat :=
  if !fromSr2 s port && (p.vc == 0 || p.vc == 3) then some (localPort s p)
  else
    let e := ngetD 0 (if p.epoch then s.rtr.half1 else s.rtr.half0) p.dst
    let o := if p.vc = 0 ∨ p.vc = 3 then e % 16 else bitsOf e 4 4
    if !bitOf e 8 then none
    else if o = 14 then some (localPort s p)
    else if 12 ≤ o then none
    else if portState s o = 6 ∨ portState s o = 0 then none
    else some o

/-- The channel on which a packet leaves: VC3 returns to VC0 when the dimension changes, and VC0 moves to VC3 across a dateline
(R306, R307). -/
def outVc (s : State) (port out vc : Nat) : Nat :=
  if 12 ≤ out then vc
  else
    let v := if vc = 3 ∧ port < 12 ∧ getF s Reg.routerPCfg_dim out ≠ getF s Reg.routerPCfg_dim port then 0 else vc
    if v = 0 ∧ getB s Reg.routerPCfg_dateline out then 3 else v

/-! Allocation (R305) -/

/-- The packets that want each output channel: the head of each input channel that is routed. -/
def routedHeads (s : State) : List (Nat × RtrPkt) :=
  s.rtr.inq.filterMap (fun e => match e.2 with
    | r :: _ => if r.out.isSome then some (e.1, r) else none
    | [] => none)

/-- Move the head of an input channel to its output queue; its header takes the new channel (R303, R306). -/
def passHead (s : State) (k key : Nat) : State :=
  match inAt s k with
  | [] => s
  | r :: rest =>
    let pkt := if r.pkt.vc = key % 8 then r.pkt else sealHdr { r.pkt with vc := key % 8 }
    let s := setOut (setIn s k rest) key (outAt s key ++ [{ r with pkt := pkt }])
    let s := if 96 ≤ key then bump s Reg.routerPFlits_count (1 + pkt.data.length) (key / 8) else s
    updXoff s (k / 8)

/-- One allocation of an output channel among the packets that want it, every input port at rank 1. -/
def allocate (s : State) (key : Nat) : State :=
  let cands := (routedHeads s).filter (fun x => x.2.out == some key)
  let ins := dedupSort (cands.map (fun x => x.1 / 8))
  let r := arbPick 64 (arbN s Reg.routerCtl_arb_n) (ngetD arb0 s.rtr.chanArbs key) (ins.map (fun i => (i, 1)))
  match r.1.bind (fun w => cands.find? (fun x => x.1 / 8 == w)) with
  | none => s
  | some x => passHead { s with rtr := { s.rtr with chanArbs := nset arb0 s.rtr.chanArbs key r.2 } } x.1 key

/-- Output channels that are free and wanted; the internal ports take every packet. -/
def freeWanted (s : State) : List Nat :=
  (dedupSort ((routedHeads s).filterMap (fun x => x.2.out))).filter (fun k => decide (96 ≤ k) || (outAt s k).isEmpty)

/-- Allocate until no free channel is wanted. -/
def allocAll : Nat → State → State
  | 0, s => s
  | n + 1, s =>
    match freeWanted s with
    | [] => s
    | ks => allocAll n (ks.foldl allocate s)

/-- Let waiting packets go on. -/
def routerSettle (s : State) : State := allocAll 1024 s

/-! Discarding -/

/-- Take a packet out of the router. Flits of it that arrive later find nothing to join. -/
def removePkt (s : State) (id : Nat) : State :=
  let cut := fun (m : NMap (List RtrPkt)) =>
    m.foldl (fun l e => nset [] l e.1 (e.2.filter (fun r => r.id ≠ id))) []
  { s with rtr := { s.rtr with inq := cut s.rtr.inq, outq := cut s.rtr.outq } }

/-- Discard a packet whole and count it at the port it came in by (R303, R308, R309). -/
def dropPkt (s : State) (r : RtrPkt) : State :=
  let s := bump (removePkt s r.id) Reg.routerPDrop_count 1 r.inPort
  routerSettle (updXoff s r.inPort)

/-- The packet by its number. -/
def rtrPkt (s : State) (id : Nat) : Option RtrPkt :=
  ((s.rtr.inq.flatMap (·.2)) ++ (s.rtr.outq.flatMap (·.2))).find? (fun r => r.id == id)

/-- Change a packet by its number. -/
def modPkt (s : State) (id : Nat) (f : RtrPkt → RtrPkt) : State :=
  let go := fun (m : NMap (List RtrPkt)) => m.map (fun e => (e.1, e.2.map (fun r => if r.id = id then f r else r)))
  { s with rtr := { s.rtr with inq := go s.rtr.inq, outq := go s.rtr.outq } }

/-! PACKET_HEADER_ARRIVAL -/

/-- The header's own part of a packet. -/
def sameHeader (a b : Pkt) : Bool := a.hcrc == b.hcrc && hdrBytes a == hdrBytes b && a.body == b.body

/-- A packet enters an input region. -/
def enterPkt (s : State) (port : Nat) (p : Pkt) : Nat × State :=
  let id := s.rtr.nextId
  let k := port * 8 + p.vc
  let r : RtrPkt := ⟨id, p, none, 0, port, false, s.nowNs, 0⟩
  let s := { s with rtr := { s.rtr with nextId := id + 1 } }
  (id, updXoff (setIn s k (inAt s k ++ [r])) port)

/-- The entry steps of a response, coherence message or Zephyr message that a peer sends: from one that is no SR2 a false src_node is
counted in NIE_SPOOF (R315), the rank becomes a node (R314) and the job is checked (R28). A packet that fails is discarded unanswered:
ERR_RSP answers requests (R445; DEDUCED, log 118). Requests take these steps in the NIE. -/
def edgePkt (s : State) (port : Nat) (p : Pkt) : Option Pkt × State :=
  if fromSr2 s port || p.vc == 0 || p.vc == 3 then (some p, s)
  else if p.src ≠ getF s Reg.fptPeer_node port then (none, bump s Reg.nieSpoof_count)
  else
    let q := entryJob s port p
    match q.1 with
    | .inl p2 => (some p2, q.2)
    | .inr _ => (none, q.2)

/-- The checked packet is routed and asks for its output channel (R305 to R309). -/
def routePkt (s : State) (r : RtrPkt) : State :=
  let p := r.pkt
  if !headerOk s r.inPort p then dropPkt s r
  else if halfState s p.epoch = 0 then
    routerSettle (updXoff (bump (removePkt s r.id) Reg.routerStale_count) r.inPort)
  else
    let p := if r.inPort < 12 then sealHdr { p with hops := min 255 (p.hops + 1) } else p
    let lim := getF s Reg.routerCtl_hop_limit
    if r.inPort < 12 ∧ lim ≠ 0 ∧ lim < p.hops then dropPkt s r
    else
      let e := edgePkt s r.inPort p
      match e.1 with
      | none => routerSettle (updXoff (removePkt e.2 r.id) r.inPort)
      | some p =>
        match routeOf e.2 r.inPort p with
        | none => dropPkt e.2 r
        | some o =>
          let key := o * 8 + outVc e.2 r.inPort o p.vc
          routerSettle (modPkt e.2 r.id (fun x => { x with pkt := { p with data := x.pkt.data }, out := some key }))

/-- PACKET_HEADER_ARRIVAL (R303 to R309). Ports 0 to 11: the header of a packet that a frame brought in, or a packet that arrives with
this command. Ports 12 and 13: a packet of this node's own that waits there. -/
def execPacketHeaderArrival (inPort : Nat) (p : Pkt) (s : State) : Out :=
  let waits := (s.rtr.inq.filter (fun e => e.1 / 8 == inPort)).flatMap (·.2)
  match waits.find? (fun r => r.out.isNone && sameHeader r.pkt p) with
  | some r => .next (routePkt s r)
  | none =>
    if 12 ≤ inPort ∨ portState s inPort ≠ 4 ∨ 5 ≤ p.vc then .next s
    else
      let e := enterPkt s inPort p
      match rtrPkt e.2 e.1 with
      | some r => .next (routePkt e.2 r)
      | none => .next e.2

/-! HEADER_HOLD_TIMEOUT -/

/-- Time a packet's output port has been in RETRAIN while it waited, at most 2,000 µs (R309). -/
def retrainedNs (s : State) (r : RtrPkt) : Nat :=
  let now := match r.out with
    | some k => if k < 96 ∧ portState s (k / 8) = 5 then s.nowNs - max r.sinceNs (portAt s (k / 8)).sinceNs else 0
    | none => 0
  min 2000000 (r.retrainNs + now)

/-- HEADER_HOLD_TIMEOUT (R309): the header of a packet has waited longer than hold_us. -/
def execHeaderHoldTimeout (id : Nat) (s : State) : Out :=
  match rtrPkt s id with
  | none => .next s
  | some r =>
    if r.sent ≠ 0 ∨ r.out.any (fun k => decide (96 ≤ k) && (outAt s k).any (fun x => x.id == id)) then .next s
    else
      let limit := max 1 (getF s Reg.routerCtl_hold_us) * 1000
      .next (dropPkt (advance s (r.sinceNs + limit + retrainedNs s r + 1)) r)

/-! Tables and epochs (R308, R310, R311) -/

/-- A write of ROUTER_TBL_DATA to the entry that ROUTER_TBL_ADDR names. -/
def tblWrite (s : State) (entry : Nat) : State :=
  let half := getB s Reg.routerTblAddr_half
  let d := getF s Reg.routerTblAddr_dest
  if halfState s half ≠ 0 then setB s Reg.routerEpoch_tbl_refused true
  else
    let v := entry % 512
    if half then { s with rtr := { s.rtr with half1 := nset 0 s.rtr.half1 d v } }
    else { s with rtr := { s.rtr with half0 := nset 0 s.rtr.half0 d v } }

/-- ROUTE_TABLE_WRITE: ROUTER_TBL_ADDR, then ROUTER_TBL_DATA (R310). -/
def execRouteTableWrite (half : Bool) (dest entry : Nat) (s : State) : Out :=
  .next (tblWrite (setF (setB s Reg.routerTblAddr_half half) Reg.routerTblAddr_dest dest) entry)

/-- Send EPOCH_ACK (R310, R311). -/
def epochAck (s : State) (dst reqId : Nat) (refused : Bool) : State :=
  inject s { pkt0 s dst 0xC1 4 with reqId := reqId, body := b2n (getB s Reg.routerEpoch_inject_epoch) + 2 * b2n refused }

/-- Set the state of a table half. -/
def setHalf (s : State) (b : Bool) (v : Nat) : State := if b then setF s Reg.routerEpoch_half1 v else setF s Reg.routerEpoch_half0 v

/-- EPOCH_FLIP (R310 step 3, R311). -/
def execEpochFlip (inPort : Nat) (p : Pkt) (s : State) : Out :=
  let p := { p with ptype := 0xC0 }
  let a := arrives s inPort p
  let s := a.2
  if !a.1 then .next s
  else
    let new := bitOf p.body 0
    if halfState s new = 1 then .next (epochAck s p.src p.reqId false)
    else if halfState s new = 2 then .next (epochAck s p.src p.reqId true)
    else
      let s := setHalf (setHalf (setB s Reg.routerEpoch_inject_epoch new) new 1) (!new) 2
      let s := { s with rtr := { s.rtr with drain := some (s.nowNs + max 1 (getF s Reg.routerEpoch_drain_us) * 1000, p.src) } }
      .next (epochAck s p.src p.reqId false)

/-- ROUTER_P_p_OLD: packets in the port's input region and output queue whose epoch is not the injection epoch (R311). -/
def oldCount (s : State) (port : Nat) : Nat :=
  let mine := fun (m : NMap (List RtrPkt)) => (m.filter (fun e => e.1 / 8 == port)).flatMap (·.2)
  ((mine s.rtr.inq ++ mine s.rtr.outq).filter (fun r => r.pkt.epoch != getB s Reg.routerEpoch_inject_epoch)).length

/-- EPOCH_RETIRE (R310 step 5): the drain time has passed; the old half becomes IDLE if no packet of its epoch is held. -/
def execEpochRetire (s : State) : Out :=
  match s.rtr.drain with
  | none => .next s
  | some d =>
    let s := advance s d.1
    if (List.range 14).any (fun p => decide (oldCount s p ≠ 0)) then .next s
    else
      let s := setHalf s (!getB s Reg.routerEpoch_inject_epoch) 0
      .next (epochAck { s with rtr := { s.rtr with drain := none } } d.2 0 false)

/-- ROUTER_COMMIT: a new N resets the grant counters (R229). -/
def commitRouter (s0 : State) : State :=
  let s := commitTable s0 Reg.tableRouter
  if arbN s0 Reg.routerCtl_arb_n = arbN s Reg.routerCtl_arb_n then s
  else { s with rtr := { s.rtr with chanArbs := zeroCnts s.rtr.chanArbs, flitArbs := zeroCnts s.rtr.flitArbs } }

/-- ROUTER_COMMIT (R229). -/
def execRouterCommit (s : State) : Out := .next (commitRouter s)

end Sys2Proof.Machine
end

