-- ==== Sys2Proof/Machine/Mistral.lean ====
section
/-!
DEFINITION. Machine/Mistral.lean: the background walk, range scrubs, row repair, retirement and rebuild (spec 05 R120, spec 11
R246 to R258).
-/
namespace Sys2Proof.Machine
open Sys2Proof

/-! Codewords that Mistral handles (R247 to R249) -/

/-- Count and log a correction that Mistral made (R239, R242). -/
def scrubCe (s : State) (p : Nat) (changed : SymErr) : State :=
  logCe (bump s Reg.rasStkCe_count 1 (stackOf p)) p ((changed.head?.map (·.1)).getD 0) (decide (changed.length = 2))

/-- The stored codeword takes the value that was read, with no symbol left in error but those the code accepts (R249). -/
def repairWrite (s : State) (g : Nat) (residual : SymErr) : State :=
  bump (putMeta s g { metaAt s g with errs := residual }) Reg.mslRepaired_count

/-- A codeword that nothing restores: poisoned in place with cause 0x01; a map granule takes its blocks along (R233, R247). -/
def scrubPoison (s : State) (p : Nat) : State := (uePoison s p).2

/-- The codeword at p was uncorrectable on both reads (R240, R247): reconstructed in protected mode, or poisoned. True when it
was restored. -/
def scrubUe (s : State) (p : Nat) : Bool × State :=
  let s := noteUe s p
  if !s.mem.prot then (false, scrubPoison s p)
  else
    let s := settleDeltas s p
    if canReconstruct s p then
      let s := bump s Reg.parRecon_count
      (true, logRas (putMeta s (p / 64) { metaAt s (p / 64) with errs := [] }) 2 p)
    else (false, scrubPoison (bump s Reg.parUnrecov_count) p)

/-- Repairs that the last read put in a channel's repair table are written; a write since then took its granule out (R249). -/
def writeRepairs (s : State) (ch : Nat) : State :=
  let l := ngetD [] s.ras.repairTab ch
  l.foldl (fun s g => match rsDecode (metaAt s g).errs with
    | .corrected _ e => repairWrite s g e
    | _ => s) { s with ras := { s.ras with repairTab := nset [] s.ras.repairTab ch [] } }

/-- Mistral reads one codeword of the walk or of the repair queue, with the errors `extra` on its first read (R247). -/
def mistralCodeword (s : State) (p : Nat) (extra : SymErr) : State :=
  let g := p / 64
  if (zbit s (p / 4096) && !s.mem.prot) || isLost s p || isFailedAt s p then s
  else
    let s := bump s Reg.smcRdBytes_count 64 (stackOf p)
    let m := metaAt s g
    if m.poison then s
    else
      let first := rsDecode (errAdd m.errs extra)
      match (if first = .uncorrectable then rsDecode m.errs else first) with
      | .clean _ => s
      | .corrected c _ =>
        let s := scrubCe s p c
        let l := ngetD [] s.ras.repairTab (chanOf p)
        if l.length < 64 then { s with ras := { s.ras with repairTab := nset [] s.ras.repairTab (chanOf p) (l ++ [g]) } } else s
      | .uncorrectable => (scrubUe s p).2

/-! The background walk (R246) -/

/-- Channels of a stack whose walk has not ended; a channel out of service is passed over (R246). -/
def walkOpen (s : State) (st : Nat) : Bool :=
  (List.range 32).any (fun c => chanOnline s st c && decide (ngetD 0 s.ras.walk (st * 32 + c) < chanBytes))

/-- Frames of the pass that are done: those whose every unit has been read (MSL_s_PROGRESS). -/
def walkFrames (s : State) (st : Nat) : Nat :=
  ((List.range 8).map (fun k => ((List.range 4).map (fun v =>
    if chanOnline s st (4 * k + v) then ngetD 0 s.ras.walk (st * 32 + 4 * k + v) / 16384 else chanBytes / 16384)).foldl min (chanBytes / 16384))).sum

/-- A stack's pass is over: it is counted, a late one too, and the next pass begins (R246). -/
def endPass (s : State) (st : Nat) : State :=
  if walkOpen s st then setF s Reg.mslProgress_frame (walkFrames s st) st
  else
    let began := ngetD 0 s.ras.walkStart st
    let late := decide (began + max 1 (getF s Reg.mslCtl_period_h) * 3600000000000 < s.nowNs)
    let s := bump (if late then bumpSat s Reg.mslLate_count else s) Reg.mslPasses_count
    let s := { s with ras := { s.ras with
      walk := s.ras.walk.filter (fun e => e.1 / 32 ≠ st)
      walkStart := nset 0 s.ras.walkStart st s.nowNs } }
    setF s Reg.mslProgress_frame 0 st

/-- MISTRAL_READ (R246, R247, R249): the repairs of the channel's last reads are written; then the stack's repair queue, or else the walk,
gives the next codeword of the channel. `errs` are errors of the first read alone. -/
def execMistralRead (stack channel : Nat) (errs : SymErr) (s : State) : Out :=
  let st := stack % 12
  let c := channel % 32
  let ch := st * 32 + c
  let s := attribOwn s 6
  if !getB s Reg.smcLock_zmap_ready then .next s
  else
    let s := writeRepairs s ch
    match ngetD [] s.ras.repairQ st with
    | g :: rest =>
      .next (mistralCodeword { s with ras := { s.ras with repairQ := nset [] s.ras.repairQ st rest } } (g * 64) errs)
    | [] =>
      let z := ngetD 0 s.ras.walk ch
      if !getB s Reg.mslCtl_bg_en || !chanOnline s st c || decide (chanBytes ≤ z) then .next s
      else
        let s := mistralCodeword s (ch * chanBytes + z) errs
        .next (endPass { s with ras := { s.ras with walk := nput s.ras.walk ch (z + 64) } } st)

/-! Row repair (R250) -/

/-- The 16 codewords of a row (R215). -/
def rowGrans (ch pseudo bank row : Nat) : List Nat :=
  (List.range 16).map (fun i => (ch * chanBytes + row * 131072 + bank * 2048 + pseudo * 1024 + i * 64) / 64)

/-- The log entries of a row. -/
def rowLog (s : State) (p : Nat) : Option Nat := (List.range 64).find? (logMatches s p)

/-- A codeword is copied to the spare row with correction, with reconstruction, or poisoned (R240, R250). -/
def copyCodeword (s : State) (g : Nat) : State :=
  let m := metaAt s g
  if m.poison then s
  else match rsDecode m.errs with
    | .clean _ => s
    | .corrected c e => putMeta (scrubCe s (g * 64) c) g { m with errs := e }
    | .uncorrectable => (scrubUe s (g * 64)).2

/-- ROW_REPAIR (R250): a row at row_ce_limit, or with a codeword uncorrectable on both reads, moves to a spare row while the bank is
held; `spare` tells whether the bank has one left. The row joins the field repair list of 1,024, or cause 0x05 is logged. -/
def execRowRepair (stack channel pseudo bank row : Nat) (spare : Bool) (s : State) : Out :=
  let ch := stack % 12 * 32 + channel % 32
  let r := row % 24576
  let gs := rowGrans ch (pseudo % 2) (bank % 64) r
  let p := gs.headD 0 * 64
  let due := match rowLog s p with
    | some n => decide (max 1 (getF s Reg.rasCtl_row_ce_limit) ≤ getF s Reg.rasCeLogB_count n) && !getB s Reg.rasCeLogB_repaired n
    | none => false
  let bad := gs.any (fun g => (metaAt s g).poison || rsDecode (metaAt s g).errs == .uncorrectable)
  if !getB s Reg.rasCtl_repair_en || !(due || bad) || isLost s p || isFailedAt s p then .next s
  else if !spare || decide (1024 ≤ s.ras.repairList.length) then .next (logRas s 5 p)
  else
    let s := gs.foldl copyCodeword s
    let s := match rowLog s p with
      | some n => setB s Reg.rasCeLogB_repaired true n
      | none => s
    let s := { s with ras := { s.ras with repairList := s.ras.repairList ++ [bankKey p * 32768 + r] } }
    .next (logRas s 4 p)

/-! Retirement and rebuild (R255, R257) -/

/-- UE_LIMIT_EXCEEDED (R255): more than ue_limit uncorrectable codewords of a stack within one second declare it FAILED. -/
def execUeLimitExceeded (stack : Nat) (s : State) : Out :=
  let st := stack % 12
  let w := ngetD (0, 0) s.ras.ueWindow st
  if getB s Reg.parCtl_ue_retire_en && decide (max 1 (getF s Reg.rasCtl_ue_limit) < w.2) then .next (declareFailed s st)
  else .next s

/-- PAR_RETIRE (R255, PAR_CMD): the fabric manager declares a member stack FAILED. -/
def parRetire (s : State) (stack : Nat) : State :=
  let st := stack % 16
  let s := setF s Reg.parCmd_stack st
  if !s.mem.prot then setF s Reg.parCmd_result 3
  else if !(members s).contains st then setF s Reg.parCmd_result 1
  else if rebuilding s then setF s Reg.parCmd_result 2
  else declareFailed (setF s Reg.parCmd_result 0) st

/-- PAR_RETIRE (R255). -/
def execParRetire (stack : Nat) (s : State) : Out := .next (parRetire s stack)

/-- REBUILD_UNIT (R257): the next stripe unit of a channel of the promoted stack is reconstructed and written, or written as the
poisoned codeword; when every unit is written, cause 0x09 is logged and no spare is left. -/
def execRebuildUnit (channel : Nat) (s : State) : Out :=
  match s.ras.failedMember with
  | none => .next s
  | some st =>
    let c := channel % 32
    let z := rebuildPtr s c
    if !s.ras.promoted || !rebuilding s || decide (chanBytes ≤ z) then .next s
    else
      let p := (st * 32 + c) * chanBytes + z
      let s := settleDeltas s p
      let s :=
        if canReconstruct s p then putMeta (bump s Reg.parRecon_count) (p / 64) { metaAt s (p / 64) with errs := [] }
        else logRas (poisonInPlace (bump s Reg.parUnrecov_count) (p / 64)) 0x0C p
      let s := { s with ras := { s.ras with rebuilt := nput s.ras.rebuilt c (z + 64) } }
      let s := setF s Reg.parRebuild_frames_done (framesDone s)
      if (List.range 32).all (fun k => decide (chanBytes ≤ rebuildPtr s k)) then
        .next (logRasStack (setF { s with ras := { s.ras with failedMember := none, promoted := false, rebuilt := [] } } Reg.parStatus_state 3) 9 st)
      else .next s

/-! SCRUB_RANGE (R120, R248) -/

/-- What a range pass has counted. -/
structure ScrubSum where
  read : Nat
  corrected : Nat
  uncorrectable : Nat
  poisoned : Nat
  zeros : Nat
  firstBad : Option Nat
  skipped : Nat
  ells : Nat
  fin : Fin
deriving DecidableEq, Repr

/-- The summary record (R120). -/
def scrubRecord (v : ScrubSum) : List Byte :=
  natToLe 8 v.read ++ natToLe 8 v.corrected ++ natToLe 8 v.uncorrectable ++ natToLe 8 v.poisoned ++ natToLe 8 v.zeros
    ++ natToLe 8 (v.firstBad.getD 0 + b2n v.firstBad.isSome * 2 ^ 63) ++ natToLe 4 v.skipped ++ natToLe 4 v.ells ++ natToLe 8 0

/-- Count a codeword as poisoned by this pass. -/
def scrubBad (v : ScrubSum) (pva : Nat) : ScrubSum :=
  { v with uncorrectable := v.uncorrectable + 1, firstBad := v.firstBad.orElse (fun _ => some pva) }

/-- Count a codeword as found poisoned. -/
def scrubOld (v : ScrubSum) (pva : Nat) : ScrubSum :=
  { v with poisoned := v.poisoned + 1, firstBad := v.firstBad.orElse (fun _ => some pva) }

/-- Check the guard of a codeword that decoded (R248): in protected mode the reconstructed granule takes its place when its own guard
checks; otherwise the codeword is poisoned in place. -/
def scrubGuard (s : State) (v : ScrubSum) (pva p key : Nat) (residual : SymErr) : ScrubSum × State :=
  let r := yieldGran s (p / 64) (dataKey s key) residual
  if granOk r.1 then (v, r.2)
  else
    let s := if r.2.mem.prot then settleDeltas r.2 p else r.2
    let q := yieldGran s (p / 64) (dataKey s key) []
    if s.mem.prot && canReconstruct s p && granOk q.1 then
      ({ v with corrected := v.corrected + 1 },
       putMeta (bump q.2 Reg.parRecon_count) (p / 64) { metaAt q.2 (p / 64) with errs := [] })
    else (scrubBad v pva, poisonInPlace s (p / 64))

/-- Check one codeword of this node (R120, R248). -/
def scrubGran (s : State) (correct : Bool) (v : ScrubSum) (pva p key : Nat) : ScrubSum × State :=
  let s := bump s Reg.smcRdBytes_count 64 (stackOf p)
  let v := { v with read := v.read + 1 }
  let m := metaAt s (p / 64)
  if isLost s p || m.poison then (scrubOld v pva, s)
  else if isFailedAt s p then
    let r := reconstruct s p (dataKey s key) false
    if r.1.poison then (scrubBad v pva, r.2)
    else if granOk r.1 then (v, r.2)
    else (scrubBad v pva, poisonInPlace r.2 (p / 64))
  else match rsDecode m.errs with
    | .clean e => scrubGuard s v pva p key e
    | .corrected c e =>
      let v := { v with corrected := v.corrected + 1 }
      let s := scrubCe s p c
      let s := if correct then repairWrite s (p / 64) e else s
      let g := yieldGran s (p / 64) (dataKey s key) e
      if granOk g.1 then (v, g.2) else scrubGuard s { v with corrected := v.corrected - 1 } pva p key e
    | .uncorrectable =>
      let r := scrubUe s p
      (if r.1 then { v with corrected := v.corrected + 1 } else scrubBad v pva, r.2)

/-- Count what the owning node found of a codeword that lies there (R120): the check, the repair and the poisoning are its own (DESIGN CHOICE,
log 52). One that gives no answer ends the pass with TIMEOUT (R318). -/
def scrubFar (v : ScrubSum) (pva ppa : Nat) (seen : Bool) : Option FarScrub → ScrubSum
  | some .clean => { v with read := v.read + 1 }
  | some .corrected => { v with read := v.read + 1, corrected := v.corrected + 1 }
  | some .uncorrectable => scrubBad { v with read := v.read + 1 } pva
  | some .poisoned => scrubOld { v with read := v.read + 1 } pva
  | some .zero => if seen then v else { v with zeros := v.zeros + 1 }
  | none => { v with fin := Fin.worse v.fin (Fin.atPpa .timeout ppa) }

/-- Scrub the part of one ell from `pva` on, `n` granules: blocks in the zero map are counted once each and not read. -/
def scrubEll (s : State) (correct : Bool) (v : ScrubSum) (pva n : Nat) (x : Xl) (far : NMap FarScrub) : ScrubSum × State :=
  let r : (ScrubSum × List Nat) × State := (List.range n).foldl (fun a i =>
    let y : Xl := { x with ppa := x.ppa + i * 64 }
    let at_ := pva + i * 64
    if ownerOf y.ppa ≠ a.2.dev.node then
      let f := nfind far (y.ppa / 64)
      let b := y.ppa / 4096
      ((scrubFar a.1.1 at_ y.ppa (a.1.2.contains b) f, if f = some .zero ∧ !a.1.2.contains b then b :: a.1.2 else a.1.2), a.2)
    else match locate a.2 y.place (localOf y.ppa) with
      | none => a
      | some p =>
        if zbit a.2 (p / 4096) then
          if a.1.2.contains (p / 4096) then a else (({ a.1.1 with zeros := a.1.1.zeros + 1 }, p / 4096 :: a.1.2), a.2)
        else
          let q := scrubGran a.2 correct a.1.1 at_ p y.keyTenant
          ((q.1, a.1.2), q.2)) ((v, []), s)
  ({ r.1.1 with ells := r.1.1.ells + 1 }, r.2)

/-- What the translation of one ell of a scrubbed range says. -/
inductive ScrubAt where
  | skip
  | go (x : Xl)
deriving DecidableEq, Repr

/-- How a pass ends at an ell that has no valid translation: UNMAPPED there (R120). A right that the tenant lacks, a tenant that is gone and a
table that is lost end it as such (DEDUCED, log 52). -/
def scrubStop (f : Fin) (pva : Nat) : Fin :=
  if f.st = .accessDenied ∨ f.st = .tenantGone ∨ f.st = .fatal then f else Fin.atPva .unmapped pva

/-- Translate the ells of a range in ascending order up to the first with no valid translation (R120): what each holds, the failure,
the waits for sets or keys, the versions bound. A scrub never starts a migration. -/
def scrubPlan : List Nat → State → Nat → List Bind → (List (Nat × ScrubAt) × Fin × List HeldWhy × List Bind × State)
  | [], s, _, b => ([], Fin.ok, [], b, s)
  | a :: as, s, t, b =>
    let r := xlate s t a .rd b
    let more := fun (k : ScrubAt) =>
      let q := scrubPlan as r.2.2 t r.2.1
      ((a, k) :: q.1, q.2)
    match r.1 with
    | .ok x => if x.zeroFill then more .skip else more (.go x)
    | .wait (.migrate _) => more .skip
    | .wait w => ([], Fin.ok, [w], r.2.1, r.2.2)
    | .fail f => if f.kind = .iova then more .skip else ([], scrubStop f a, [], r.2.1, r.2.2)

/-- Run a SCRUB_RANGE descriptor that stands ready (R120). -/
def runScrub (s : State) (uid : Nat) (env : NMap Gran) (far : NMap FarScrub) : State :=
  match descOf s uid with
  | none => s
  | some d =>
    if d.phase ≠ .ready then s
    else if badScrub d.raw then endDesc s d (Fin.of .badDescriptor) false
    else
      let start := dfld d.raw 0x10 0 64
      let len := dfld d.raw 0x18 0 64
      let sum := dfld d.raw 0x20 0 64
      let w := xlate (attrib s 6 4 d.tenant) d.tenant sum .wr d.binds
      let pl := scrubPlan (ellCuts start len) w.2.2 d.tenant w.2.1
      let waits := (match w.1 with | .wait h => [h] | _ => []) ++ pl.2.2.1
      let s := setBinds pl.2.2.2.2 uid pl.2.2.2.1
      match w.1 with
      | .fail f => endDesc s d f false
      | _ =>
        if waits ≠ [] then
          let h := holdItem s d.tenant waits (.desc uid)
          if h.1 then modDesc h.2 uid (fun x => { x with phase := .held })
          else let f := busyFin h.2; endDesc f.2 d f.1 false
        else match w.1 with
          | .ok x =>
            let correct := dbit d.raw 0x28 0
            let r : ScrubSum × State := pl.1.foldl (fun a e =>
              match e.2 with
              | .skip => ({ a.1 with skipped := a.1.skipped + 1 }, a.2)
              | .go y =>
                let stop := min (start + len) ((e.1 / ellBytes + 1) * ellBytes)
                scrubEll a.2 correct a.1 e.1 ((stop - e.1) / 64) y far) (⟨0, 0, 0, 0, 0, none, 0, 0, Fin.ok⟩, s)
            let s := issueAll r.2 uid 0 env [{ pva := sum, xl := x, gran := freshGran (scrubRecord r.1) }]
            let s := modDesc s uid (fun y => mergeEnd { y with phase := .running, bytesDone := 64 } 0 (Fin.worse pl.2.1 r.1.fin))
            descCheck s uid
          | _ => s

/-- SCRUB_RANGE (R120, R248): `far` is what other nodes find of their codewords in the range. -/
def execScrubRange (c : ScrubCmd) (s : State) : Out :=
  let t := opTake s 0x58 c.op
  match t.1 with
  | none => .next t.2
  | some u => .next (runScrub t.2 u c.op.remote c.far)

end Sys2Proof.Machine
end

