-- ==== Sys2Proof/Machine/Flash.lean ====
section
/-!
DEFINITION. Machine/Flash.lean: the xSPI flash, the Varic image, its fields and the configuration report (spec 19 R401 to R408).
-/
namespace Sys2Proof.Machine
open Sys2Proof

/-! The flash (R401, R402) -/

/-- A byte of the flash; one that nothing has written is erased. -/
def flashByte (s : State) (a : Nat) : Byte := ngetD 0xFF s.cfg.flash a

/-- Bytes of the flash. -/
def flashRead (s : State) (a n : Nat) : List Byte := (List.range n).map (fun i => flashByte s (a + i))

/-- Write bytes to the flash. -/
def flashWrite (s : State) (a : Nat) (bs : List Byte) : State :=
  { s with cfg := { s.cfg with flash := (bs.zipIdx).foldl (fun m x => nset 0xFF m (a + x.2) x.1) s.cfg.flash } }

/-- Erase the 4 KiB sectors that a range touches. -/
def flashErase (s : State) (a n : Nat) : State :=
  { s with cfg := { s.cfg with flash := s.cfg.flash.filter (fun e =>
      !(decide (a / 4096 ≤ e.1 / 4096) && decide (e.1 / 4096 ≤ (a + n - 1) / 4096))) } }

/-- Exactly n bytes, cut or filled with zeros. -/
def fixLen (n : Nat) (l : List Byte) : List Byte := (l ++ List.replicate (n - l.length) 0).take n

/-- The 32-byte SHAKE256 digest. -/
def digest32 (bs : List Byte) : List Byte := fixLen 32 (Config.shake256 bs 32)

/-- Header copy k is valid (R402). -/
def hdrValid (s : State) (k : Nat) : Bool :=
  let b := flashRead s (k * 4096) 64
  leToNat (b.take 4) == 0x48445253 && leToNat ((b.drop 4).take 2) == 1 && b.drop 32 == digest32 (b.take 32)

/-- The sequence of header copy k. -/
def hdrSeq (s : State) (k : Nat) : Nat := leToNat (flashRead s (k * 4096 + 8) 4)

/-- The header copy in force: the valid one with the higher sequence (R402). -/
def hdrCopy (s : State) : Option Nat :=
  if hdrValid s 0 && hdrValid s 1 then (if hdrSeq s 0 < hdrSeq s 1 then some 1 else some 0)
  else if hdrValid s 0 then some 0
  else if hdrValid s 1 then some 1
  else none

/-- The active slot of an image, i = 0 root of trust, 1 MGT, 2 Varic; 0 with no valid header (R402). -/
def activeSlot (s : State) (i : Nat) : Nat :=
  match hdrCopy s with
  | some k => (flashByte s (k * 4096 + 12 + i)).toNat % 2
  | none => 0

/-- Rewrite the other header copy with sequence + 1 and a slot changed (R402). -/
def writeHeader (s : State) (i slot : Nat) : State :=
  let seq := match hdrCopy s with | some k => hdrSeq s k + 1 | none => 0
  let other := match hdrCopy s with | some 0 => 1 | _ => 0
  let sl := fun (j : Nat) => natToLe 1 (if j = i then slot else activeSlot s j)
  let b := natToLe 4 0x48445253 ++ natToLe 2 1 ++ natToLe 2 0 ++ natToLe 4 seq ++ sl 0 ++ sl 1 ++ sl 2 ++ natToLe 17 0
  flashWrite (flashErase s (other * 4096) 4096) (other * 4096) (b ++ digest32 b)

/-- Offset of a Varic slot (R401). -/
def varicAt (slot : Nat) : Nat := 0x100000 * (1 + slot)

/-- Offset of a root-of-trust slot (R401). -/
def rotAt (slot : Nat) : Nat := 0x100000 * (3 + slot)

/-- Offset of an MGT slot (R401). -/
def mgtAt (slot : Nat) : Nat := 0x1000000 * (1 + slot)

/-! The Varic image (R403, R404) -/

/-- A record of the image (R404). -/
structure VRec where
  idx : Nat
  field : Nat
  inst : Nat
  rsv : Bool
  value : Nat
deriving DecidableEq, Repr

/-- Whether an image is applied (0), absent (1) or rejected (2) (R403). -/
def varicState (b : List Byte) : Nat :=
  let n := leToNat ((b.drop 6).take 2)
  let size := 96 + 16 * n
  if leToNat (b.take 4) = 0xFFFFFFFF then 1
  else if leToNat (b.take 4) ≠ 0x43495256 ∨ leToNat ((b.drop 4).take 2) ≠ 1 ∨ 4095 < n
      ∨ leToNat ((b.drop 8).take 4) ≠ size ∨ b.length < size
      ∨ !((b.drop 16).take 48).all (fun x => x == 0) ∨ (b.drop (size - 32)).take 32 ≠ digest32 (b.take (size - 32)) then 2
  else 0

/-- The records of an image that is not rejected (R404). -/
def varicRecords (b : List Byte) : List VRec :=
  (List.range (leToNat ((b.drop 6).take 2))).map (fun i =>
    let r := (b.drop (64 + 16 * i)).take 16
    ⟨i, leToNat (r.take 2), leToNat ((r.drop 2).take 1), leToNat ((r.drop 3).take 5) != 0, leToNat (r.drop 8)⟩)

/-! Fields (R405, R406) -/

/-- A field: number, instances, whether FIELD_SET may set it, its range, and whether its values are an enumeration. -/
structure FieldRow where
  id : Nat
  insts : Nat
  runTime : Bool
  lo : Nat
  hi : Nat
  enumerated : Bool
deriving DecidableEq, Repr

/-- The field table (R406). Fields with sub-fields (profile, port_vc) have their ranges in fieldCheck. -/
def fieldTable : List FieldRow := [
  ⟨0x0001, 1, false, 0, 16383, false⟩, ⟨0x0002, 1, false, 0, 1, true⟩, ⟨0x0003, 1, false, 0, 11, false⟩,
  ⟨0x0004, 2, false, 1, 127, false⟩, ⟨0x0005, 1, false, 0, 65535, false⟩, ⟨0x0006, 1, false, 0, 65535, false⟩,
  ⟨0x0007, 1, false, 0, 15, false⟩, ⟨0x0008, 1, false, 1, 6, false⟩, ⟨0x0010, 1, false, 96, 4096, false⟩,
  ⟨0x0011, 4, false, 0, 2 ^ 64, false⟩, ⟨0x0012, 12, false, 0, 8, false⟩, ⟨0x0013, 12, false, 0, 8, true⟩,
  ⟨0x0020, 12, true, 0, 1, false⟩, ⟨0x0021, 12, true, 0, 1, false⟩, ⟨0x0022, 12, true, 0, 3, false⟩,
  ⟨0x0023, 48, true, 0, 2 ^ 64, false⟩, ⟨0x0030, 1, true, 0, 1, false⟩, ⟨0x0031, 1, true, 1, 4000, false⟩,
  ⟨0x0032, 1, true, 1, 65535, false⟩, ⟨0x0033, 1, true, 1, 65535, false⟩, ⟨0x0034, 1, true, 1, 16383, false⟩,
  ⟨0x0040, 1, true, 1, 255, false⟩, ⟨0x0041, 1, true, 1, 32, false⟩, ⟨0x0042, 1, true, 32, 1024, false⟩,
  ⟨0x0043, 1, true, 10, 1000, false⟩, ⟨0x0050, 1, true, 100, 1050, false⟩, ⟨0x0051, 1, true, 70, 100, false⟩,
  ⟨0x0052, 1, true, 0, 5, false⟩, ⟨0x0053, 1, true, 1, 50, false⟩]

/-- The row of a field. -/
def fieldRow (id : Nat) : Option FieldRow := fieldTable.find? (fun r => r.id == id)

/-- The default of a field that has no register (R406). -/
def fieldDefault (id inst : Nat) : Nat :=
  if id = 3 then 11 else if id = 4 then (if inst = 0 then 20 else 10) else if id = 5 then 0x1E9C else if id = 8 then 6
  else if id = 0x12 then 8 else if id = 0x13 then 15 else 0

/-- A value as applied, with the outcome of R405: 0 OK, 1 CLAMPED, 2 DEFAULTED. -/
def fieldCheck (r : FieldRow) (inst v : Nat) : Nat × Nat :=
  if r.id = 0x0011 then
    let g := v % 32
    let w := putBits (v % 2 ^ 32) 0 5 (clamp 8 16 g)
    (if g < 8 ∨ 16 < g then 1 else 0, w)
  else if r.id = 0x0023 then
    let c := fun (lo : Nat) => bitsOf v lo 15
    let w := min 20224 (c 0) + min 20224 (c 16) * 2 ^ 16 + min 20224 (c 32) * 2 ^ 32
    (if 20224 < c 0 ∨ 20224 < c 16 ∨ 20224 < c 32 then 1 else 0, w)
  else if r.enumerated then
    if v ≤ r.hi ∨ (r.id = 0x0013 ∧ v = 15) then (0, v) else (2, fieldDefault r.id inst)
  else if v < r.lo then (1, r.lo)
  else if r.hi < v then (1, r.hi)
  else (0, v)

/-- The register field of VC region n: region, xoff_at and xon_at (FPT_p_VC_n). -/
def vcField (n k : Nat) : Fld :=
  match n, k with
  | 0, 0 => Reg.fptVc0_region | 0, 1 => Reg.fptVc0_xoff_at | 0, _ => Reg.fptVc0_xon_at
  | 1, 0 => Reg.fptVc1_region | 1, 1 => Reg.fptVc1_xoff_at | 1, _ => Reg.fptVc1_xon_at
  | 2, 0 => Reg.fptVc2_region | 2, 1 => Reg.fptVc2_xoff_at | 2, _ => Reg.fptVc2_xon_at
  | _, 0 => Reg.fptVc3_region | _, 1 => Reg.fptVc3_xoff_at | _, _ => Reg.fptVc3_xon_at

/-- The register field that a one-value field of the table targets, for an instance (R406). -/
def fieldReg (id inst : Nat) : Option (Fld × Nat) :=
  match id with
  | 0x0004 => some (if inst = 0 then Reg.pwrClaimCfg_level_a else Reg.pwrClaimCfg_level_b, 0)
  | 0x0010 => some (Reg.smcRsv_frames, 0)
  | 0x0020 => some (Reg.fptCtl_enable, inst)
  | 0x0021 => some (Reg.fptCtl_allow_x4, inst)
  | 0x0030 => some (Reg.admCtl_enforce, 0)
  | 0x0031 => some (Reg.nieCtl_cto_ms, 0)
  | 0x0032 => some (Reg.routerCtl_hold_us, 0)
  | 0x0033 => some (Reg.routerEpoch_drain_us, 0)
  | 0x0034 => some (Reg.xtuCtl_late_drain, 0)
  | 0x0040 => some (Reg.mslCtl_period_h, 0)
  | 0x0041 => some (Reg.parCtl_rebuild_share, 0)
  | 0x0042 => some (Reg.dirCtl_min_hold, 0)
  | 0x0043 => some (Reg.dirCtl_snoop_timeout, 0)
  | 0x0050 => some (Reg.pwrLimits_power_cap_w, 0)
  | 0x0051 => some (Reg.pwrLimits_throttle_c, 0)
  | 0x0053 => some (Reg.pwrWdogCtl_timeout, 0)
  | _ => none

/-- Write the encryption fields of a port: while CONFIDENTIAL is committed, enc_required stays 1 (R369). -/
def setEnc (s : State) (p v : Nat) : State :=
  setF (setF s Reg.fptEnc_enc_en v p) Reg.fptEnc_enc_required (if feature s 2 then 1 else v / 2) p

/-- The registers of a VC region take writes only while the port is DISABLED or DOWN (FPT_p_VC_n). -/
def setVc (s : State) (p n v : Nat) : State :=
  let st := getF s Reg.fptStatus_state p
  if st = 0 ∨ st = 6 then
    setF (setF (setF s (vcField n 0) (bitsOf v 0 15) p) (vcField n 1) (bitsOf v 16 15) p) (vcField n 2) (bitsOf v 32 15) p
  else s

/-- Write an applied value to a field's target, but for a change that starts or stops a port (R406). -/
def fieldApply (s : State) (id inst v : Nat) : State :=
  match fieldReg id inst with
  | some (f, n) => setF s f v n
  | none =>
    match id with
    | 0x0001 => { s with dev := { s.dev with node := v % 16384 } }
    | 0x0007 => if getB s Reg.cfgStatus_committed then s
      else setF (setF (setF (setF s Reg.secCtl_mem_enc_en v) Reg.secCtl_mem_class (v / 2)) Reg.secCtl_dev_class (v / 4)) Reg.secCtl_link_class (v / 8)
    | 0x0011 => if getB s Reg.smcLock_locked then s
      else setF (setF s Reg.smcProf_grain_log2 v inst) Reg.smcProf_stack_mask (bitsOf v 16 12) inst
    | 0x0022 => setEnc s inst v
    | 0x0023 => setVc s (inst / 4) (inst % 4) v
    | 0x0052 => { s with mgt := { s.mgt with ceiling := v } }
    | _ => { s with cfg := { s.cfg with fields := nset (fieldDefault id inst) s.cfg.fields (id * 256 + inst) v } }

/-- A field's current value. -/
def fieldValue (s : State) (id inst : Nat) : Nat :=
  match fieldReg id inst with
  | some (f, n) => getF s f n
  | none =>
    match id with
    | 0x0001 => s.dev.node
    | 0x0007 => getF s Reg.secCtl_mem_enc_en + 2 * getF s Reg.secCtl_mem_class + 4 * getF s Reg.secCtl_dev_class + 8 * getF s Reg.secCtl_link_class
    | 0x0011 => getF s Reg.smcProf_grain_log2 inst + getF s Reg.smcProf_stack_mask inst * 2 ^ 16
    | 0x0022 => getF s Reg.fptEnc_enc_en inst + 2 * getF s Reg.fptEnc_enc_required inst
    | 0x0023 => getF s (vcField (inst % 4) 0) (inst / 4) + getF s (vcField (inst % 4) 1) (inst / 4) * 2 ^ 16
        + getF s (vcField (inst % 4) 2) (inst / 4) * 2 ^ 32
    | 0x0052 => s.mgt.ceiling
    | _ => ngetD (fieldDefault id inst) s.cfg.fields (id * 256 + inst)

/-! Records (R405, R408) -/

/-- The instances that a record names, none when its instance is bad (R405). -/
def recInsts (r : FieldRow) (v : VRec) : List Nat :=
  if v.inst = 0xFF then List.range r.insts else if v.inst < r.insts then [v.inst] else []

/-- A record that CFG takes into account: no reserved byte set, a known field, a good instance. -/
def recCounts (v : VRec) : Bool :=
  !v.rsv && (match fieldRow v.field with | some r => recInsts r v != [] | none => false)

/-- The instances of a record that no later record replaces (R405). -/
def recLive (rs : List VRec) (r : FieldRow) (v : VRec) : List Nat :=
  (recInsts r v).filter (fun i => !rs.any (fun w => decide (v.idx < w.idx) && w.field == v.field && recCounts w
    && (recInsts r w).contains i))

/-- A record's outcome and the value applied (R405). -/
def recOutcome (rs : List VRec) (v : VRec) : Nat × Nat :=
  if v.rsv then (6, 0)
  else match fieldRow v.field with
    | none => (3, 0)
    | some r =>
      if recInsts r v = [] then (4, 0)
      else if recLive rs r v = [] then (5, 0)
      else fieldCheck r (if v.inst = 0xFF then 0 else v.inst) v.value

/-- The writes that the records make: field, instance, value (R405). -/
def recWrites (rs : List VRec) : List (Nat × Nat × Nat) :=
  rs.flatMap (fun v =>
    match fieldRow v.field with
    | none => []
    | some r => if v.rsv then [] else (recLive rs r v).map (fun i => (v.field, i, (fieldCheck r i v.value).2)))

/-- The words of a report entry (R408). -/
def recEntry (v : VRec) (o : Nat × Nat) : Nat × Nat :=
  (v.idx + v.field * 2 ^ 16 + v.inst * 2 ^ 32 + o.1 * 2 ^ 40, if o.1 = 1 ∨ o.1 = 2 then o.2 else 0)

/-- Build the report of an image's records (R408). -/
def buildReport (s : State) (rs : List VRec) (build : Nat) : State :=
  let bad := (rs.map (fun v => (v, recOutcome rs v))).filter (fun x => x.2.1 ≠ 0)
  let l : List (Nat × Nat) := (bad.take 1024).map (fun x => recEntry x.1 x.2)
  { s with cfg := { s.cfg with records := rs.length, build := build, entries := l, dropped := bad.length - 1024 } }

/-- The bytes of the report (R408). -/
def reportBytes (s : State) : List Byte :=
  natToLe 2 1 ++ natToLe 2 (getF s Reg.cfgStatus_image_state) ++ natToLe 2 s.cfg.records ++ natToLe 2 s.cfg.entries.length
    ++ natToLe 2 s.cfg.dropped ++ natToLe 2 0 ++ natToLe 4 s.cfg.build
    ++ s.cfg.entries.flatMap (fun e => natToLe 8 e.1 ++ natToLe 8 e.2)

/-- Read and judge the Varic image of a slot: the writes it makes, and the state with image_state and the report (R399, R403). -/
def readVaric (s : State) (slot : Nat) : List (Nat × Nat × Nat) × State :=
  let b := flashRead s (varicAt slot) (96 + 16 * 4095)
  let st := varicState b
  let rs := if st = 0 then varicRecords b else []
  let s := setF (setF s Reg.cfgStatus_image_state st) Reg.cfgStatus_cfg_slot slot
  (recWrites rs, buildReport s rs (if st = 0 then leToNat ((b.drop 12).take 4) else 0))

/-- The bytes of the Varic image in force, none when it is absent or rejected. -/
def varicImage (s : State) : List Byte :=
  let b := flashRead s (varicAt (getF s Reg.cfgStatus_cfg_slot)) (96 + 16 * 4095)
  if getF s Reg.cfgStatus_image_state = 0 then b.take (96 + 16 * leToNat ((b.drop 6).take 2)) else []

end Sys2Proof.Machine
end

