-- ==== Sys2Proof/Machine/Security.lean ====
section
/-!
DEFINITION. Machine/Security.lean: the root of trust: health of the random number generator, signing and attestation, debug grants,
erases and pairing secrets (spec 17 R353, R360 to R373).
-/
namespace Sys2Proof.Machine
open Sys2Proof

/-- SEC_STATUS.session_ok (R369), with fuse bits and SEC_XMSS as SEC shows them. -/
def secView (s : State) : State :=
  let ok := getB s Reg.secStatus_trng_ok && getB s Reg.secCtl_mem_enc_en && (getB s Reg.secCtl_link_class || s.fuse.fleet)
    && !getB s Reg.secStatus_debug_granted
  let s := setB s Reg.secStatus_session_ok ok
  let s := setB s Reg.secStatus_fuse_lock s.fuse.lock
  let s := setB s Reg.secStatus_fleet_valid s.fuse.fleet
  let s := setF s Reg.secXmss_next_index s.sec.nextIdx
  setF s Reg.secXmss_floor_window s.fuse.floor

/-! The random number generator (R353) -/

/-- TRNG_HEALTH_FAIL. -/
def execTrngHealthFail (s : State) : Out := .next (secView (logSec (setB s Reg.secStatus_trng_ok false) 1 none none))

/-! Link keys (R360, R361) -/

/-- The pairing secret of a port as link_class selects it: 32 bytes, or none (R360). -/
def pairOf (s : State) (p : Nat) : Option (List Byte) :=
  if getB s Reg.secCtl_link_class then (nfind s.sec.pair p).map (natToLe 32)
  else if s.fuse.fleet then
    some (digest32 (natToLe 32 Config.fleetSecret ++ [0x4C, 0x49, 0x4E, 0x4B].map (BitVec.ofNat 8)))
  else none

/-- The 36 bytes of key and salt of a direction and generation (R361). The widths of a, b and g are 2 bytes each (DESIGN CHOICE,
log 53). -/
def linkKeyBytes (k : LinkKey) : List Byte :=
  fixLen 36 (Config.shake256 (natToLe 32 k.secret ++ natToLe 32 k.nonceTx ++ natToLe 32 k.nonceRx
    ++ natToLe 2 k.tx ++ natToLe 2 k.rx ++ natToLe 2 k.gen) 36)

/-- SEC_LINK_p as the keys of a port stand. -/
def linkView (s : State) (p : Nat) : State :=
  let s := setB s Reg.secLink_cls (getB s Reg.secCtl_link_class) p
  let s := setB s Reg.secLink_pair_set (pairOf s p).isSome p
  let k := nfind s.sec.txKey p
  let s := setB s Reg.secLink_keys_live k.isSome p
  setF s Reg.secLink_generation ((k.map (·.gen)).getD 0) p

/-- The keys of a port are destroyed (R361). -/
def dropKeys (s : State) (p : Nat) : State :=
  linkView { s with sec := { s.sec with txKey := ndel s.sec.txKey p, rxKey := ndel s.sec.rxKey p } } p

/-! Key commands -/

/-- An entry of the SEC command ring can be reserved, with at most 64 commands outstanding. -/
def sccqRoom (s : State) : Bool :=
  decide (s.sec.cmds < 64) && decide (ringUsed (ringCnt s ringSccq) + s.sec.cmds < ringSize s ringSccq)

/-- SEC_KCMD's operands and result. -/
def kcmd (s : State) (tenant port tag res : Nat) : State :=
  let s := setF (setF s Reg.secKcmd_tenant tenant) Reg.secKcmd_port port
  setF (setF s Reg.secKcmd_tag tag) Reg.secKcmd_result res

/-- Post the record of a key command. -/
def secDone (s : State) (op tag bytes : Nat) : State := ringPush s ringSccq (ccqRecord s ringSccq op tag bytes Fin.ok)

/-- The removal of a tenant has completed: its record is FREE and its slot EMPTY (R372, R373). -/
def removed (s : State) (t : Nat) : Bool :=
  getF s Reg.xtuTenant0_state t == 0 && getF s Reg.secSlot_state t == 0 && s.sec.removals.all (fun r => r.tenant ≠ t)

/-- ERASE_RANGE of SEC_KCMD (R373): an argument that is wrong, a removal that is not complete, then no room. -/
def eraseRange (s : State) (tenant tag offset ells : Nat) (pl : Place) : State :=
  let t := tenant % 4096
  let off := offset % 2 ^ 42
  let n := ells % 2 ^ 32
  let res := if off % ellBytes ≠ 0 ∨ n = 0 ∨ rsvBase s < off + n * ellBytes then 3
    else if !removed s t then 2 else if !sccqRoom s then 1 else 0
  let s := kcmd (setF (setF s Reg.secKcmdArg0_offset offset) Reg.secKcmdArg1_ells ells) t (getF s Reg.secKcmd_port) tag res
  if res ≠ 0 then s
  else { s with sec := { s.sec with erases := s.sec.erases ++ [⟨tag % 2 ^ 24, off, n, pl⟩], cmds := s.sec.cmds + 1 } }

/-- ERASE_RANGE. SEC_KCMD names no placement: the ells are zeroed where the given placement puts them (DESIGN CHOICE, log 54). -/
def execEraseRange (tenant tag offset ells : Nat) (pl : Place) (s : State) : Out := .next (eraseRange s tenant tag offset ells pl)

/-- Physical block n holds nothing but zero codewords. -/
def blockZero (s : State) (n : Nat) : Bool :=
  (List.range 64).all (fun i => metaAt s (n * 64 + i) == metaZero && (granBytes s (n * 64 + i)).all (fun b => b == 0))

/-- The zero codeword is written into a granule; its block was materialised if marked (R232, R373). -/
def eraseGran (s : State) (p : Nat) : State :=
  if isLost s p then s
  else
    let s := cancelRepair (materialise s (p / 4096)) (p / 64)
    putMeta (putBytes s (p / 64 * 64) zeroGran.data) (p / 64) metaZero

/-- Zero one ell; with ZERO_ELISION its blocks that hold only zero codewords are then marked (R373). -/
def eraseEll (s : State) (pl : Place) (ell : Nat) : State :=
  let ps := (List.range 1024).filterMap (fun i => locate s pl (ell * ellBytes + i * 64))
  let s := ps.foldl eraseGran s
  if feature s 5 then
    (dedupSort (ps.map (fun p => p / 4096))).foldl (fun s n => if blockZero s n && !isLost s (n * 4096) then setZbit s n true else s) s
  else s

/-- ERASE_COMPLETE (R373): the erase with this tag ends. -/
def execEraseComplete (tag : Nat) (s : State) : Out :=
  match s.sec.erases.find? (fun e => e.tag == tag) with
  | none => .next s
  | some e =>
    let s := (List.range e.ells).foldl (fun s i => eraseEll s e.place (e.offset / ellBytes + i)) s
    let s := { s with sec := { s.sec with erases := s.sec.erases.erase e, cmds := s.sec.cmds - 1 } }
    .next (secDone s 1 e.tag (e.ells * ellBytes))

/-- PAIR_SET of SEC_KCMD: the four stage registers become the port's secret and are cleared (R360). -/
def pairSet (s : State) (port tag : Nat) : State :=
  let p := port % 16
  let res := if 12 ≤ p then 3 else if !sccqRoom s then 1 else 0
  let s := kcmd s (getF s Reg.secKcmd_tenant) p tag res
  if res ≠ 0 then s
  else
    let secret := ((List.range 4).map (fun i => getF s Reg.secPair_secret i * 2 ^ (64 * i))).sum
    let s := (List.range 4).foldl (fun s i => setF s Reg.secPair_secret 0 i) s
    let s := { s with sec := { s.sec with pair := nput s.sec.pair p secret } }
    secDone (linkView s p) 3 tag 0

/-- PAIR_SET (R360). -/
def execPairSet (port tag : Nat) (s : State) : Out := .next (pairSet s port tag)

/-! The identity key (R363 to R365) -/

/-- IDENTITY_READY: the bottom tree is rebuilt after a start. -/
def execIdentityReady (s : State) : Out :=
  if getF s Reg.secStatus_rot_state = 0 then .next s else .next (setB s Reg.secStatus_identity_ready true)

/-- The floor of the burned xmss_floor bits (R365). -/
def xmssFloor (s : State) : Nat := s.fuse.floor * 2 ^ 28

/-- The record in force (R364). -/
def xmssInForce (s : State) : Nat :=
  if s.sec.recA.valid && (!s.sec.recB.valid || decide (s.sec.recB.seq ≤ s.sec.recA.seq)) then s.sec.recA.reserved
  else if s.sec.recB.valid then s.sec.recB.reserved else 0

/-- The index state as a start finds it (R364). -/
def xmssStart (s : State) : State :=
  let next := max (xmssInForce s) (xmssFloor s)
  secView { s with sec := { s.sec with nextIdx := next, reservedTo := next } }

/-- Reserve 1,024 more indices: floor bits first, then the older record (R364, R365). `fails`: the write or its read-back fails. -/
def xmssReserve (s : State) (fails : Bool) : Bool × State :=
  let new := s.sec.reservedTo + 1024
  let s := { s with fuse := { s.fuse with floor := max s.fuse.floor ((new - 1) / 2 ^ 28) } }
  let a := s.sec.recA
  let b := s.sec.recB
  let older := if a.valid && (!b.valid || decide (b.seq < a.seq)) then 1 else 0
  let seq := (max (if a.valid then a.seq + 1 else 0) (if b.valid then b.seq + 1 else 0)) % 2 ^ 32
  let r : XmssRec := if fails then ⟨false, 0, 0⟩ else ⟨true, new, seq⟩
  let s := { s with sec := { s.sec with recA := if older = 0 then r else a, recB := if older = 1 then r else b } }
  if fails then (false, secView (logSec s 3 none none))
  else (true, secView { s with sec := { s.sec with reservedTo := new } })

/-- Sign with the identity key: the signature, or none when it is refused (R364). The index leads in the byte order of RFC 8391
(PRESUMED, log 55). -/
def xmssSign (s : State) (msg : Nat → List Byte) (fails : Bool) : Option (List Byte) × State :=
  if 2 ^ 40 ≤ s.sec.nextIdx then (none, s)
  else
    let r := if s.sec.nextIdx = s.sec.reservedTo then xmssReserve s fails else (true, s)
    if !r.1 then (none, r.2)
    else
      let s := r.2
      let i := s.sec.nextIdx
      let m := msg s.sec.reservedTo
      let sig := (natToLe 5 i).reverse ++ (List.range 5600).map (fun k => Config.xmssByte i m (k + 5))
      (some sig, secView { s with sec := { s.sec with nextIdx := i + 1 } })

/-! Attestation (R368) -/

/-- The root-of-trust image that runs. -/
def rotImage (s : State) : List Byte := flashRead s (rotAt s.sec.rotSlot) 0x100000

/-- The MGT image that the pair holding the claim runs; pair A's while there is no winner. -/
def mgtImage (s : State) : List Byte :=
  flashRead s (mgtAt (if getF s Reg.pwrClaim_winner = 2 then s.mgt.imgB else s.mgt.imgA)) 0x1000000

/-- The committed feature vector, zero if uncommitted. -/
def featureBytes (s : State) : List Byte :=
  if getB s Reg.cfgStatus_committed then (List.range 4).flatMap (fun i => natToLe 8 (getF s Reg.cfgFeatAccept_accept i))
  else List.replicate 32 0

/-- Bytes 0x000 to 0x0FF of the report (R368). -/
def reportHead (s : State) (nonce : List Byte) (tenant : Option Nat) (reserved : Nat) : List Byte :=
  let flags := b2n s.fuse.lock + 2 * b2n (getB s Reg.secStatus_debug_granted) + 4 * b2n s.mem.prot
    + 8 * b2n (getB s Reg.secCtl_mem_enc_en) + 16 * b2n (getB s Reg.secCtl_link_class) + 32 * b2n (getB s Reg.secCtl_mem_class)
  let t := tenant.getD 0 % 4096
  let tstate := match tenant with
    | some _ => getF s Reg.xtuTenant0_state t + 4 * b2n (getB s Reg.xtuTenant0_confidential t) + 8 * b2n (getB s Reg.secSlot_cls t)
    | none => 0
  natToLe 2 1 ++ natToLe 2 0 ++ natToLe 4 5861 ++ fixLen 32 nonce ++ digest32 Config.identityKey
    ++ natToLe 2 s.dev.node ++ natToLe 1 (getF s Reg.secBlockRev_stepping) ++ natToLe 1 flags ++ natToLe 1 s.fuse.svn ++ natToLe 3 0
    ++ natToLe 8 reserved ++ fixLen 32 (Config.payloadDigest (rotImage s)) ++ fixLen 32 (Config.payloadDigest (mgtImage s))
    ++ digest32 (varicImage s) ++ featureBytes s
    ++ natToLe 2 (t + 32768 * b2n tenant.isSome) ++ natToLe 1 tstate ++ natToLe 1 0
    ++ natToLe 2 (if tenant.isSome then getF s Reg.secSlot_generation t else 0) ++ natToLe 34 0

/-- A signed report of 5,861 bytes, or none when signing is refused. -/
def attestReport (s : State) (nonce : List Byte) (tenant : Option Nat) (fails : Bool) : Option (List Byte) × State :=
  let r := xmssSign s (reportHead s nonce tenant) fails
  (r.1.map (fun sig => reportHead s nonce tenant r.2.sec.reservedTo ++ sig), r.2)

/-- DOE requests are answered while PF0 can be reached. -/
def doeOpen (s : State) : Bool := s.hif.ready && s.hif.linkUp && !s.hif.d3.contains 0

/-- SPDM_GET_VERSION: version 1.2 (R368). -/
def execSpdmGetVersion (s : State) : Out := if doeOpen s then .next (emit s (.spdmVersion 0x12)) else .next s

/-- SPDM_GET_CAPABILITIES: measurements without SPDM signatures (R368). -/
def execSpdmGetCapabilities (s : State) : Out := if doeOpen s then .next (emit s (.spdmCapabilities true false)) else .next s

/-- SPDM_NEGOTIATE_ALGORITHMS: SHA3-384 measurements (R368). -/
def execSpdmNegotiateAlgorithms (s : State) : Out := if doeOpen s then .next (emit s (.spdmAlgorithms 384)) else .next s

/-- The identity key's certificate area in the flash (R401). -/
def certBytes (s : State) : List Byte := flashRead s 0x30000 0x10000

/-- SPDM_GET_MEASUREMENTS (R368): one block, or all of them for 0xFF (PRESUMED, log 56); BUSY until signing is available (R363).
`fails`: a write of the XMSS state fails (R364). -/
def execSpdmGetMeasurements (block : Nat) (nonce : List Byte) (fails : Bool) (s : State) : Out :=
  if !doeOpen s then .next s
  else if !getB s Reg.secStatus_identity_ready then .next (emit s .spdmBusy)
  else
    let wants := fun (b : Nat) => block == 255 || block == b
    let r := if wants 0xF0 then attestReport s nonce none fails else (none, s)
    let plain := [(1, fixLen 48 (Config.sha3 (rotImage s))), (2, fixLen 48 (Config.sha3 (mgtImage s))),
      (3, fixLen 48 (Config.sha3 (varicImage s)))].filter (fun x => wants x.1)
    let rep := match r.1 with | some b => [(0xF0, b)] | none => []
    let cert := if wants 0xF1 then [(0xF1, certBytes s)] else []
    .next (emit r.2 (.spdmMeasurements (plain ++ rep ++ cert)))

/-! Debug (R370) -/

/-- A confidential tenant is ACTIVE or RETIRING. -/
def anyConfidential (s : State) : Bool :=
  (List.range 4096).any (fun t => getB s Reg.xtuTenant0_confidential t && decide (getF s Reg.xtuTenant0_state t ≠ 0))

/-- DEBUG_GRANT (R370): `signed` tells that the challenge came back signed by the debug authorisation key. The challenge is a random
draw, so it waits while the health tests fail (R353). -/
def execDebugGrant (signed : Bool) (s : State) : Out :=
  if s.fuse.lock || (getB s Reg.secStatus_trng_ok && (!signed || anyConfidential s)) then .next (logSec s 4 none none)
  else if !getB s Reg.secStatus_trng_ok then .next s
  else .next (secView (setB s Reg.secStatus_debug_granted true))

end Sys2Proof.Machine
end

