-- ==== Sys2Proof/Machine/LinkOps.lean ====
section
/-!
DEFINITION. Machine/LinkOps.lean: flits and frames, acknowledgement and replay, the states of a port, and link encryption, as operations
(spec 13 R282 to R301, spec 17 R361, R362).
-/
namespace Sys2Proof.Machine
open Sys2Proof

/-- An entry of the FPT error ring: cause, port, and the lane or 0xFF (R442). -/
def logFpt (s : State) (cause p : Nat) (lane : Nat := 255) : State := logErr s ringFpt cause ⟨none, 0, p, 0, lane⟩

/-! Flits and frames (R282 to R284) -/

/-- An IDLE flit. -/
def idleFlit : Flit := ⟨List.replicate 64 0, 0, false, 0, 0⟩

/-- An LCTL flit of a code (R284): REPLAY_REQ carries a number in bytes 2 and 3, the probes a timestamp in bytes 8 to 15. -/
def lctlFlit (code v : Nat) : Flit :=
  let b := if code = 1 then natToLe 2 code ++ natToLe 2 (v % 4096) else natToLe 8 code ++ natToLe 8 v
  ⟨fixLen 64 (if code = 2 then natToLe 1 code else b), 0, false, 5, 0⟩

/-- The frame-control word (R283). -/
def fcWord (f : Frame) : Nat :=
  f.seq % 4096 + b2n f.seqValid * 2 ^ 12 + f.ack % 4096 * 2 ^ 13 + b2n f.ackValid * 2 ^ 25 + f.xoff % 32 * 2 ^ 26
    + b2n f.keyPhase * 2 ^ 31 + f.rsv % 16 * 2 ^ 32

/-- Bits [22:0] of a flit's sideband word (R282). -/
def sideband (x : Flit) : Nat := x.guard % 65536 + b2n x.poison * 65536 + x.ty % 8 * 2 ^ 17 + x.vc % 8 * 2 ^ 20

/-- Bytes 0 to 271 of a frame (R283). -/
def frameBytes (f : Frame) : List Byte :=
  (List.range 4).flatMap (fun k =>
    let x := f.flits.getD k idleFlit
    fixLen 64 x.data ++ natToLe 4 (sideband x + bitsOf (fcWord f) (9 * k) 9 * 2 ^ 23))

/-- A frame with its CRC computed afresh. -/
def sealFrame (f : Frame) : Frame := { f with crc := crc32 (frameBytes f) }

/-- The contents of a frame are well formed (R284): no reserved type or channel, and no LCTL flit in a sequenced frame. -/
def frameForm (f : Frame) : Bool :=
  f.flits.length == 4 && f.flits.all (fun x => decide (x.ty ≤ 5) && decide (x.vc ≤ 4) && !(f.seqValid && x.ty == 5))

/-- The HEADER flit's 64 bytes (R302, R304). -/
def headerFlitBytes (p : Pkt) : List Byte := hdrBytes p ++ natToLe 2 p.hcrc ++ natToLe 32 p.body

/-- The packet that a HEADER flit's 64 bytes spell. -/
def parseHeader (bs : List Byte) : Pkt :=
  let w := fun (i : Nat) => leToNat ((bs.drop (8 * i)).take 8)
  let h0 := w 0
  let h1 := w 1
  let h2 := w 2
  let h3 := w 3
  { dst := bitsOf h0 0 14, src := bitsOf h0 14 14, job := bitsOf h0 28 12, tenant := bitsOf h0 40 12, ptype := bitsOf h0 52 8,
    vc := bitsOf h0 60 3, epoch := bitOf h0 63, flow := bitsOf h1 0 16, seq := bitsOf h1 16 16, reqId := bitsOf h1 32 24,
    length := bitsOf h1 56 8, addr := bitsOf h2 0 56, admClass := bitsOf h2 56 2, fathom := bitsOf h2 58 4, icls := bitsOf h3 0 2,
    affEn := bitOf h3 2, affStack := bitsOf h3 3 4, keyTenant := bitsOf h3 7 12, isPpa := bitOf h3 19, hops := bitsOf h3 20 8,
    status := bitsOf h3 28 8, dstRank := bitOf h3 36, rsv := bitsOf h2 62 2 + bitsOf h3 37 11 * 4, hcrc := bitsOf h3 48 16,
    body := leToNat ((bs.drop 32).take 32), data := [] }

/-! The transmitter's window (R285, R286, R288) -/

/-- The oldest unacknowledged number, or the next to be assigned. -/
def oldestNum (q : PortState) : Nat := match q.replay with | f :: _ => f.seq | [] => q.txNext

/-- The replay timer of a port in nanoseconds; values below 150 act as 150. -/
def replayNs (s : State) (p : Nat) : Nat := max 150 (getF s Reg.fptLlCtl_replay_timeout p) * 10

/-- Drop the n oldest stored frames: progress (R286). -/
def freeFrames (s : State) (p n : Nat) : State :=
  if n = 0 then s
  else
    let s := modPort s p (fun q =>
      let rest := q.replay.drop n
      let done := (q.replay.take n).map (·.seq)
      let old := match rest with | f :: _ => f.seq | [] => q.txNext
      let rpt := match q.rpt with
        | some (a, b) => if rest.isEmpty then none else if done.contains b then some (a, old) else some (a, b)
        | none => none
      { q with replay := rest, rpt := rpt, progressNs := s.nowNs, runs := 0 })
    setB s Reg.fptStatus_replaying (portAt s p).rpt.isSome p

/-- An acknowledgement (R286). -/
def takeAck (s : State) (p a : Nat) : State :=
  let q := portAt s p
  let d := (a + 4096 - oldestNum q) % 4096
  if d < q.replay.length then freeFrames s p (d + 1) else bump s Reg.fptAckDiscard_count 1 p

/-! Lanes (R280, R296) -/

/-- How a direction runs with lanes failed: the logical lane its spare replaces (15: none) and whether it runs x4; none when it
cannot run. Lanes that failed together are taken in ascending order (DESIGN CHOICE, log 57). -/
def laneRun (failed : Nat) (allowX4 : Bool) (spareFor : Nat) : Option (Nat × Bool) :=
  let bad := (List.range 8).filter (fun l => bitOf failed l)
  match bad with
  | [] => some (15, false)
  | l :: _ =>
    let sp := if bitOf failed 8 then 15 else if spareFor < 8 ∧ bitOf failed spareFor then spareFor else l
    let rest := bad.filter (fun x => x ≠ sp)
    if rest.isEmpty then some (sp, false)
    else if allowX4 && (rest.all (fun x => decide (4 ≤ x)) || rest.all (fun x => decide (x < 4))) then some (sp, true)
    else none

/-- The headroom H of a round trip in flits, at the rate of the receiving direction (R290). -/
def headroom (rtt : Nat) (x4 : Bool) : Nat := cdiv (rtt * 30674) (if x4 then 20000 else 10000) + 145

/-- A measurement of the round trip: t_rt is the largest of the last 16, and every region is held against H (R290, R294). -/
def noteRtt (s : State) (p m : Nat) : State :=
  let s := modPort s p (fun q => { q with rtts := (m :: q.rtts).take 16 })
  let t := (portAt s p).rtts.foldl max 0
  let s := setF s Reg.fptRtt_rtt_ns (min t 65535) p
  let h := headroom t (getB s Reg.fptStatus_rx_x4 p)
  let short := (List.range 4).any (fun vc => decide ((vcRegion s p vc).1 < (vcRegion s p vc).2.1 + h))
  let s := setB s Reg.fptStatus_headroom_short short p
  if short then logFpt s 7 p else s

/-! DOWN (R293, R297) -/

/-- A packet that holds an ABORT flit and has reached this node's own port is discarded whole (R298). -/
def sinkAborted (s : State) (id : Nat) : State :=
  if s.rtr.outq.any (fun e => decide (96 ≤ e.1) && e.2.any (fun r => r.id == id && r.abort)) then removePkt s id else s

/-- The rest of a packet becomes ABORT flits. -/
def abortPkt (s : State) (id : Nat) : State := sinkAborted (modPkt s id (fun r => { r with abort := true })) id

/-- Packets part-way at a port are padded or discarded (R297), and packets routed to it that have not started are discarded (R308). -/
def abortPort (s : State) (p : Nat) : State :=
  let s := (portAt s p).rxIn.foldl (fun s e => bump (abortPkt s e.2) Reg.fptAborted_count 1 p) s
  let mine := (s.rtr.outq.filter (fun e => e.1 / 8 == p)).flatMap (·.2)
  let s := mine.foldl (fun s r =>
    if r.sent ≠ 0 then routerSettle (bump (removePkt s r.id) Reg.fptAborted_count 1 p) else dropPkt s r) s
  let wait := (s.rtr.inq.flatMap (·.2)).filter (fun r => r.out.any (fun k => k / 8 == p))
  wait.foldl dropPkt s

/-- The port goes DOWN or DISABLED (R293, R297, R361). Its instance ends. -/
def linkDown (s : State) (p state : Nat) : State :=
  let was := portState s p
  let s := setF s Reg.fptStatus_state state p
  let s := if state = 6 ∧ was ≠ 6 then bumpSat s Reg.fptStatus_down_count 1 p else s
  let s := setB (setB s Reg.fptStatus_enc_active false p) Reg.fptStatus_replaying false p
  let s := setB (setB s Reg.fptCtl_retrain false p) Reg.fptEnc_key_phase false p
  let s := abortPort s p
  let s := dropKeys (setB s Reg.secLink_key_phase false p) p
  let s := modPort s p (fun q => { port0 with sinceNs := s.nowNs, xoffOut := q.xoffOut })
  updXoff (logFpt s 4 p) p

/-! Sending one unsequenced frame -/

/-- The next unsequenced frame of a port (R283, R284). -/
def unseqFrame (s : State) (p : Nat) (flits : List Flit) : Frame :=
  let q := portAt s p
  sealFrame ⟨(flits ++ List.replicate 4 idleFlit).take 4, q.txNext, false, q.ackNum.getD 0, q.ackNum.isSome, q.xoffOut,
    getB s Reg.fptEnc_key_phase p, 0, 0⟩

/-- Put a frame on the link: four flit slots pass. -/
def putFrame (s : State) (p : Nat) (f : Frame) (vzGap : Nat) : State :=
  modPort s p (fun q => { q with lastTx := some f, vzGap := min 16 vzGap })

/-- Start retraining from ACTIVE: RETRAIN_REQ goes out before frames stop (R295). -/
def startRetrain (s : State) (p : Nat) : State :=
  if portState s p ≠ 4 then s
  else
    let s := putFrame s p (unseqFrame s p [lctlFlit 2 0]) ((portAt s p).vzGap + 4)
    let s := setF s Reg.fptStatus_state 5 p
    logFpt (modPort s p (fun q => { q with sinceNs := s.nowNs })) 2 p

/-! Replay (R288) -/

/-- A replay begins from a stored number: it is counted, and a run of replay_limit of them without progress starts retraining. -/
def beginReplay (s : State) (p n : Nat) : State :=
  let s := bump s Reg.fptReplays_count 1 p
  let s := modPort s p (fun q => { q with rpt := some (n, n), runs := q.runs + 1 })
  let s := setB s Reg.fptStatus_replaying true p
  if max 1 (getF s Reg.fptLlCtl_replay_limit p) ≤ (portAt s p).runs then startRetrain s p else s

/-- A REPLAY_REQ (R286, R288). The number acknowledges every frame before it (DEDUCED, log 58). -/
def takeReplayReq (s : State) (p n : Nat) : State :=
  let q := portAt s p
  let d := (n % 4096 + 4096 - oldestNum q) % 4096
  if q.replay.length < d then bump s Reg.fptAckDiscard_count 1 p
  else
    let began := q.rpt.any (fun r => r.1 == n % 4096)
    let s := freeFrames s p d
    if (portAt s p).replay.isEmpty || began then s else beginReplay s p (n % 4096)

/-- Wait to be sent in an unsequenced frame. -/
def queueLctl (s : State) (p code v : Nat) : State := modPort s p (fun q => { q with lctl := q.lctl ++ [(code, v)] })

/-- The receiver asks for its expected number, once until that frame comes or the timer ends (R287). -/
def askReplay (s : State) (p : Nat) : State :=
  let q := portAt s p
  if q.asked.isSome then s else queueLctl (modPort s p (fun q => { q with asked := some s.nowNs })) p 1 q.exp

/-- An RTT_ECHO: the time since the stamp it returns (R294). -/
def takeEcho (s : State) (p stamp : Nat) : State := noteRtt s p (s.nowNs - stamp)

/-- One LCTL flit of a frame whose CRC checks (R284, R287). -/
def takeLctl (s : State) (p : Nat) (x : Flit) : State :=
  if portState s p ≠ 4 then s
  else
    let code := ((x.data.head?).getD 0).toNat
    let stamp := leToNat ((x.data.drop 8).take 8)
    if code = 1 then takeReplayReq s p (leToNat ((x.data.drop 2).take 2))
    else if code = 2 then startRetrain s p
    else if code = 3 then queueLctl s p 4 stamp
    else if code = 4 then takeEcho s p stamp
    else s

/-! Encryption (R300, R301, R361, R362) -/

/-- XOR of two byte lists. -/
def xorBytes (a b : List Byte) : List Byte := (a.zip b).map (fun x => x.1 ^^^ x.2)

/-- The key stream of a segment from a position on. -/
def keyStream (key : List Byte) (cnt from_ n : Nat) : List Byte := (List.range n).map (fun i => Config.gcmByte key cnt (from_ + i))

/-- A flit whose data an encrypting port hides. -/
def hidden (x : Flit) : Bool := decide (1 ≤ x.ty ∧ x.ty ≤ 3)

/-- Additional data of flits: three sideband bytes each (R300). -/
def flitAad (xs : List Flit) : List Byte := xs.flatMap (fun x => natToLe 3 (sideband x))

/-- The tag of a segment as a 128-bit number. -/
def segTag (key : List Byte) (cnt : Nat) (aad text : List Byte) : Nat := Config.gcmTag key cnt (natToLe 8 cnt ++ aad) text % 2 ^ 128

/-- A change of key begins on a port (R362). -/
def beginRekey (s : State) (p : Nat) : State :=
  if getB s Reg.fptStatus_enc_active p then modPort s p (fun q => { q with rekey := true }) else s

/-! Receiving flits (R289, R291, R298, R299, R321) -/

/-- ERR_RSP GUARD_MISMATCH for a packet whose data fails its guard at a port (R321). -/
def guardErr (s : State) (p : Pkt) : State :=
  let e := { pkt0 s 0 0x8F 1 with
    job := p.job, tenant := p.tenant, reqId := p.reqId, flow := p.flow, seq := p.seq, fathom := fathomNow s,
    status := Status.guardMismatch.code }
  if p.ptype = 0x8F then s
  else if p.ptype < 0x43 then inject s { e with dst := p.src }
  else if 0x80 ≤ p.ptype ∧ p.ptype < 0x90 then inject s { e with dst := p.dst }
  else s

/-- One delivered flit joins its packet. -/
def takeFlit (s : State) (p : Nat) (x : Flit) : State :=
  if x.ty = 1 then
    let e := enterPkt s p { parseHeader (fixLen 64 x.data) with vc := x.vc }
    modPort e.2 p (fun q => { q with rxIn := if (parseHeader (fixLen 64 x.data)).length = 0 then ndel q.rxIn x.vc else nput q.rxIn x.vc e.1 })
  else if x.ty = 2 ∨ x.ty = 3 then
    match nfind (portAt s p).rxIn x.vc with
    | none => s
    | some id =>
      let g : Gran := if x.poison then poisonGran
        else if getB s Reg.fptPeer_sr2 p then ⟨fixLen 64 x.data, x.guard, false, false⟩ else freshGran (fixLen 64 x.data)
      let good := x.ty == 2 && granOk g
      let old := (rtrPkt s id).any (fun r => r.abort)
      let s := if old then s else if good then modPkt s id (fun r => { r with pkt := { r.pkt with data := r.pkt.data ++ [g] } }) else s
      -- the count of flits that arrived goes by the data held, so an aborted packet is closed at once
      let s := if old || good then s
        else
          let s := match rtrPkt s id with | some r => if x.ty = 2 then guardErr s r.pkt else s | none => s
          abortPkt s id
      let full := match rtrPkt s id with
        | some r => r.abort || decide (r.pkt.length ≤ r.pkt.data.length)
        | none => true
      if full then modPort s p (fun q => { q with rxIn := ndel q.rxIn x.vc }) else s
  else s

end Sys2Proof.Machine
end

