-- ==== Sys2Proof/Machine/Link.lean ====
section
/-!
DEFINITION. Machine/Link.lean: the commands of the fabric ports: frames, replay, training, retraining, round trips and key changes
(spec 13 R282 to R301, spec 17 R360 to R362).
-/
namespace Sys2Proof.Machine
open Sys2Proof

/-! FRAME_TRANSMIT -/

/-- A channel's next flit is ready and not stopped by xoff (R289, R305). -/
def flitReady (s : State) (p vc : Nat) : Bool :=
  match outAt s (p * 8 + vc) with
  | r :: _ =>
    (r.sent == 0 || r.abort || decide (r.sent ≤ r.pkt.data.length))
    && !((r.sent == 0 || vc == 4) && bitOf (portAt s p).xoffIn vc)
  | [] => false

/-- A DATA flit for a granule: the guard goes to SR2 peers only (R299); a poisoned one has undefined bytes (R16). -/
def dataFlitOf (s : State) (sr2 : Bool) (vc : Nat) (g : Gran) : Flit × State :=
  if g.poison then
    let b := freshBytes 64 s
    (⟨b.1, 0, true, 2, vc⟩, b.2)
  else (⟨fixLen 64 g.data, if sr2 then g.guard else 0, false, 2, vc⟩, s)

/-- An ABORT flit. -/
def abortFlit (vc : Nat) : Flit := ⟨List.replicate 64 0, 0, false, 3, vc⟩

/-- Take the next flit of a channel's packet. Toward a peer that is no SR2 the guard is checked first (R299, R321). -/
def takeNext (s : State) (p vc : Nat) : Option Flit × State :=
  match outAt s (p * 8 + vc) with
  | [] => (none, s)
  | r :: _ =>
    let sr2 := getB s Reg.fptPeer_sr2 p
    let a : Flit × State :=
      if r.sent = 0 then
        let b := headerFlitBytes r.pkt
        (⟨b, if sr2 then crc16 b else 0, false, 1, vc⟩, s)
      else match r.pkt.data[r.sent - 1]? with
        | none => (abortFlit vc, s)
        | some g =>
          if !sr2 && !granOk g then
            (abortFlit vc, guardErr (modPkt s r.id (fun x => { x with abort := true, pkt := { x.pkt with data := x.pkt.data.take (x.sent - 1) } })) r.pkt)
          else dataFlitOf s sr2 vc g
    let s := bump a.2 Reg.routerPFlits_count 1 p
    let s := modPkt s r.id (fun x => { x with sent := x.sent + 1 })
    (some a.1, if r.pkt.length < r.sent + 1 then routerSettle (removePkt s r.id) else s)

/-- Choose the flit of one slot: VZ first within its cap (R292), else the arbiter of the output port (R305). -/
def pickFlit (s : State) (p gap : Nat) : Option Flit × State :=
  let ready := (List.range 4).filter (flitReady s p)
  let vz := flitReady s p 4
  if vz && decide (15 ≤ gap) then takeNext (if ready.isEmpty then s else bump s Reg.routerPStall_count 1 p) p 4
  else
    let s := if 1 < ready.length ∨ vz then bump s Reg.routerPStall_count 1 p else s
    let rank := fun (vc : Nat) => if vc = 2 then 3 else if vc = 1 then 2 else 1
    let r := arbPick 64 (arbN s Reg.routerCtl_arb_n) (ngetD arb0 s.rtr.flitArbs p) (ready.map (fun vc => (vc, rank vc)))
    match r.1 with
    | none => (none, s)
    | some vc => takeNext { s with rtr := { s.rtr with flitArbs := nset arb0 s.rtr.flitArbs p r.2 } } p vc

/-- Fill up to n slots: the flits, and the slots since the last VZ flit. -/
def gather : Nat → State → Nat → Nat → List Flit × Nat × State
  | 0, s, _, gap => ([], gap, s)
  | n + 1, s, p, gap =>
    let a := pickFlit s p gap
    match a.1 with
    | none => ([], gap, a.2)
    | some x =>
      let r := gather n a.2 p (if x.vc = 4 then 0 else gap + 1)
      (x :: r.1, r.2.1, r.2.2)

/-- Encrypt flits from a position of the segment's text on: the flits and the text they add. -/
def encFlits (key : List Byte) (cnt : Nat) : Nat → List Flit → List Flit × List Byte
  | _, [] => ([], [])
  | pos, x :: xs =>
    if hidden x then
      let c := xorBytes x.data (keyStream key cnt pos 64)
      let r := encFlits key cnt (pos + 64) xs
      ({ x with data := c } :: r.1, c ++ r.2)
    else
      let r := encFlits key cnt pos xs
      (x :: r.1, r.2)

/-- Number, store and send a new sequenced frame (R283, R285). -/
def sendSeq (s : State) (p : Nat) (flits : List Flit) (gap : Nat) : State :=
  let q := portAt s p
  let f := sealFrame ⟨flits, q.txNext, true, q.ackNum.getD 0, q.ackNum.isSome, q.xoffOut, getB s Reg.fptEnc_key_phase p, 0, 0⟩
  let s := bump s Reg.fptTxFrames_count 1 p
  let s := modPort s p (fun q => { q with
    txNext := (q.txNext + 1) % 4096, replay := q.replay ++ [f], progressNs := if q.replay.isEmpty then s.nowNs else q.progressNs })
  putFrame s p f gap

/-- Send the flits gathered on an encrypting port: a segment closes when there are fewer than four (R300). -/
def sendEnc (s : State) (p : Nat) (flits : List Flit) (gap : Nat) : State :=
  let q := portAt s p
  let key := ((nfind s.sec.txKey p).map linkKeyBytes).getD []
  let closing := decide (flits.length < 4)
  let plain := if closing then (flits ++ List.replicate 3 idleFlit).take 3 else flits
  let e := encFlits key q.txCnt q.segText.length plain
  let text := q.segText ++ e.2
  if closing then
    let tag0 : Flit := ⟨[], 0, false, 4, 0⟩
    let aad := q.segAad ++ flitAad e.1 ++ flitAad [tag0]
    let tag := { tag0 with data := fixLen 64 (natToLe 16 (segTag key q.txCnt aad text) ++ natToLe 8 q.txCnt) }
    let s := sendSeq s p (e.1 ++ [tag]) gap
    modPort s p (fun q => { q with segFlits := 0, segFrames := 0, segAad := [], segText := [], txCnt := q.txCnt + 1 })
  else
    let s := sendSeq s p e.1 gap
    modPort s p (fun q => { q with segFlits := q.segFlits + 4, segFrames := q.segFrames + 1, segAad := q.segAad ++ flitAad e.1, segText := text })

/-- A segment is open. -/
def segOpen (q : PortState) : Bool := q.segFrames != 0

/-- Send one new frame: sequenced where there is a flit to send and room, else unsequenced (R284, R285, R362). -/
def sendNew (s : State) (p : Nat) : State :=
  let q := portAt s p
  let enc := getB s Reg.fptStatus_enc_active p
  let idle := fun (s : State) => putFrame s p (unseqFrame s p []) (q.vzGap + 4)
  if 1024 ≤ q.replay.length ∨ (enc && q.rekey && !segOpen q) = true then idle s
  else
    let g := gather (if enc && q.segFrames == 31 then 3 else 4) s p q.vzGap
    let n := g.1.length
    let s := g.2.2
    if n = 0 ∧ (enc && segOpen q) = false then idle s
    else if enc then sendEnc s p g.1 (g.2.1 + (4 - n))
    else sendSeq s p ((g.1 ++ List.replicate 4 idleFlit).take 4) (g.2.1 + (4 - n))

/-- Slots since the last VZ flit after a stored frame passes again. -/
def gapAfter (gap : Nat) (fl : List Flit) : Nat := fl.foldl (fun g x => if hidden x && x.vc == 4 then 0 else g + 1) gap

/-- Resend the next stored frame of a replay (R288). -/
def sendReplay (s : State) (p : Nat) (began next : Nat) : State :=
  let q := portAt s p
  match q.replay.find? (fun f => f.seq == next) with
  | none => setB (modPort s p (fun q => { q with rpt := none })) Reg.fptStatus_replaying false p
  | some f =>
    let f := sealFrame { f with ack := q.ackNum.getD 0, ackValid := q.ackNum.isSome, xoff := q.xoffOut, keyPhase := getB s Reg.fptEnc_key_phase p }
    let s := putFrame s p f (gapAfter q.vzGap f.flits)
    let nn := (next + 1) % 4096
    let more := decide (nn ≠ q.txNext)
    setB (modPort s p (fun q => { q with rpt := if more then some (began, nn) else none })) Reg.fptStatus_replaying more p

/-- FRAME_TRANSMIT (R284, R285, R288, R292, R300): LCTL flits first, then a replay, then new frames. -/
def execFrameTransmit (port : Nat) (s : State) : Out :=
  if 12 ≤ port ∨ portState s port ≠ 4 then .next s
  else
    let s := updXoff s port
    let q := portAt s port
    if !q.lctl.isEmpty then
      let fl := (q.lctl.take 4).map (fun x => lctlFlit x.1 x.2)
      let s := putFrame s port (unseqFrame s port fl) (q.vzGap + 4)
      .next (modPort s port (fun q => { q with lctl := q.lctl.drop 4 }))
    else match q.rpt with
      | some r => .next (sendReplay s port r.1 r.2)
      | none => .next (sendNew s port)

/-! FRAME_RECEIVE -/

/-- A flit of the frame would find its region full (R291). -/
def overruns (s : State) (p : Nat) (f : Frame) : Bool :=
  (List.range 5).any (fun vc =>
    decide ((vcRegion s p vc).1 < heldFlits s p vc + (f.flits.filter (fun x => hidden x && x.vc == vc)).length)
    && f.flits.any (fun x => hidden x && x.vc == vc))

/-- Deliver the flits of verified frames. -/
def deliver (s : State) (p : Nat) (xs : List Flit) : State := updXoff (xs.foldl (fun s x => takeFlit s p x) s) p

/-- The segment that a TAG closes fails to verify (R301): the third failure in a row from one number takes the port DOWN. -/
def tagFail (s : State) (p first : Nat) : State :=
  let s := bump s Reg.fptTagFail_count 1 p
  let s := modPort s p (fun q => { q with
    segRx := [], exp := first, asked := some s.nowNs, lctl := q.lctl ++ [(1, first)],
    tagFails := if q.tagFails ≠ 0 ∧ q.tagStart = first then q.tagFails + 1 else 1, tagStart := first })
  if 3 ≤ (portAt s p).tagFails then linkDown (logFpt s 8 p) p 6 else s

/-- Verify and deliver a segment (R300, R301, R362). -/
def closeSegment (s : State) (p : Nat) (frames : List Frame) (last : Nat) : State :=
  let q := portAt s p
  let first := ((frames.head?).map (·.seq)).getD last
  match nfind s.sec.rxKey p with
  | none => tagFail s p first
  | some k =>
    let phase := ((frames.head?).map (·.keyPhase)).getD q.rxPhase
    let moved := phase != q.rxPhase
    let k := if moved then { k with gen := (k.gen + 1) % 65536 } else k
    let cnt := if moved then 0 else q.rxCnt
    let key := linkKeyBytes k
    let flits := frames.flatMap (·.flits)
    let tagData := fixLen 64 (((flits.getLast?).getD idleFlit).data)
    let text := (flits.filter hidden).flatMap (fun x => fixLen 64 x.data)
    if leToNat (tagData.take 16) ≠ segTag key cnt (flitAad flits) text ∨ leToNat ((tagData.drop 16).take 8) ≠ cnt then tagFail s p first
    else
      let plain := (encFlits key cnt 0 (flits.map (fun x => { x with data := fixLen 64 x.data }))).1
      let s := { s with sec := { s.sec with rxKey := nput s.sec.rxKey p k } }
      let s := modPort s p (fun q => { q with segRx := [], rxCnt := cnt + 1, rxPhase := phase, tagFails := 0, ackNum := some last })
      deliver s p plain

/-- A sequenced frame with the expected number (R287, R291, R301). -/
def acceptFrame (s : State) (p : Nat) (f : Frame) : State :=
  let s := modPort s p (fun q => { q with asked := none })
  if overruns s p f then askReplay (bump (bump s Reg.fptOverrun_count 1 p) Reg.fptSeqDiscard_count 1 p) p
  else
    let s := bump s Reg.fptRxFrames_count 1 p
    let s := modPort s p (fun q => { q with exp := (q.exp + 1) % 4096 })
    if !getB s Reg.fptStatus_enc_active p then
      deliver (modPort s p (fun q => { q with ackNum := some (f.seq % 4096) })) p f.flits
    else
      let frames := (portAt s p).segRx ++ [f]
      if ((f.flits.getD 3 idleFlit).ty == 4) || decide (32 ≤ frames.length) then closeSegment s p frames (f.seq % 4096)
      else updXoff (modPort s p (fun q => { q with segRx := frames })) p

/-- FRAME_RECEIVE (R281, R286, R287): symbols corrected in it, whether a codeword it overlaps could not be corrected, and the frame. -/
def execFrameReceive (port fecCorr : Nat) (fecUncorr : Bool) (f : Frame) (s : State) : Out :=
  if 12 ≤ port ∨ portState s port ≠ 4 then .next s
  else
    let s := bump s Reg.fptFecCorr_count fecCorr port
    let s := if fecUncorr then bump s Reg.fptFecUncorr_count 1 port else s
    if fecUncorr || crc32 (frameBytes f) != f.crc || !frameForm f then .next (askReplay (bump s Reg.fptCrcErr_count 1 port) port)
    else
      let s := if f.ackValid then takeAck s port (f.ack % 4096) else s
      let s := modPort s port (fun q => { q with xoffIn := f.xoff % 32 })
      let s := (f.flits.filter (fun x => x.ty == 5)).foldl (fun s x => takeLctl s port x) s
      if !f.seqValid ∨ portState s port ≠ 4 then .next s
      else
        let e := (portAt s port).exp
        let behind := (e + 4096 - f.seq % 4096) % 4096
        if behind = 0 then .next (acceptFrame s port f)
        else
          let s := bump s Reg.fptSeqDiscard_count 1 port
          if behind ≤ 1024 then .next s else .next (askReplay s port)

/-! Replay, retraining and round trips as events of their own -/

/-- REPLAY_REQ of the peer (R286, R288). -/
def execReplayReq (port number : Nat) (s : State) : Out :=
  if 12 ≤ port ∨ portState s port ≠ 4 then .next s else .next (takeReplayReq s port number)

/-- REPLAY_TIMEOUT (R288). -/
def execReplayTimeout (port : Nat) (s : State) : Out :=
  let q := portAt s port
  if 12 ≤ port ∨ portState s port ≠ 4 ∨ q.replay.isEmpty then .next s
  else
    let s := advance s (q.progressNs + replayNs s port)
    .next (beginReplay (modPort s port (fun q => { q with progressNs := s.nowNs })) port (oldestNum q))

/-- REPLAY_REQ_RESEND_TIMEOUT (R287). -/
def execReplayReqResendTimeout (port : Nat) (s : State) : Out :=
  match (portAt s port).asked with
  | none => .next s
  | some t =>
    if 12 ≤ port then .next s
    else .next (modPort (advance s (t + replayNs s port)) port (fun q => { q with asked := none }))

/-- RETRAIN_REQ of the peer (R295). -/
def execRetrainReq (port : Nat) (s : State) : Out := if 12 ≤ port then .next s else .next (startRetrain s port)

/-- RTT_PROBE of the peer: it is answered in the next unsequenced frame (R294). -/
def execRttProbe (port stamp : Nat) (s : State) : Out :=
  if 12 ≤ port ∨ portState s port ≠ 4 then .next s else .next (queueLctl s port 4 stamp)

/-- RTT_ECHO of the peer (R290, R294). -/
def execRttEcho (port stamp : Nat) (s : State) : Out :=
  if 12 ≤ port ∨ portState s port ≠ 4 then .next s else .next (takeEcho s port stamp)

/-- RTT_PROBE_TIMER (R294). -/
def execRttProbeTimer (port : Nat) (s : State) : Out :=
  if 12 ≤ port ∨ portState s port ≠ 4 then .next s else .next (queueLctl s port 3 s.nowNs)

/-! Lanes (R295, R296) -/

/-- A receive lane carries data: not failed, the spare only in use, and of the half that runs at x4. -/
def laneActive (s : State) (p lane : Nat) : Bool :=
  let failed := getF s Reg.fptLane_rx_failed p
  let sp := getF s Reg.fptStatus_rx_spare_for p
  let logical := if lane = 8 then sp else lane
  let dead := (List.range 8).filter (fun l => bitOf failed l && l != sp)
  decide (lane ≤ 8) && !bitOf failed lane && decide (logical < 8)
    && (!getB s Reg.fptStatus_rx_x4 p || dead.all (fun l => decide (l / 4 ≠ logical / 4)))

/-- LOSS_OF_SIGNAL, or of FEC lock, on a lane (R295). -/
def execLossOfSignal (port lane : Nat) (s : State) : Out :=
  if 12 ≤ port ∨ !laneActive s port lane then .next s else .next (startRetrain s port)

/-- LANE_ERROR_LIMIT (R295, R296): the lane is marked failed. -/
def execLaneErrorLimit (port lane : Nat) (s : State) : Out :=
  if 12 ≤ port ∨ portState s port ≠ 4 ∨ getF s Reg.fptLaneCtl_ser_limit port = 0 ∨ !laneActive s port lane then .next s
  else .next (startRetrain (setF s Reg.fptLane_rx_failed (Nat.lor (getF s Reg.fptLane_rx_failed port) (2 ^ lane)) port) port)

/-- Both directions run with the lanes now marked, or the port cannot run (R296). -/
def runLanes (s : State) (p rxFail txFail : Nat) : Option State :=
  let rx := Nat.lor (getF s Reg.fptLane_rx_failed p) (rxFail % 512)
  let tx := Nat.lor (getF s Reg.fptLane_tx_failed p) (txFail % 512)
  let a := getB s Reg.fptCtl_allow_x4 p
  let rs := getF s Reg.fptStatus_rx_spare_for p
  let ts := getF s Reg.fptStatus_tx_spare_for p
  let r4 := getB s Reg.fptStatus_rx_x4 p
  let t4 := getB s Reg.fptStatus_tx_x4 p
  let s := setF (setF s Reg.fptLane_rx_failed rx p) Reg.fptLane_tx_failed tx p
  match laneRun rx a rs, laneRun tx a ts with
  | some x, some y =>
    let s := setB (setF s Reg.fptStatus_rx_spare_for x.1 p) Reg.fptStatus_rx_x4 x.2 p
    let s := setB (setF s Reg.fptStatus_tx_spare_for y.1 p) Reg.fptStatus_tx_x4 y.2 p
    let s := if x.1 < 8 ∧ x.1 ≠ rs then logFpt s 5 p x.1 else s
    let s := if y.1 < 8 ∧ y.1 ≠ ts then logFpt s 5 p y.1 else s
    let s := if x.2 && !r4 then logFpt s 6 p else s
    some (if y.2 && !t4 then logFpt s 6 p else s)
  | _, _ => none

/-! Training and link instances (R293, R294) -/

/-- Setting FPT_p_CTL.enable. -/
def portEnable (s : State) (p : Nat) : State :=
  let s := setB s Reg.fptCtl_enable true p
  if portState s p ≠ 0 then s else modPort (setF s Reg.fptStatus_state 1 p) p (fun q => { q with sinceNs := s.nowNs })

/-- Clearing FPT_p_CTL.enable: DISABLED from any state, with the effects of R297. -/
def portDisable (s : State) (p : Nat) : State :=
  let s := setB s Reg.fptCtl_enable false p
  if portState s p = 0 then s else linkDown s p 0

/-- A write of 1 to FPT_p_CTL.retrain: ignored outside ACTIVE (R295). -/
def portRetrain (s : State) (p : Nat) : State :=
  if portState s p ≠ 4 then s else startRetrain (setB s Reg.fptCtl_retrain true p) p

/-- PORT_ENABLE (R293). -/
def execPortEnable (port : Nat) (s : State) : Out := if 12 ≤ port then .next s else .next (portEnable s port)

/-- PORT_DISABLE (R293, R297). -/
def execPortDisable (port : Nat) (s : State) : Out := if 12 ≤ port then .next s else .next (portDisable s port)

/-- PORT_RETRAIN (R295). -/
def execPortRetrain (port : Nat) (s : State) : Out := if 12 ≤ port then .next s else .next (portRetrain s port)

/-- DETECT_SIGNAL (R293): training from DETECT tests every lane afresh (R296). -/
def execDetectSignal (port : Nat) (s : State) : Out :=
  if 12 ≤ port ∨ portState s port ≠ 1 then .next s
  else
    let s := setF (setF s Reg.fptLane_rx_failed 0 port) Reg.fptLane_tx_failed 0 port
    let s := setF (setF s Reg.fptStatus_rx_spare_for 15 port) Reg.fptStatus_tx_spare_for 15 port
    let s := setB (setB s Reg.fptStatus_rx_x4 false port) Reg.fptStatus_tx_x4 false port
    .next (modPort (setF s Reg.fptStatus_state 2 port) port (fun q => { q with sinceNs := s.nowNs }))

/-- TRAIN_DONE (R293): to CONFIG, or back to DETECT on failure. -/
def execTrainDone (port : Nat) (ok : Bool) (s : State) : Out :=
  if 12 ≤ port ∨ portState s port ≠ 2 then .next s
  else .next (modPort (setF s Reg.fptStatus_state (if ok then 3 else 1) port) port (fun q => { q with sinceNs := s.nowNs }))

/-- The four regions meet the rules of FPT_p_VC_n. -/
def regionsOk (s : State) (p : Nat) : Bool :=
  decide (((List.range 4).map (fun vc => (vcRegion s p vc).1)).sum ≤ 20224)
  && (List.range 4).all (fun vc => decide ((vcRegion s p vc).2.2 < (vcRegion s p vc).2.1) && decide ((vcRegion s p vc).2.1 ≤ (vcRegion s p vc).1))

/-- The port enters ACTIVE as a new link instance, or is refused (R294, R300, R361). -/
def newInstance (s : State) (p : Nat) (c : CfgInfo) : State :=
  if !regionsOk s p then linkDown (logFpt s 9 p) p 6
  else
    let both := getB s Reg.fptEnc_enc_en p && c.enc
    let secret := if both then pairOf s p else none
    let s := if both && secret.isNone then logSec s 5 (some p) none else s
    if (getB s Reg.fptEnc_enc_required p || c.encReq) && secret.isNone then linkDown (logFpt s 8 p) p 6
    else match runLanes s p c.rxFail c.txFail with
      | none => linkDown s p 6
      | some s =>
        let b := freshBytes 32 s
        let s := b.2
        let nonce := leToNat b.1
        let peer := c.nonce % 2 ^ 256
        let s := setF (setF s Reg.fptPeer_node c.node p) Reg.fptPeer_port c.port p
        let s := setB (setB s Reg.fptPeer_sr2 c.sr2 p) Reg.fptPeer_enc_capable c.enc p
        let s := setF (setB s Reg.fptStatus_enc_active secret.isSome p) Reg.fptStatus_state 4 p
        let s := match secret with
          | none => s
          | some k =>
            let n := leToNat k
            { s with sec := { s.sec with txKey := nput s.sec.txKey p ⟨n, nonce, peer, s.dev.node, c.node % 16384, 0⟩,
                                         rxKey := nput s.sec.rxKey p ⟨n, peer, nonce, c.node % 16384, s.dev.node, 0⟩ } }
        let s := modPort s p (fun q => { port0 with
          sinceNs := s.nowNs, nonce := nonce, peerNonce := peer, xoffOut := q.xoffOut, progressNs := s.nowNs, keyNs := s.nowNs })
        logFpt (noteRtt (linkView s p) p c.rttNs) 1 p

/-- CONFIG ends: the nonce of a new instance waits while the health tests fail (R353). -/
def configEnd (s : State) (p : Nat) (c : CfgInfo) : State :=
  if getB s Reg.secStatus_trng_ok then newInstance (modPort s p (fun q => { q with cfgWait := none })) p c
  else modPort s p (fun q => { q with cfgWait := some c })

/-- CONFIG_DONE (R294). -/
def execConfigDone (port : Nat) (c : CfgInfo) (s : State) : Out :=
  if 12 ≤ port ∨ portState s port ≠ 3 then .next s else .next (configEnd s port c)

/-- Packets routed to a port that leaves RETRAIN: the time does not count toward their hold limit (R309). -/
def creditRetrain (s : State) (p : Nat) : State :=
  let since := (portAt s p).sinceNs
  let ids := ((s.rtr.inq.flatMap (·.2)) ++ (s.rtr.outq.flatMap (·.2))).filter (fun r => r.out.any (fun k => k / 8 == p))
  ids.foldl (fun s r => modPkt s r.id (fun x => { x with retrainNs := x.retrainNs + (s.nowNs - max since x.sinceNs) })) s

/-- RETRAIN_DONE (R294, R296): the instance resumes, or the port goes DOWN. -/
def execRetrainDone (port : Nat) (c : CfgInfo) (s : State) : Out :=
  if 12 ≤ port ∨ portState s port ≠ 5 then .next s
  else
    let q := portAt s port
    let d := (c.expected % 4096 + 4096 - oldestNum q) % 4096
    let same := getF s Reg.fptPeer_node port == c.node && getF s Reg.fptPeer_port port == c.port && getB s Reg.fptPeer_sr2 port == c.sr2
    if !same || !regionsOk s port || decide (q.replay.length < d) then .next (linkDown (logFpt s 9 port) port 6)
    else if (getB s Reg.fptEnc_enc_required port || c.encReq) && !getB s Reg.fptStatus_enc_active port then
      .next (linkDown (logFpt s 8 port) port 6)
    else match runLanes s port c.rxFail c.txFail with
      | none => .next (linkDown s port 6)
      | some s =>
        let s := creditRetrain s port
        let s := setB (setF s Reg.fptStatus_state 4 port) Reg.fptCtl_retrain false port
        let s := freeFrames s port d
        let s := modPort s port (fun q => { q with sinceNs := s.nowNs, progressNs := s.nowNs, runs := 0, asked := none, rpt := none })
        let s := setB (logFpt s 3 port) Reg.fptStatus_replaying false port
        let s := noteRtt s port c.rttNs
        .next (if (portAt s port).replay.isEmpty then s else beginReplay s port (oldestNum (portAt s port)))

/-- RETRAIN_TIMEOUT (R293): not ACTIVE within 2 ms of entering RETRAIN. -/
def execRetrainTimeout (port : Nat) (s : State) : Out :=
  if 12 ≤ port ∨ portState s port ≠ 5 then .next s
  else
    let s := advance s ((portAt s port).sinceNs + 2000000)
    .next (linkDown (creditRetrain s port) port 6)

/-- AUTO_UP_TIMER (R293): 100 ms in DOWN with auto_up set. -/
def execAutoUpTimer (port : Nat) (s : State) : Out :=
  if 12 ≤ port ∨ portState s port ≠ 6 ∨ !getB s Reg.fptCtl_auto_up port then .next s
  else
    let s := advance s ((portAt s port).sinceNs + 100000000)
    .next (modPort (setF s Reg.fptStatus_state 1 port) port (fun q => { q with sinceNs := s.nowNs }))

/-! Key changes (R353, R362) -/

/-- REKEY_TIMER (R362): rekey_ms has passed since the last change, or the segment counter has reached 2^32. -/
def execRekeyTimer (port : Nat) (s : State) : Out :=
  let q := portAt s port
  let ms := getF s Reg.secLinkCtl_rekey_ms
  if 12 ≤ port ∨ !getB s Reg.fptStatus_enc_active port then .next s
  else if 2 ^ 32 ≤ q.txCnt then .next (beginRekey s port)
  else if ms = 0 then .next s
  else .next (beginRekey (advance s (q.keyNs + ms * 1000000)) port)

/-- LINK_REKEY of SEC_KCMD; its record is posted as the change begins (DESIGN CHOICE, log 59). -/
def linkRekey (s : State) (port tag : Nat) : State :=
  let p := port % 16
  let res := if 12 ≤ p then 3 else if !sccqRoom s then 1 else 0
  let s := kcmd s (getF s Reg.secKcmd_tenant) p tag res
  if res ≠ 0 then s else secDone (beginRekey s p) 2 tag 0

/-- LINK_REKEY (R362). -/
def execLinkRekey (port tag : Nat) (s : State) : Out := .next (linkRekey s port tag)

/-- KEY_PHASE_SWITCH (R362 steps 3 and 4): once no frame is unacknowledged. -/
def execKeyPhaseSwitch (port : Nat) (s : State) : Out :=
  let q := portAt s port
  match nfind s.sec.txKey port with
  | none => .next s
  | some k =>
    if 12 ≤ port ∨ portState s port ≠ 4 ∨ !q.rekey ∨ !q.replay.isEmpty ∨ segOpen q then .next s
    else
      let ph := !getB s Reg.fptEnc_key_phase port
      let s := setB (setB s Reg.fptEnc_key_phase ph port) Reg.secLink_key_phase ph port
      let s := { s with sec := { s.sec with txKey := nput s.sec.txKey port { k with gen := (k.gen + 1) % 65536 } } }
      .next (linkView (modPort s port (fun q => { q with rekey := false, txCnt := 0, keyNs := s.nowNs })) port)

/-- TRNG_HEALTH_PASS (R353): operations that wait for a random value go on. -/
def execTrngHealthPass (s : State) : Out :=
  if getF s Reg.secStatus_rot_state = 0 then .next s
  else
    let s := secView (setB s Reg.secStatus_trng_ok true)
    .next ((List.range 12).foldl (fun s p => match (portAt s p).cfgWait with
      | some c => if portState s p = 3 then configEnd s p c else s
      | none => s) s)

end Sys2Proof.Machine
end

