-- ==== Sys2Proof/Machine/Domains.lean ====
section
/-!
DEFINITION. Machine/Domains.lean: the power domains (spec 18 R389), the blocks that each holds (spec 01), and the MGT error ring.
-/
namespace Sys2Proof.Machine
open Sys2Proof

/-- Domain d is powered (PWR_PD_STATE). -/
def pdOn (s : State) (d : Nat) : Bool :=
  if d < 64 then bitOf (getF s Reg.pwrPdState0_isOn) d else bitOf (getF s Reg.pwrPdState1_isOn) (d - 64)

/-- Set the power state of domain d. -/
def setPd (s : State) (d : Nat) (on : Bool) : State :=
  if d < 64 then setF s Reg.pwrPdState0_isOn (putBits (getF s Reg.pwrPdState0_isOn) d 1 (b2n on))
  else setF s Reg.pwrPdState1_isOn (putBits (getF s Reg.pwrPdState1_isOn) (d - 64) 1 (b2n on))

/-- The domain of physical engine slot k of a stack (spec 04): slots 0 to 4 in A, 5 to 8 in B. -/
def slotDomain (stack k : Nat) : Nat := 12 + 2 * stack + (if k < 5 then 0 else 1)

/-- The domain of logical engine n as mapped; none while it is ABSENT. -/
def engineDomain (s : State) (n : Nat) : List Nat :=
  if getF s Reg.nmeStatus_state n = 2 then [] else [slotDomain (n / 8) (getF s Reg.nmeStatus_phys_slot n)]

/-- The domains that hold the registers at a BAR0 offset (R338, spec 01): the block is off while all of them are, and ranges with none are
always on. The registers common to many instances are answered always (DESIGN CHOICE, log 62). -/
def offDomains (s : State) (off : Nat) : List Nat :=
  if off < 0x100000 then [48]
  else if off < 0x300000 then []
  else if off < 0x400000 then
    (if off = 0x300010 ∨ off = 0x300020 then [65] else if off = 0x300018 ∨ off = 0x300028 then [66] else [65, 66])
  else if off < 0x500000 then [67]
  else if off < 0x600000 then [68]
  else if off < 0x1000000 then []
  else if off < 0x1800000 then [51]
  else if off < 0x2000000 then [52]
  else if off < 0x2800000 then [53]
  else if off < 0x3000000 then [54, 55, 56, 57, 58, 59, 60, 61]
  else if off < 0x3600000 then engineDomain s ((off - 0x3000000) / 0x10000)
  else if off < 0x4000000 then []
  else if off < 0x4800000 then [62, 63]
  else if off < 0x5000000 then [64]
  else if off < 0x5C00000 then [(off - 0x5000000) / 0x100000]
  else if off < 0x6000000 then []
  else if off < 0x7000000 then [69]
  else if off < 0x8000000 then [70]
  else if off < 0x9000000 then [50]
  else if off < 0xA000000 then [49]
  else if off < 0xAC00000 then [36 + (off - 0xA000000) / 0x100000]
  else []

/-- The block at a BAR0 offset is off. -/
def blockOff (s : State) (off : Nat) : Bool := offDomains s off != [] && (offDomains s off).all (fun d => !pdOn s d)

/-- An entry of the MGT error ring: pair 0 A or 1 B, or a domain for cause 0x09; `aux` the diagnosis cause (R442). -/
def logMgt (s : State) (cause unit aux : Nat) : State := logErr s ringMgt cause ⟨none, 0, unit, 0, aux⟩

/-- An entry of the HIF error ring that names a function, 0xFF none (R442). -/
def logHif (s : State) (cause fn : Nat) : State := logErr s ringHif cause ⟨none, 0, fn, 0, 0⟩

/-- Record an access under R339: the entry, and the capture when none is held. -/
def recordAccess (s : State) (cause off : Nat) (write : Bool) : State :=
  let s := logErr s ringHif cause ⟨none, 5, 0, off, 0⟩
  if getB s Reg.hifAccErr_valid then s
  else setB (setB (setF (setF s Reg.hifAccErr_offset off) Reg.hifAccErr_cause cause) Reg.hifAccErr_write write) Reg.hifAccErr_valid true

end Sys2Proof.Machine
end

