-- ==== Sys2Proof/Machine/HostIf.lean ====
section
/-!
DEFINITION. Machine/HostIf.lean: the PCIe endpoint: link, functions and their resets, and the management mailbox of HIF
(spec 16 R334 to R351).
-/
namespace Sys2Proof.Machine
open Sys2Proof

/-! The management mailbox (R347 to R351) -/

/-- Byte i of a message. -/
def msgByte (m : List Byte) (i : Nat) : Nat := (m.getD i 0).toNat

/-- The command code of a message (R348). -/
def msgCmd (m : List Byte) : Nat := msgByte m 0

/-- The tag of a message (R348). -/
def msgTag (m : List Byte) : Nat := msgByte m 2 + 256 * msgByte m 3

/-- The body of a message (R348). -/
def msgBody (m : List Byte) : List Byte := (m.drop 16).take (msgByte m 4)

/-- The response to a message: status, hint and body (R348). -/
def rspMsg (m : List Byte) (source st hint : Nat) (body : List Byte) : List Byte :=
  natToLe 1 (msgCmd m) ++ natToLe 1 st ++ natToLe 2 (msgTag m) ++ natToLe 1 body.length ++ natToLe 1 (source % 4) ++ natToLe 2 0
    ++ natToLe 4 0 ++ natToLe 4 hint ++ body

/-- Firmware or HIF sent a request that only a read-only command may take from an MCTP source (R347, R391, R411). -/
def readOnlyCmd (code : Nat) : Bool := [0x10, 0x11, 0x20, 0x30, 0x40, 0x48].contains code

/-- A response has entered the FIFO: PF0's vector is raised where it is enabled and can be sent. -/
def rspIrq (s : State) : State :=
  if getB s Reg.hifMbxCtl_rsp_irq_en && hostUp s 0 then emit s (.msix 0 (getF s Reg.hifMbxCtl_rsp_vector)) else s

/-- The oldest PF0 response that waits outside the FIFO enters it while there is room. -/
def fifoFill (s : State) : State :=
  if 32 ≤ s.mbx.fifo.length then s
  else match s.mbx.queue.find? (fun e => e.source == 0 && e.rsp.isSome && !s.mbx.fifo.contains e.id) with
    | none => s
    | some e => rspIrq { s with mbx := { s.mbx with fifo := s.mbx.fifo ++ [e.id] } }

/-- Deliver a response to an entry: an MCTP source takes it at once and the entry is free, PF0's waits for the FIFO (R349). -/
def answer (s : State) (e : MbxEnt) (st hint : Nat) (body : List Byte) : State :=
  let r := rspMsg e.msg e.source st hint body
  if e.source = 0 then
    fifoFill { s with mbx := { s.mbx with queue := s.mbx.queue.map (fun x => if x.id = e.id then { x with rsp := some r } else x) } }
  else emit { s with mbx := { s.mbx with queue := s.mbx.queue.filter (fun x => x.id ≠ e.id) } } (.mctp e.source r)

/-- Take a request into the queue. -/
def mbxEnqueue (s : State) (source : Nat) (m : List Byte) : State :=
  let e : MbxEnt := ⟨s.mbx.nextId, source, m, 0, none⟩
  { s with mbx := { s.mbx with queue := s.mbx.queue ++ [e], nextId := s.mbx.nextId + 1 } }

/-- Every entry is in use (R350). -/
def mbxFull (s : State) : Bool := decide (256 ≤ s.mbx.queue.length)

/-- The staged request's bytes. -/
def stagedMsg (s : State) : List Byte := (List.range 32).flatMap (fun i => natToLe 8 (getF s Reg.hifMbxReq_data i))

/-- HIF_MBX_SUBMIT.go (R349, R350). HIF sets the source. -/
def mbxSubmit (s : State) : State :=
  let m := stagedMsg s
  if 240 < msgByte m 4 then setF s Reg.hifMbxSubmit_result 2
  else if mbxFull s then logHif (setF s Reg.hifMbxSubmit_result 1) 6 0
  else mbxEnqueue (setF s Reg.hifMbxSubmit_result 0) 0 (patch (m.take (16 + msgByte m 4)) 5 [0])

/-- HIF_MBX_SUBMIT: the host writes the request's bytes into the staging words, then go. -/
def execHifMbxSubmit (bytes : List Byte) (s : State) : Out :=
  if !bar2Open s 0 then .next s
  else
    let b := fixLen 256 bytes
    .next (mbxSubmit ((List.range 32).foldl (fun s i => setF s Reg.hifMbxReq_data (leToNat ((b.drop (8 * i)).take 8)) i) s))

/-- HIF_MBX_POP.pop: the oldest response and its entry are freed, and the next waiting response enters the FIFO (R349). -/
def mbxPop (s : State) : State :=
  match s.mbx.fifo with
  | [] => s
  | id :: rest => fifoFill { s with mbx := { s.mbx with queue := s.mbx.queue.filter (fun e => e.id ≠ id), fifo := rest } }

/-- HIF_MBX_POP (R349). -/
def execHifMbxPop (s : State) : Out := if !bar2Open s 0 then .next s else .next (mbxPop s)

/-- A path of MCTP reaches HIF: the vendor-defined messages of PCIe need the link and PF0 out of D3hot. -/
def mctpOpen (s : State) (source : Nat) : Bool := s.hif.ready && (if source = 1 then hostUp s 0 else source == 2 || source == 3)

/-- MCTP_MESSAGE (R347, R350): from source 1 a PCIe message, 2 I3C, 3 SMBus; a mailbox message, or a PLDM message of type 2 carried as
command 0x30. -/
def execMctpMessage (source : Nat) (pldm : Bool) (msg : List Byte) (s : State) : Out :=
  if !mctpOpen s source then .next s
  else
    let m := if pldm then natToLe 1 0x30 ++ natToLe 3 0 ++ natToLe 1 (min msg.length 240) ++ natToLe 11 0 ++ msg.take 240 else msg
    let m := patch (m ++ List.replicate (16 - m.length) 0) 5 (natToLe 1 source)
    if 240 < msgByte m 4 ∨ m.length ≠ 16 + msgByte m 4 then .next (emit s (.mctp source (rspMsg m source 3 0 [])))
    else if !readOnlyCmd (msgCmd m) && !getB s Reg.hifCtl_mctp_write_en then .next (emit s (.mctp source (rspMsg m source 4 0 [])))
    else if mbxFull s then .next (emit (logHif s 6 0xFF) (.mctp source (rspMsg m source 1 1000 [])))
    else .next (mbxEnqueue s source m)

/-- Every request that a pair has taken and not answered is answered INTERRUPTED (R351). -/
def interruptPair (s : State) (pair : Nat) : State :=
  ((s.mbx.queue.filter (fun e => e.taken == pair && e.rsp.isNone)).foldl (fun s e => answer s e 5 0 []) s)

/-- The responses that wait for PF0 are discarded and their entries freed (R341, R343). -/
def dropResponses (s : State) : State :=
  { s with mbx := { s.mbx with queue := s.mbx.queue.filter (fun e => !(e.source == 0 && e.rsp.isSome)), fifo := [] } }

/-! Functions (R334, R335, R337, R341, R342) -/

/-- The Vendor ID of every function (R335). -/
def vendorId : Nat := 0x1E9C

/-- What configuration space says of a function (R335): Device ID, class code and MSI-X vectors. -/
structure FnIds where
  device : Nat
  cls : Nat
  vectors : Nat
deriving DecidableEq, Repr

/-- The identifiers of PF0, PF1 and the virtual functions (R335). -/
def fnIds (fn : Nat) : FnIds :=
  if fn = 0 then ⟨0x9610, 0x088000, 64⟩ else if fn = 1 then ⟨0x9612, 0x120000, 2048⟩ else ⟨0x9613, 0x120000, 64⟩

/-- Window slots of a function that hold a page; zero on PF1 (R337). -/
def dbPages (s : State) (fn : Nat) : Nat :=
  if fn = 1 then 0 else ((List.range 16).map (fun k => if (doorPage s fn k).isSome then 2 ^ k else 0)).sum

/-- The function information page, offsets 0x00 to 0x37 (R337). -/
def infoPage (s : State) (fn : Nat) : List Byte :=
  let done := getB s Reg.cfgStatus_committed
  natToLe 1 (if fn = 1 then 1 else 2) ++ natToLe 1 (fn - 2) ++ natToLe 2 0 ++ natToLe 4 s.dev.node
    ++ natToLe 1 (getF s Reg.hifBlockRev_stepping) ++ natToLe 7 (b2n done) ++ featureBytes s ++ natToLe 4 (dbPages s fn) ++ natToLe 4 0

/-- A read of the function information page; offsets beyond 0x37 return zero (R337). -/
def infoRead (s : State) (fn off n : Nat) : Nat := leToNat (((infoPage s fn).drop off).take n)

/-- A queue's doorbell page is owned by function fn (R341). -/
def ownsQueue (s : State) (fn q : Nat) : Bool :=
  if fn = 1 then getF s Reg.qmgDbpage_owner (q / 64) == 1
  else getF s Reg.qmgDbpage_owner (q / 64) == 2 && getF s Reg.qmgDbpage_vf (q / 64) == fn - 2

/-- Host leases of a function are withdrawn under R182: an invalidation over all its pages, which no host awaits. -/
def withdrawHost (s : State) (fn : Nat) : State :=
  let pasids := dedupSort ((s.hif.ats.filter (fun e => e.fn == fn)).map (·.pasid))
  pasids.foldl (fun s pasid =>
    let e := (s.xtu.epoch + 1) % 2 ^ 32
    let v : Inval := { tag := 2 ^ 32, tenant := 0, lo := 0, count := 2 ^ 52, epoch := e, toNotify := allHolders s, waiting := [], stopped := 0,
                       reqs := [], ats := some (fn, pasid) }
    { s with xtu := { s.xtu with epoch := e, invals := s.xtu.invals ++ [v] } }) s

/-- The host's configuration of PF1 takes effect (R49, R203, R334); sizes outside R334 leave the present ones. -/
def setHostCfg (s : State) (c : HostCfg) : State :=
  { s with hif := { s.hif with
      mps := if [128, 256, 512].contains c.mps then c.mps else s.hif.mps
      mrrs := if [128, 256, 512, 1024, 2048, 4096].contains c.mrrs then c.mrrs else s.hif.mrrs
      roEn := c.ro, atsPri := c.atsPri } }

/-- The configuration of a function that has been reset: the defaults of PCI Express (PRESUMED, log 129). -/
def defaultCfg : HostCfg := ⟨128, 512, true, false⟩

/-- R341 on PF1 or a virtual function. -/
def resetFn (s : State) (fn : Nat) : State :=
  let qs := s.qmg.live.filter (ownsQueue s fn)
  -- records on their way to the host are discarded with the writes (step 1)
  let s := { s with
    hif := { s.hif with mute := s.hif.mute ++ qs.filter (fun q => !s.hif.mute.contains q),
                        waits := s.hif.waits.filter (fun w => match w.who with | .cq q => !qs.contains q | _ => true) }
    qmg := { s.qmg with cqOut := s.qmg.cqOut.filter (fun o => !qs.contains o.queue) } }
  let s := qs.foldl abortQueue s
  let s := withdrawHost s fn
  let s := { s with hif := { s.hif with ats := s.hif.ats.filter (fun e => e.fn ≠ fn) } }
  let s := (s.hif.waits.filter (fun w => w.fn == fn)).foldl (fun s w => atsFail s w .timeout) s
  let s := if fn = 1 then setHostCfg s defaultCfg else s
  logHif { s with hif := { s.hif with d3 := s.hif.d3.filter (fun f => f ≠ fn), aer := s.hif.aer.filter (fun e => e.1 ≠ fn) } } 3 fn

/-- Leave only the first n virtual functions: R341 for each that ceases to exist, highest last (R342). -/
def keepVfs (s : State) (n : Nat) : State :=
  let s := ((List.range s.hif.vfs).filter (fun v => decide (n ≤ v))).foldl (fun s v => resetFn s (2 + v)) s
  { s with hif := { s.hif with vfs := min n s.hif.vfs } }

/-- Configuration requests are answered: HIF is ready and the link is up (R345). -/
def cfgOpen (s : State) : Bool := s.hif.ready && s.hif.linkUp

/-- FUNCTION_LEVEL_RESET (R341). PF1's configuration holds VF Enable, so its virtual functions end with it. -/
def execFunctionLevelReset (fn : Nat) (s : State) : Out :=
  if !cfgOpen s then .next s
  else if fn = 0 then
    .next (dropResponses { s with hif := { s.hif with d3 := s.hif.d3.filter (fun f => f ≠ 0), aer := s.hif.aer.filter (fun e => e.1 ≠ 0) } })
  else if fn = 1 then .next (resetFn (keepVfs s 0) 1)
  else if fn < 2 + s.hif.vfs then .next (resetFn s fn)
  else .next s

/-- VF_ENABLE (R342, R334: TotalVFs 64): virtual functions 0 to n − 1 exist. -/
def execVfEnable (n : Nat) (s : State) : Out :=
  if cfgOpen s && !s.hif.d3.contains 1 then .next { s with hif := { s.hif with vfs := max s.hif.vfs (min n 64) } } else .next s

/-- VF_DISABLE (R342): only virtual functions 0 to n − 1 stay; clearing VF Enable leaves none. -/
def execVfDisable (n : Nat) (s : State) : Out := if cfgOpen s then .next (keepVfs s n) else .next s

/-- D3HOT_TRANSITION (R334): into or out of D3hot. -/
def execD3hotTransition (fn : Nat) (enter : Bool) (s : State) : Out :=
  if !cfgOpen s ∨ 2 + s.hif.vfs ≤ fn then .next s
  else
    let rest := s.hif.d3.filter (fun f => f ≠ fn)
    .next { s with hif := { s.hif with d3 := if enter then rest ++ [fn] else rest } }

/-! The link (R343, R344) -/

/-- The effects of DL_Down (R343). -/
def dlDown (s : State) : State :=
  let s := setHostCfg { s with hif := { s.hif with linkUp := false, vfs := 0, d3 := [], ats := [] } } defaultCfg
  let s := setB (setF (setF s Reg.hifLink_speed 0) Reg.hifLink_width 0) Reg.hifLink_flit false
  let s := bumpSat (setB s Reg.hifLink_up false) Reg.hifLink_down_count
  let s := s.hif.waits.foldl (fun s w => atsFail s w .timeout) s
  let s := s.dma.reads.foldl (fun s q => if s.dma.reads.contains q then hostFail s q 2 .timeout else s) s
  logHif (dropResponses { s with hif := { s.hif with aer := [] } }) 4 0xFF

/-- PCIE_LINK_DOWN (R343). -/
def execPcieLinkDown (s : State) : Out := if s.hif.linkUp then .next (dlDown s) else .next s

/-- PCIE_RESET (R344): PCIE_PERST_N, a Hot Reset or a Secure Bus Reset has the effects of DL_Down. -/
def execPcieReset (s : State) : Out := if pdOn s 48 then .next (dlDown s) else .next s

/-- The link trains at a speed of 1 to 6 and a width of R334; flit mode is required at 64 GT/s. -/
def linkTrain (s : State) (speed width : Nat) (flit : Bool) : State :=
  let sp := clamp 1 (clamp 1 6 (fieldValue s 8 0)) speed
  let w := if [1, 2, 4, 8, 16].contains width then width else 16
  let s := setF (setF (setB s Reg.hifLink_up true) Reg.hifLink_speed sp) Reg.hifLink_width w
  { setB s Reg.hifLink_flit (flit || sp == 6) with hif := { s.hif with linkUp := true } }

/-- PCIE_LINK_UP (R343, R345): the link returns, and the host enumerates and configures the functions. -/
def execPcieLinkUp (speed width : Nat) (link : LinkUp) (s : State) : Out :=
  if !pdOn s 48 ∨ s.hif.linkUp then .next s else .next (setHostCfg (linkTrain s speed width link.flit) link.host)

/-- BLOCK_UNAVAILABLE_TIMEOUT (R339): a block has not answered an aligned access of 4 or 8 bytes within 20 µs; a read returns all ones, a
write is discarded. An 8-byte access that covers two 32-bit registers records each half. -/
def execBlockUnavailableTimeout (off bytes : Nat) (write : Bool) (s : State) : Out :=
  if !bar2Open s 0 ∨ ¬ (bytes = 4 ∨ bytes = 8) ∨ off % bytes ≠ 0 ∨ 2 ^ 28 ≤ off then .next s
  else
    let wide := Reg.table.any (fun r => r.width == 64 && decide (r.off ≤ off) && decide ((off - r.off) % (max 1 r.stride) = 0)
      && decide ((off - r.off) / (max 1 r.stride) < r.count))
    let s := recordAccess s 2 off write
    let s := if bytes = 8 ∧ !wide then recordAccess s 2 (off + 4) write else s
    .next (if write then s else emit s (.readData off (2 ^ (8 * bytes) - 1)))

end Sys2Proof.Machine
end

