-- ==== Sys2Proof/Machine/Power.lean ====
section
/-!
DEFINITION. Machine/Power.lean: claims and the winner, self-diagnosis and takeover, operating points and limits, and the power domains
(spec 18 R374 to R390, spec 21 R437 to R440).
-/
namespace Sys2Proof.Machine
open Sys2Proof

/-! Pairs: `b` false is pair A, true pair B -/

/-- The number of a pair in PWR_CLAIM.winner. -/
def pairNo (b : Bool) : Nat := if b then 2 else 1

/-- The winner, none in the Doldrums. -/
def winner (s : State) : Option Bool :=
  if getF s Reg.pwrClaim_winner = 1 then some false else if getF s Reg.pwrClaim_winner = 2 then some true else none

/-- A pair's present bit. -/
def present (s : State) (b : Bool) : Bool := if b then getB s Reg.pwrClaimB_present else getB s Reg.pwrClaimA_present

/-- Set a pair's present bit. -/
def setPresent (s : State) (b v : Bool) : State := if b then setB s Reg.pwrClaimB_present v else setB s Reg.pwrClaimA_present v

/-- A pair's claim (R374). -/
def claimOf (s : State) (b : Bool) : Nat :=
  if present s b then (if b then getF s Reg.pwrClaimCfg_level_b else getF s Reg.pwrClaimCfg_level_a) * 2 + b2n b else 0

/-- A pair's state (MGT_A_STATUS, MGT_B_STATUS). -/
def pairState (s : State) (b : Bool) : Nat := if b then getF s Reg.mgtBStatus_state else getF s Reg.mgtAStatus_state

/-- Set a pair's state. -/
def setPairState (s : State) (b : Bool) (v : Nat) : State := if b then setF s Reg.mgtBStatus_state v else setF s Reg.mgtAStatus_state v

/-- Set a pair's diag_cause. -/
def setDiag (s : State) (b : Bool) (v : Nat) : State := if b then setF s Reg.mgtBStatus_diag_cause v else setF s Reg.mgtAStatus_diag_cause v

/-- A pair's failed boots in a row. -/
def pairFails (s : State) (b : Bool) : Nat := if b then getF s Reg.mgtBStatus_fails else getF s Reg.mgtAStatus_fails

/-- Set a pair's failed boots. -/
def setFails (s : State) (b : Bool) (v : Nat) : State := if b then setF s Reg.mgtBStatus_fails v else setF s Reg.mgtAStatus_fails v

/-- A pair runs the staged image. -/
def newImage (s : State) (b : Bool) : Bool := if b then getB s Reg.mgtBStatus_new_image else getB s Reg.mgtAStatus_new_image

/-- Count a write that the gate discards (R376). -/
def gateWrite (s : State) (b : Bool) : State := if b then bumpSat s Reg.mgtBStatus_gated else bumpSat s Reg.mgtAStatus_gated

/-- A pair runs firmware: DIAG, STANDBY or ACTIVE. -/
def pairRuns (s : State) (b : Bool) : Bool := decide (2 ≤ pairState s b) && decide (pairState s b ≤ 4)

/-! The alert output (R440) -/

/-- The Doldrums have lasted alert_ms (R380). -/
def dolLong (s : State) : Bool :=
  match s.pwr.dolSince with
  | some t => decide (t + max 1 (getF s Reg.pwrWdogCtl_alert_ms) * 1000000 ≤ s.nowNs)
  | none => false

/-- ALERT_N as its conditions stand (R440). -/
def alertView (s : State) : State :=
  let ph := getF s Reg.cfgStatus_phase
  { s with pwr := { s.pwr with alert := s.pwr.trip || dolLong s || getB s Reg.pwrDvfs_hw_limited || ph == 5 || ph == 6 } }

/-! Operating points (R385 to R388, R437) -/

/-- The point that firmware commands, or that the fallback governor holds (R388). -/
def baseStage (s : State) : Nat := if (winner s).isSome then min 5 (getF s Reg.pwrDvfs_target) else 4

/-- The point PWR steps toward: the lowest of what firmware or the governor, the hardware limits and a failed AVSBus command ask. -/
def goalPoint (s : State) : Nat :=
  max (baseStage s) (max (if s.pwr.thermalHold then 5 else s.pwr.hwPoint) (s.pwr.avsHold.getD 0))

/-- hw_limited: hardware holds the point below what is commanded (R387, R437). -/
def limitView (s : State) : State :=
  alertView (setB s Reg.pwrDvfs_hw_limited (decide (baseStage s < goalPoint s) || s.pwr.avsHold.isSome))

/-- Begin the next adjacent step toward the goal (R386). A step below the point that firmware or the governor asks is a hardware step:
it is counted and logged (R387). -/
def startStep (s : State) : State :=
  let s := limitView s
  let cur := getF s Reg.pwrDvfs_current
  if s.pwr.step.isSome then s
  else if goalPoint s = cur then setB s Reg.pwrDvfs_changing false
  else
    let next := if cur < goalPoint s then cur + 1 else cur - 1
    let s := { setB s Reg.pwrDvfs_changing true with pwr := { s.pwr with step := some next } }
    if cur < next ∧ baseStage s < next then logMgt (bump s Reg.pwrThrottle_count) 8 (b2n (winner s == some true)) 0 else s

/-- The winner writes a target; a point that the fast limiter left in force ends with it (DESIGN CHOICE, log 60). -/
def writeTarget (s : State) (p : Nat) : State :=
  startStep { setF s Reg.pwrDvfs_target p with pwr := { s.pwr with hwPoint := 0 } }

/-- DVFS_TARGET (R386, R376): a pair writes PWR_DVFS.target. -/
def execDvfsTarget (b : Bool) (point : Nat) (s : State) : Out :=
  if winner s = some b then .next (writeTarget s point) else .next (gateWrite s b)

/-- DVFS_STEP_DONE (R386). Without a winner a fast-limiter condition counts as cleared once its step is done (log 60). -/
def execDvfsStepDone (s : State) : Out :=
  match s.pwr.step with
  | none => .next s
  | some p =>
    let s := setF s Reg.pwrDvfs_current p
    .next (startStep { s with pwr := { s.pwr with step := none, hwPoint := if (winner s).isSome then s.pwr.hwPoint else 0 } })

/-- AVS_TIMEOUT (R437): a command of the step in progress is not acknowledged; it is retried once, and `fails` tells that the retry
fails too. -/
def execAvsTimeout (fails : Bool) (s : State) : Out :=
  if s.pwr.step.isNone || !fails then .next s
  else
    let s := { s with pwr := { s.pwr with step := none, avsHold := some (getF s Reg.pwrDvfs_current) } }
    .next (startStep s)

/-- FAST_CURRENT_LIMIT (R387): one point below the point in force, or below the one being stepped to. -/
def execFastCurrentLimit (s : State) : Out :=
  .next (startStep { s with pwr := { s.pwr with hwPoint := min 5 (s.pwr.step.getD (getF s Reg.pwrDvfs_current) + 1) } })

/-- HW_THERMAL_THROTTLE (R387). -/
def execHwThermalThrottle (s : State) : Out := .next (startStep { s with pwr := { s.pwr with thermalHold := true } })

/-- HW_THERMAL_THROTTLE_RELEASE (R387). -/
def execHwThermalThrottleRelease (s : State) : Out := .next (startStep { s with pwr := { s.pwr with thermalHold := false } })

/-- The loops run: a pair holds the claim and no handover freezes them (R383). -/
def loopsRun (s : State) : Bool := (winner s).isSome && s.mgt.handover.isNone

/-- The power loop on an average in units of 0.1 W (R387): one point down above the cap, one up after 10 ms below 95 % of it. -/
def powerLoop (s : State) (power : Nat) : State :=
  let cap := clamp 100 1050 (getF s Reg.pwrLimits_power_cap_w)
  let cur := getF s Reg.pwrDvfs_current
  if cap * 10 < power then writeTarget { s with pwr := { s.pwr with lowRuns := 0 } } (min 5 (cur + 1))
  else if power * 2 < cap * 19 then
    if s.pwr.lowRuns + 1 < 100 then { s with pwr := { s.pwr with lowRuns := s.pwr.lowRuns + 1 } }
    else
      let s := { s with pwr := { s.pwr with lowRuns := 0 } }
      if s.mgt.hot ∨ cur ≤ s.mgt.ceiling then s else writeTarget s (cur - 1)
  else { s with pwr := { s.pwr with lowRuns := 0 } }

/-- POWER_LOOP (R387): the readings of PWR_PKG, then the loop of the winner. -/
def execPowerLoop (power icc : Nat) (s : State) : Out :=
  let s := setF (setF s Reg.pwrPkg_power power) Reg.pwrPkg_icc icc
  if loopsRun s then .next (powerLoop s (getF s Reg.pwrPkg_power)) else .next s

/-- The thermal loop on a temperature in units of 0.25 °C above −40 °C (R387). -/
def thermalLoop (s : State) (temp : Nat) : State :=
  let lim := clamp 70 100 (getF s Reg.pwrLimits_throttle_c)
  let s := { s with mgt := { s.mgt with hot := decide ((lim + 35) * 4 < temp) } }
  if (lim + 40) * 4 < temp then writeTarget s (min 5 (getF s Reg.pwrDvfs_current + 1)) else s

/-- THERMAL_LOOP (R387): the reading of PWR_TEMP, then the loop of the winner. -/
def execThermalLoop (temp : Nat) (east : Bool) (s : State) : Out :=
  let s := setB (setF s Reg.pwrTemp_temp temp) Reg.pwrTemp_die east
  if loopsRun s then .next (thermalLoop s (getF s Reg.pwrTemp_temp)) else .next s

/-! Claims (R374 to R377) -/

/-- The winner changes (R375, R377, R388, R351). -/
def changeWinner (s : State) (old new : Option Bool) : State :=
  let s := setB (setF s Reg.pwrClaim_winner ((new.map pairNo).getD 0)) Reg.pwrClaim_doldrums new.isNone
  let s := emit s .interruptPairs
  let s := match old with
    | some o => setPairState (interruptPair s (pairNo o)) o (if pairState s o = 4 then 3 else pairState s o)
    | none => s
  let s := { s with pwr := { s.pwr with hwPoint := 0, lowRuns := 0, dolSince := if new.isNone then some s.nowNs else none } }
  let s := match new with
    | some n =>
      let s := setPairState (setF s Reg.pwrDvfs_target (getF s Reg.pwrDvfs_current)) n 4
      logMgt (if old.isNone then logMgt s 5 (b2n n) 0 else s) 3 (b2n n) 0
    | none => logMgt s 4 (b2n (old == some true)) 0
  startStep s

/-- The end of an always-on cycle (R375): the higher claim stands. -/
def settleClaims (s : State) : State :=
  let s :=
    if claimOf s false = 0 ∨ claimOf s true = 0 then s
    else if claimOf s false < claimOf s true then
      logMgt (setB (setPresent s false false) Reg.pwrClaim_a_displaced true) 0x0B 0 0
    else logMgt (setB (setPresent s true false) Reg.pwrClaim_b_displaced true) 0x0B 1 0
  let s := setF (setF s Reg.pwrClaim_claim_a (claimOf s false)) Reg.pwrClaim_claim_b (claimOf s true)
  let new := if claimOf s true ≠ 0 then some true else if claimOf s false ≠ 0 then some false else none
  if new = winner s then s else changeWinner s (winner s) new

/-- A pair writes its present bit; the other pair may write its own in the same cycle. Only a pair that runs can write. -/
def writeClaims (s : State) (b v : Bool) (other : Option Bool) : State :=
  let s := if pairRuns s b then setPresent s b v else s
  let s := match other with
    | some w => if pairRuns s (!b) then setPresent s (!b) w else s
    | none => s
  settleClaims s

/-- CLAIM_RAISE (R375): `other` is what the other pair writes in the same cycle. -/
def execClaimRaise (b : Bool) (other : Option Bool) (s : State) : Out := .next (writeClaims s b true other)

/-- CLAIM_DROP (R375). -/
def execClaimDrop (b : Bool) (other : Option Bool) (s : State) : Out := .next (writeClaims s b false other)

/-! Boot, diagnosis, watchdog and takeover (R378 to R382) -/

/-- The image slot that a boot takes: the active one, or the other with boot_staged. -/
def bootSlot (s : State) (b : Bool) : Nat :=
  let staged := if b then getB s Reg.mgtBCtl_boot_staged else getB s Reg.mgtACtl_boot_staged
  if staged then 1 - s.mgt.active else s.mgt.active

/-- A pair resets and boots: it presents no claim, and its reset bit clears as the boot starts. -/
def startBoot (s : State) (b : Bool) : State :=
  let slot := bootSlot s b
  let s := settleClaims (setPresent s b false)
  let s := if b then setB (setB s Reg.mgtBCtl_reset false) Reg.mgtBStatus_new_image (slot ≠ s.mgt.active)
    else setB (setB s Reg.mgtACtl_reset false) Reg.mgtAStatus_new_image (slot ≠ s.mgt.active)
  let s := { s with mgt := if b then { s.mgt with imgB := slot } else { s.mgt with imgA := slot } }
  setPairState s b 1

/-- A diagnosis fails: the claim drops, cause 0x01 is written and the pair boots again (R378). -/
def diagFail (s : State) (b : Bool) (cause : Nat) : State :=
  let s := settleClaims (setPresent (setDiag s b cause) b false)
  startBoot (logMgt s 1 (b2n b) cause) b

/-- HEARTBEAT (R379): core 0 to 3 is A0, A1, B0, B1. -/
def execHeartbeat (core : Nat) (s : State) : Out :=
  if 4 ≤ core ∨ !pairRuns s (decide (2 ≤ core)) then .next s
  else .next { s with pwr := { s.pwr with hb := putBits s.pwr.hb core 1 1 } }

/-- WATCHDOG_EXPIRY (R379): a period of a pair that holds a claim ends; both cores have beaten, or the pair loses its claim and boots. -/
def execWatchdogExpiry (b : Bool) (s : State) : Out :=
  if claimOf s b = 0 then .next s
  else
    let lo := if b then 2 else 0
    let both := bitsOf s.pwr.hb lo 2 == 3
    let s := { s with pwr := { s.pwr with hb := putBits s.pwr.hb lo 2 0 } }
    if both then .next s
    else .next (startBoot (logMgt (setDiag (settleClaims (setPresent s b false)) b 7) 2 (b2n b) 7) b)

/-- SELF_DIAG_PERIODIC (R378): the winner's run passes (cause 0) or fails on a cause of R378. -/
def execSelfDiagPeriodic (cause : Nat) (s : State) : Out :=
  match winner s with
  | none => .next s
  | some b => if cause % 256 = 0 then .next s else .next (diagFail s b cause)

/-- DOLDRUMS_ALERT (R380). -/
def execDoldrumsAlert (s : State) : Out :=
  match s.pwr.dolSince with
  | none => .next s
  | some t => .next (alertView (advance s (t + max 1 (getF s Reg.pwrWdogCtl_alert_ms) * 1000000)))

/-- Both pairs run the new image: cause 0x06, and a header that names its slot (R383, R402). -/
def updateDone (s : State) (b : Bool) : State :=
  if newImage s false && newImage s true then
    let slot := if b then s.mgt.imgB else s.mgt.imgA
    let s := writeHeader (logMgt s 6 (b2n b) 0) 1 slot
    let s := setB (setB s Reg.mgtAStatus_new_image false) Reg.mgtBStatus_new_image false
    let s := setB (setB s Reg.mgtACtl_boot_staged false) Reg.mgtBCtl_boot_staged false
    { s with mgt := { s.mgt with active := slot } }
  else s

/-- PAIR_BOOT_DONE (R378, R381): the boot's diagnosis passes (cause 0) or fails. -/
def execPairBootDone (b : Bool) (cause : Nat) (s : State) : Out :=
  if pairState s b ≠ 1 then .next s
  else if cause % 256 = 0 then
    let s := updateDone (setFails s b 0) b
    let lvl := (if b then getF s Reg.pwrClaimCfg_level_b else getF s Reg.pwrClaimCfg_level_a) * 2 + b2n b
    let s := setPairState s b 3
    if claimOf s (!b) < lvl then .next (settleClaims (setPresent s b true)) else .next s
  else
    let n := min 8 (pairFails s b + 1)
    let s := logMgt (setFails (setDiag s b cause) b n) 1 (b2n b) cause
    if n = 8 then .next (logMgt (setPairState s b 5) 0x0A (b2n b) 0) else .next (startBoot s b)

/-- Reset a pair through MGT_x_CTL: only the other pair, as the winner, can (R378). -/
def pairReset (s : State) (b staged : Bool) : State :=
  if winner s ≠ some (!b) || !pdOn s (if b then 66 else 65) then s
  else
    let s := if b then setB (setB s Reg.mgtBCtl_reset true) Reg.mgtBCtl_boot_staged staged
      else setB (setB s Reg.mgtACtl_reset true) Reg.mgtACtl_boot_staged staged
    startBoot (setFails s b 0) b

/-- MGT_PAIR_RESET (R378): the other pair as winner resets pair b, from the staged slot or the active one. -/
def execMgtPairReset (b staged : Bool) (s : State) : Out := .next (pairReset s b staged)

/-! The handoff record (R383, R384) -/

/-- Bytes of a pair's image. -/
def pairImage (s : State) (b : Bool) : List Byte := flashRead s (mgtAt (if b then s.mgt.imgB else s.mgt.imgA)) 0x1000000

/-- Migration-ring indices of the commands issued and not yet reported, at most 64. -/
def migIssued (s : State) : List Nat :=
  ((s.dma.migs.map (·.index)) ++ (s.dma.run.filterMap (fun r => r.2.mig.map (·.index))) ++ (s.dma.results.map (·.1))).take 64

/-- The record of a pair: its integrators and the sections of its firmware are free values (log 2); integrators, target and ceiling
take 4 bytes each (DEDUCED, log 63). -/
def handoffRecord (s : State) (b : Bool) : List Byte × State :=
  let migs := migIssued s
  let head := 0x50 + 4 * migs.length
  let size := max 256 (head + 32)
  let i := freshBytes 8 s
  let x := freshBytes (size - 32 - head) i.2
  let body := natToLe 2 1 ++ natToLe 1 (b2n b) ++ natToLe 1 0 ++ natToLe 4 size ++ natToLe 8 (s.mgt.seqLast + 1)
    ++ digest32 (pairImage s b) ++ i.1 ++ natToLe 4 (getF s Reg.pwrDvfs_target) ++ natToLe 4 s.mgt.ceiling
    ++ natToLe 4 migs.length ++ natToLe 12 0 ++ migs.flatMap (natToLe 4) ++ x.1
  (body ++ digest32 body, x.2)

/-- Step 3 of R383: the record is written at MGT_HANDOFF_BASE. -/
def writeHandoff (s : State) (b : Bool) : State :=
  let r := handoffRecord s b
  let seq := s.mgt.seqLast + 1
  let s := hwWrite r.2 .device (getF s Reg.mgtHandoffBase_base) r.1
  { s with mgt := { s.mgt with seqLast := seq, seqA := if b then s.mgt.seqA else seq, seqB := if b then seq else s.mgt.seqB } }

/-- A pair reads the record: its bytes if it is valid (R384). -/
def readHandoff (s : State) (b : Bool) : Option (List Byte) × State :=
  let base := getF s Reg.mgtHandoffBase_base
  let h := hwRead s .device base 16
  let size := leToNat ((h.1.drop 4).take 4)
  if h.2.1 ≠ .none ∨ size < 256 ∨ 65536 < size then (none, h.2.2)
  else
    let r := hwRead h.2.2 .device base size
    let seq := leToNat ((r.1.drop 8).take 8)
    let seen := if b then s.mgt.seqB else s.mgt.seqA
    let ok := r.2.1 == .none && leToNat (r.1.take 2) == 1 && msgByte r.1 2 != b2n b && decide (seen < seq)
      && r.1.drop (size - 32) == digest32 (r.1.take (size - 32))
    (if ok then some r.1 else none, r.2.2)

/-- The pair that is called on presents its claim; an accepted record restores the point ceiling and the target (R380, R383, R384). After a
cold start the limits and the point are what the stages hold, and its firmware reissues the migrations of the ring by DMA_MIG_CMD. -/
def takeOver (s : State) (b : Bool) : State :=
  if s.mgt.handover = some (!b) then
    let r := readHandoff s b
    let s := { r.2 with mgt := { r.2.mgt with handover := none } }
    match r.1 with
    | none => settleClaims (setPresent (logMgt s 7 (b2n b) 0) b true)
    | some rec =>
      let seq := leToNat ((rec.drop 8).take 8)
      let s := { s with mgt := { s.mgt with ceiling := min 5 (leToNat ((rec.drop 0x3C).take 4)), seqA := if b then s.mgt.seqA else seq,
                                            seqB := if b then seq else s.mgt.seqB } }
      writeTarget (settleClaims (setPresent s b true)) (leToNat ((rec.drop 0x38).take 4))
  else settleClaims (setPresent { s with mgt := { s.mgt with handover := none } } b true)

/-- STANDBY_TAKEOVER (R380): with no winner, a standby pair's full diagnosis passes (cause 0) or fails. -/
def execStandbyTakeover (b : Bool) (cause : Nat) (s : State) : Out :=
  if (winner s).isSome ∨ pairState s b ≠ 3 then .next s
  else if cause % 256 = 0 then .next (takeOver s b)
  else .next (diagFail s b cause)

end Sys2Proof.Machine
end

