-- ==== Sys2Proof/Machine/Start.lean ====
section
/-!
DEFINITION. Machine/Start.lean: device reset, the start sequence, power-domain switching and the thermal trip
(spec 19 R392 to R407, spec 18 R390, spec 21 R440).
-/
namespace Sys2Proof.Machine
open Sys2Proof

/-! Device reset (R393) and the thermal trip (R440) -/

/-- What a device reset keeps: the fuses and the flash with the records it holds (R393). The queue of waiting commands, the model's clock,
its free values and what was said to the host are no state of the device. -/
def resetKeep (s : State) : State :=
  let r := State.reset
  { r with
    pending := s.pending
    nowNs := s.nowNs
    free := s.free
    toHost := s.toHost
    fuse := s.fuse
    cfg := { r.cfg with flash := s.cfg.flash }
    sec := { r.sec with recA := s.sec.recA, recB := s.sec.recB }
    ras := { r.ras with repairList := s.ras.repairList }
    dev := { r.dev with badSlots := s.dev.badSlots } }

/-- DEVICE_RESET (R393). -/
def execDeviceReset (s : State) : Out := .next (resetKeep s)

/-- THERMTRIP (R440): the trip and alert outputs assert and all work stops as at a device reset. What the registers hold until the rails
fall cannot be read; the model takes them as lost (DESIGN CHOICE, log 67). -/
def execThermtrip (s : State) : Out :=
  let r := resetKeep s
  .next { r with pwr := { r.pwr with trip := true, alert := true } }

/-! Reserved memory (R407) -/

/-- The base registers that CFG writes, with their offsets in reserved memory (R407). -/
def baseTable : List (Fld × Nat) := [
  (Reg.qmgQctxBase_base, 0x2400000), (Reg.xtuRgnBase_base, 0x2800000), (Reg.xtuResmapBase_base, 0x3000000),
  (Reg.nieFlowBase_base, 0x3240000), (Reg.nieCntBase_base, 0x3340000), (Reg.mgtHandoffBase_base, 0x33C0000),
  (Reg.xtuMigBase_base, 0x33D0000),
  (Reg.qmgErrBase_base, 0x33F0000), (Reg.nmeErrBase_base, 0x33F1000), (Reg.xtuErrBase_base, 0x33F2000),
  (Reg.dmaErrBase_base, 0x33F3000), (Reg.rasErrBase_base, 0x33F4000), (Reg.dirErrBase_base, 0x33F5000),
  (Reg.fptErrBase_base, 0x33F6000), (Reg.hifErrBase_base, 0x33F7000), (Reg.secErrBase_base, 0x33F8000),
  (Reg.mgtErrBase_base, 0x33F9000), (Reg.xtuCcqBase_base, 0x33FA000), (Reg.secCcqBase_base, 0x33FC000)]

/-- Write the base registers whose offsets lie in a range of BAR0 (R407). -/
def layBases (s : State) (lo hi : Nat) : State :=
  (baseTable.filter (fun e => decide (lo ≤ e.1.off) && decide (e.1.off < hi))).foldl (fun s e =>
    setF s e.1 (s.dev.node * 2 ^ 42 + rsvBase s + e.2)) s

/-! Power domains (R389, R390, R397) -/

/-- The slots of a stack in one of its two domains: A false, B true. -/
def domainSlots (b : Bool) : List Nat := if b then [5, 6, 7, 8] else [0, 1, 2, 3, 4]

/-- A slot of a stack is in use: an engine is mapped to it, it is the spare, or it is being activated (R93, R95). -/
def slotUsed (s : State) (st k : Nat) : Bool :=
  (List.range 8).any (fun i => bitsOf (getF s Reg.nmeMap_slot_k st) (4 * i) 4 == k)
  || getF s Reg.nmeMap_spare_slot st == k || s.nme.activating.any (fun e => e.1 / 8 == st && e.2 == k)

/-- The domain may be switched off (R390): `src` is the mailbox source that asks, if one does. -/
def offAllowed (s : State) (d : Nat) (src : Option Nat) : Bool :=
  if d < 12 then getF s Reg.smcStatus_state d == 2
  else if d < 36 then (domainSlots ((d - 12) % 2 == 1)).all (fun k => !slotUsed s ((d - 12) / 2) k)
  else if d < 48 then (portState s (d - 36) == 0 || portState s (d - 36) == 6)
  else if d = 48 then src == some 2 || src == some 3
  else if 54 ≤ d ∧ d < 62 then !feature s 1
  else if d = 65 then winner s != some false
  else if d = 66 then winner s != some true
  else if d = 68 then true
  else if d = 70 then !s.mem.prot
  else false

/-- Take a range of BAR0 back to its reset values. -/
def resetRange (s : State) (lo hi : Nat) : State :=
  let out := fun (k : Nat) => decide (k / 8 < lo) || decide (hi ≤ k / 8)
  { s with regs := s.regs.filter (fun e => out e.1), shadow := s.shadow.filter (fun e => out e.1),
           rings := s.rings.filter (fun e => decide (e.1 < lo) || decide (hi ≤ e.1)) }

/-- The Varic image's values for a port that was off (R397, R406): lanes, encryption and regions. -/
def portFields (s : State) (p : Nat) : State :=
  let b := varicImage s
  let ws := (recWrites (varicRecords b)).filter (fun w =>
    (w.1 == 0x21 || w.1 == 0x22) && w.2.1 == p || w.1 == 0x23 && w.2.1 / 4 == p)
  if b = [] then s else ws.foldl (fun s w => fieldApply s w.1 w.2.1 w.2.2) s

/-- A domain goes off: what its blocks held is lost. -/
def domainOff (s : State) (d : Nat) : State :=
  let s := if d = 48 ∧ s.hif.linkUp then dlDown s else s
  let s := setPd s d false
  if d = 48 then { s with hif := { State.reset.hif with mute := s.hif.mute }, mbx := { State.reset.mbx with nextId := s.mbx.nextId } }
  else if d = 65 then setPairState (settleClaims (setPresent s false false)) false 0
  else if d = 66 then setPairState (settleClaims (setPresent s true false)) true 0
  else if d = 68 then { s with tel := { State.reset.tel with attr := s.tel.attr } }
  else s

/-- A domain comes on: its blocks start at their reset values and are brought up as start brings them up (R390). A stack that failed stays
FAILED (DESIGN CHOICE, log 68). -/
def domainOn (s : State) (d : Nat) : State :=
  let s := setPd s d true
  if d < 12 then setF (resetRange s (0x5000000 + d * 0x100000) (0x5100000 + d * 0x100000)) Reg.smcStatus_state 2 d
  else if 36 ≤ d ∧ d < 48 then
    portFields (resetRange s (0xA000000 + (d - 36) * 0x100000) (0xA100000 + (d - 36) * 0x100000)) (d - 36)
  else if d = 48 then
    let s := layBases (resetRange s 0 0x100000) 0 0x100000
    { s with hif := { s.hif with ready := true } }
  else if d = 65 ∨ d = 66 then startBoot (setFails (setDiag s (d == 66) 0) (d == 66) 0) (d == 66)
  else if d = 68 then resetRange s 0x500000 0x600000
  else if d = 70 then resetRange s 0x7000000 0x8000000
  else s

/-- Start a switch (R390): result 2 index above 71, 1 refused, 0 accepted; ignored while one runs. -/
def pdSwitch (s : State) (d : Nat) (on : Bool) (src : Option Nat) : State :=
  if s.pwr.pd.isSome then s
  else
    let s := setB (setF s Reg.pwrPdCmd_domain d) Reg.pwrPdCmd_isOn on
    if 71 < d then setF s Reg.pwrPdCmd_result 2
    else if !on && !offAllowed s d src then setF s Reg.pwrPdCmd_result 1
    else
      let s := setB (setF s Reg.pwrPdCmd_result 0) Reg.pwrPdCmd_busy true
      { s with pwr := { s.pwr with pd := some (d, on) } }

/-- The source of a DOMAIN_POWER request for this domain that a pair has taken and not answered (R390: PD_HIF). -/
def askingSource (s : State) (b : Bool) (d : Nat) : Option Nat :=
  (s.mbx.queue.find? (fun e => e.taken == pairNo b && e.rsp.isNone && msgCmd e.msg == 0x42 && msgByte e.msg 16 == d
    && decide (2 ≤ e.source))).map (·.source)

/-- PD_SWITCH (R390, R376): a pair writes PWR_PD_CMD with go. -/
def execPdSwitch (b : Bool) (domain : Nat) (on : Bool) (s : State) : Out :=
  if winner s ≠ some b then .next (gateWrite s b)
  else .next (pdSwitch s (domain % 128) on (askingSource s b (domain % 128)))

/-- PD_SWITCH_DONE (R390). A switch to the state a domain already has changes nothing in it. -/
def execPdSwitchDone (s : State) : Out :=
  match s.pwr.pd with
  | none => .next s
  | some (d, on) =>
    let s := setB { s with pwr := { s.pwr with pd := none } } Reg.pwrPdCmd_busy false
    let s := if pdOn s d = on then s else if on then domainOn s d else domainOff s d
    .next (logMgt s 9 d 0)

/-! Start (R396 to R400) -/

/-- An image's slot and whether it is the fallback: the named slot, or the other, as they verify (R399). -/
def chooseSlot (named v0 v1 : Nat) : Option (Nat × Bool) :=
  let v := fun (k : Nat) => if k = 0 then v0 else v1
  if v named = 0 then some (named, false) else if v (1 - named) = 0 then some (1 - named, true) else none

/-- The step of R366 that failed last, 0 when the named slot verified. -/
def lastFail (named v0 v1 : Nat) : Nat :=
  let v := fun (k : Nat) => if k = 0 then v0 else v1
  if v named = 0 then 0 else if v (1 - named) = 0 then v named else v (1 - named)

/-- Images that failed to verify: 0, 1 or 2. -/
def failCount (named v0 v1 : Nat) : Nat :=
  let v := fun (k : Nat) => if k = 0 then v0 else v1
  if v named = 0 then 0 else if v (1 - named) = 0 then 1 else 2

/-- The good slots of a stack (R93): not fused, not recorded as failed, not left unused by the image. -/
def goodSlots (s : State) (st : Nat) : List Nat :=
  (List.range 9).filter (fun k => !s.fuse.slots.contains (st * 9 + k) && !s.dev.badSlots.contains (st * 9 + k) && fieldValue s 0x13 st != k)

/-- The logical map of a stack (R93, R94). -/
def mapStack (s : State) (st : Nat) : State :=
  let good := goodSlots s st
  let pref := fieldValue s 0x12 st
  let list := if 9 ≤ good.length then good.filter (fun k => k ≠ pref) else good
  let spare := if 9 ≤ good.length then pref else 15
  let bad := ((List.range 9).filter (fun k => !good.contains k)).foldl (fun m k => m + 2 ^ k) 0
  let s := setF (setF s Reg.nmeMap_spare_slot spare st) Reg.nmeMap_bad_mask bad st
  let s := setF s Reg.nmeMap_slot_k ((List.range 8).foldl (fun m k => m + (list.getD k 15) * 2 ^ (4 * k)) 0) st
  (List.range 8).foldl (fun s k =>
    setF (setF s Reg.nmeStatus_state (if k < list.length then 0 else 2) (st * 8 + k)) Reg.nmeStatus_phys_slot (list.getD k 15) (st * 8 + k)) s

/-- The engine maps of all stacks and NME_CAPS (R93, R94). -/
def mapEngines (s : State) : State :=
  let s := (List.range 12).foldl mapStack s
  let n := ((List.range 12).map (fun st => min 8 (goodSlots s st).length)).sum
  let sp := ((List.range 12).filter (fun st => decide (9 ≤ (goodSlots s st).length))).length
  setF (setF s Reg.nmeCaps_enabled n) Reg.nmeCaps_spares_ready sp

/-- A domain is left off at start (R397). -/
def offAtStart (s : State) (d : Nat) : Bool :=
  if 12 ≤ d ∧ d < 36 then (domainSlots ((d - 12) % 2 == 1)).all (fun k =>
    s.fuse.slots.contains ((d - 12) / 2 * 9 + k) || s.dev.badSlots.contains ((d - 12) / 2 * 9 + k) || fieldValue s 0x13 ((d - 12) / 2) == k)
  else if 36 ≤ d ∧ d < 48 then !getB s Reg.fptCtl_enable (d - 36)
  else if d = 70 then fieldValue s 2 0 != 1
  else false

/-- Step 5: every domain of R397 is powered. -/
def powerUp (s : State) : State := (List.range 72).foldl (fun s d => if offAtStart s d then s else setPd s d true) s

/-- The stacks that failed training leave the layout unusable (R398). -/
def trainBad (s : State) (mask : Nat) : Bool :=
  let n := ((List.range 12).filter (bitOf mask)).length
  if s.mem.prot then decide (2 ≤ n) else decide (1 ≤ n)

/-- The state of PAR after training (R398). -/
def parStart (s : State) (mask : Nat) : State :=
  if !s.mem.prot then setF (setF s Reg.parStatus_state 0) Reg.parStatus_spare_stack 15
  else
    let failed := (List.range 12).filter (bitOf mask)
    let s := setF (setF s Reg.parStatus_spare_stack s.mem.spare) Reg.parStatus_state (if failed = [] then 1 else 3)
    match failed with
    | [st] => if st = s.mem.spare then s else
        setF { s with ras := { s.ras with startFor := some st } } Reg.smcStatus_state 1 s.mem.spare
    | _ => s

/-- Step 6: training, the capacity mode, the layout and the zero map (R250, R254, R398). -/
def trainStacks (s : State) (mask : Nat) : State :=
  let s := { s with mem := { s.mem with prot := fieldValue s 2 0 == 1, spare := if fieldValue s 2 0 = 1 then fieldValue s 3 0 else 11 } }
  let s := (List.range 12).foldl (fun s st =>
    let bad := bitOf mask st
    let spare := s.mem.prot && st == s.mem.spare
    let s := setF s Reg.smcStatus_state (if bad then 2 else if spare then 3 else 1) st
    setF (setF s Reg.smcStatus_channels (if bad then 0 else 32) st) Reg.smcChOnline_mask (if bad then 0 else 2 ^ 32 - 1) st) s
  let s := setF s Reg.cfgStatus_failed_stacks mask
  let s := parStart s mask
  if trainBad s mask then s else zmapReady (lockLayout s)

/-- Step 9: both pairs boot and claim (R378, R396): a pair whose diagnosis fails boots again. -/
def bootPairs (s : State) (diagA diagB : Nat) : State :=
  let s := startBoot (startBoot s false) true
  let fail := fun (s : State) (b : Bool) (cause : Nat) => startBoot (logMgt (setFails (setDiag s b cause) b 1) 1 (b2n b) cause) b
  let okA := diagA % 256 = 0
  let okB := diagB % 256 = 0
  let s := if okA then setPairState s false 3 else fail s false diagA
  let s := if okB then setPairState s true 3 else fail s true diagB
  let s := setPresent (setPresent s false (decide okA)) true (decide okB)
  settleClaims s

/-- Step 10: HIF becomes ready (R345, R400). -/
def hifReady (s : State) (drs : Bool) : State :=
  let s := { s with hif := { s.hif with ready := true } }
  alertView (if drs && s.hif.linkUp then emit s .readyDrs else s)

/-- A start that ends in RECOVERY (R399). -/
def recovery (s : State) (drs : Bool) : State := hifReady (setF (setF s Reg.secStatus_rot_state 2) Reg.cfgStatus_phase 6) drs

/-- The fields that step 6 applies before the layout is fixed: capacity mode, spare, reserved frames, profiles. -/
def layoutField (id : Nat) : Bool := id == 2 || id == 3 || id == 0x10 || id == 0x11

/-- The fields that the steps before 8 read but do not write to a register: they are kept by CFG. -/
def earlyField (id : Nat) : Bool := layoutField id || id == 8 || id == 0x12 || id == 0x13

/-- Step 8: every other field, the bases and the engine maps; ports with enable set enter DETECT unless the start is INCOMPLETE
(R396, R398, R407). -/
def applyFields (s : State) (ws : List (Nat × Nat × Nat)) (ports : Bool) : State :=
  let s := setF (setF s Reg.pwrClaimCfg_level_a 20) Reg.pwrClaimCfg_level_b 10
  let s := (ws.filter (fun w => !earlyField w.1 && w.1 != 0x20)).foldl (fun s w => fieldApply s w.1 w.2.1 w.2.2) s
  let s := mapEngines (layBases s 0 (2 ^ 28))
  if ports then (ws.filter (fun w => w.1 == 0x20 && w.2.2 == 1)).foldl (fun s w => portEnable s w.2.1) s else s

/-- Step 5 with port_enable as the image has it (R397). -/
def powerFor (s : State) (ws : List (Nat × Nat × Nat)) : State :=
  let on := fun (p : Nat) => ws.any (fun w => w.1 == 0x20 && w.2.1 == p && w.2.2 == 1)
  (List.range 12).foldl (fun s p => setPd s (36 + p) (on p)) (powerUp s)

/-- The entries that start owes to the SEC error ring: cause 0x01 for the generator's tests, 0x02 for each image that failed. They are
written once the ring has its base (DESIGN CHOICE, log 65). -/
def startLogs (s : State) (trngOk : Bool) (images : Nat) : State :=
  let s := if trngOk then s else logSec s 1 none none
  (List.range images).foldl (fun s _ => logSec s 2 none none) s

/-- Entries owed when start stops before there is a ring: they are counted as dropped (log 65). -/
def startDrops (s : State) (trngOk : Bool) (images : Nat) : State := bumpSat s Reg.secErrOvf_dropped (b2n (!trngOk) + images)

/-- The device slot is loaded once SEC_CTL has its classes, unless it needs a random value that cannot be drawn
(DEDUCED, log 66). -/
def loadDevice (s : State) : State :=
  if getB s Reg.secCtl_dev_class && !getB s Reg.secStatus_trng_ok then s else loadSlot s 4096 (getB s Reg.secCtl_dev_class)

/-- Steps 4 to 10 with a root of trust that runs. -/
def startRest (env : StartEnv) (s : State) (rotFails : Nat) : State :=
  let r := readVaric s (activeSlot s 2)
  let ws := r.1
  let s := (ws.filter (fun w => earlyField w.1)).foldl (fun s w => fieldApply s w.1 w.2.1 w.2.2) r.2
  let s := powerFor s ws
  let s := trainStacks s env.trainFail
  let named := activeSlot s 1
  let s := if failCount named env.mgt0 env.mgt1 = 0 then s else setF s Reg.secStatus_verify_cause (lastFail named env.mgt0 env.mgt1)
  let fails := rotFails + failCount named env.mgt0 env.mgt1
  match chooseSlot named env.mgt0 env.mgt1 with
  | none => recovery (startDrops s env.trngOk fails) env.drs
  | some (slot, fb) =>
    let bad := trainBad s env.trainFail
    let s := setB (setF s Reg.cfgStatus_mgt_slot slot) Reg.cfgStatus_mgt_fallback fb
    let s := { s with mgt := { s.mgt with active := slot } }
    let s := loadDevice (applyFields s ws (!bad))
    let s := secView (startLogs s env.trngOk fails)
    let s := bootPairs s env.diagA env.diagB
    hifReady (setF s Reg.cfgStatus_phase (if bad then 5 else 4)) env.drs

/-- The SMBus target address, and the I3C static address (R434). -/
def smbusAddr (s : State) : Nat := 0x58 + 2 * (s.dev.straps / 2 % 2) + s.dev.straps % 2

/-- Steps 1 to 3 (R396, R353, R364), then the rest; the straps are sampled at T0 (R434). -/
def startUp (env : StartEnv) (s : State) : State :=
  let s := setPd (setPd (setPd s 71 true) 67 true) 48 true
  let s := { s with pwr := { s.pwr with dolSince := some s.nowNs }, dev := { s.dev with t0 := s.nowNs, straps := env.straps % 4 } }
  let s := match env.link with
    | some (sp, w, fl) => linkTrain s sp w fl
    | none => s
  let s := xmssStart (setB s Reg.secStatus_trng_ok env.trngOk)
  let named := activeSlot s 0
  let s := if failCount named env.rot0 env.rot1 = 0 then s else setF s Reg.secStatus_verify_cause (lastFail named env.rot0 env.rot1)
  let fails := failCount named env.rot0 env.rot1
  match chooseSlot named env.rot0 env.rot1 with
  | none => recovery (startDrops s env.trngOk fails) env.drs
  | some (slot, fb) =>
    let s := setB (setF (setF s Reg.secStatus_rot_state 1) Reg.cfgStatus_rot_slot slot) Reg.cfgStatus_rot_fallback fb
    startRest env { s with sec := { s.sec with rotSlot := slot } } fails

/-- DEVICE_START (R396): T0 of a device that is in reset. Below 0 °C start is not supported (R439). -/
def execDeviceStart (env : StartEnv) (s : State) : Out :=
  if getF s Reg.cfgStatus_phase ≠ 0 ∨ s.pwr.trip then .next s
  else if env.cold then .fault .startBelowZero
  else .next (startUp env s)

end Sys2Proof.Machine
end

