-- ==== Sys2Proof/Machine/Configuration.lean ====
section
/-!
DEFINITION. Machine/Configuration.lean: the feature vector and the configuration report (spec 02 R49, R50, spec 19 R408 to R410).
-/
namespace Sys2Proof.Machine
open Sys2Proof

/-! Encryption required (R300, R369) -/

/-- A port that is up without encryption goes DOWN with cause 0x08 once enc_required is set (R300; DEDUCED, log 75). -/
def encCheck (s : State) (p : Nat) : State :=
  if getB s Reg.fptEnc_enc_required p && !getB s Reg.fptStatus_enc_active p && (portState s p == 4 || portState s p == 5) then
    linkDown (logFpt s 8 p) p 6
  else s

/-- enc_required on every port (R369). -/
def requireEnc (s : State) : State :=
  (List.range 12).foldl (fun s p => encCheck (setB s Reg.fptEnc_enc_required true p) p) s

/-! The feature vector (R49, R50, R409) -/

/-- The offer of bits 0 to 63 (R49): HOST_BACKED stands while the host has enabled ATS and PRI on the PCIe link. -/
def featOffer (s : State) : Nat :=
  2 ^ 15 - 1 - (if getB s Reg.secStatus_session_ok then 0 else 4) - (if s.hif.linkUp && s.hif.atsPri then 0 else 8)

/-- CFG_FEAT_OFFER_0 as a commit is judged (R49, R409). -/
def showOffer (s : State) : State := setF s Reg.cfgFeatOffer_offer (featOffer s)

/-- The accept vector is one that a commit takes (R50): BASE is set, and nothing that the offer leaves clear. -/
def acceptOk (s : State) : Bool :=
  let a := getF s Reg.cfgFeatAccept_accept 0
  a % 2 == 1 && Nat.land a (featOffer s) == a && (List.range 3).all (fun i => getF s Reg.cfgFeatAccept_accept (i + 1) == 0)

/-- CFG_FEAT_CTL.commit (R50, R409). -/
def featCommit (s : State) : State :=
  if getB s Reg.cfgStatus_committed then s
  else if getF s Reg.cfgStatus_phase ≠ 4 then setF s Reg.cfgFeatCtl_result 3
  else if !acceptOk s then setF (showOffer s) Reg.cfgFeatCtl_result 2
  else
    let s := setB (setF (showOffer s) Reg.cfgFeatCtl_result 1) Reg.cfgStatus_committed true
    if feature s 2 then requireEnc s else s

/-- CFG_FEAT_COMMIT (R409), with what the host has configured by then. -/
def execCfgFeatCommit (host : HostCfg) (s : State) : Out := .next (featCommit (setHostCfg s host))

/-! The report (R408) -/

/-- Word n of the report; words beyond it read zero. -/
def reportWord (s : State) (n : Nat) : Nat := leToNat (((reportBytes s).drop (8 * n)).take 8)

/-- CFG_RPT_READ (R408): a read of CFG_RPT_DATA returns the word that CFG_RPT_ADDR names and advances it. -/
def execCfgRptRead (s : State) : Out :=
  if !bar2Open s 0 then .next s
  else
    let n := getF s Reg.cfgRptAddr_word
    .next (emit (setF s Reg.cfgRptAddr_word (n + 1)) (.readData 0x100088 (reportWord s n)))

end Sys2Proof.Machine
end

