-- ==== Sys2Proof/Machine/Engines.lean ====
section
/-!
DEFINITION. Machine/Engines.lean: the commands of the near-memory engines (spec 04).
-/
namespace Sys2Proof.Machine
open Sys2Proof

/-! The wait list (R88) -/

/-- The class of a waiting descriptor. -/
def waitClass (s : State) (uid : Nat) : Option Nat := (descOf s uid).bind (fun d => (opRow d.opcode).map (·.cls))

/-- The descriptor of class c that may leave the wait list first. -/
def waitFirst (s : State) (c : Nat) : Option Nat :=
  s.nme.waitQ.find? (fun u => waitClass s u == some c && ((descOf s u).map (fun d => canTake s d.opcode)).getD false)

/-- WAIT_LIST_SERVICE (R88): the class whose turn it is lets one descriptor leave, and it is charged. -/
def execWaitListService (s : State) : Out :=
  let turn := (List.range 4).findSome? (fun i => (waitFirst s ((s.nme.rr + i) % 4)).map (fun u => ((s.nme.rr + i) % 4, u)))
  match turn with
  | none => .next s
  | some (c, u) =>
    .next (startDesc { s with nme := { s.nme with waitQ := s.nme.waitQ.filter (fun x => x ≠ u), rr := (c + 1) % 4 } } u)

/-! Dispatch -/

/-- TILE_DISPATCH (R80, R82, R105). -/
def execTileDispatch (uid : Nat) (remote : NMap Gran) (s : State) : Out := .next (dispatchDesc s uid remote)

/-! TILE_START to TILE_RETIRE (R81, R86, R90) -/

/-- After a start, only contexts that still hold a tile to start keep their waits (R227). -/
def ctxRest (s : State) (e : Nat) : State :=
  let cands := s.nme.ctxs.filter (fun c => c.1 / 16 == e && (nextOf s e c.2).isSome)
  { s with nme := { s.nme with arbs := nput s.nme.arbs e (arbStay (ngetD arb0 s.nme.arbs e) (cands.map (fun c => c.1 % 16))) } }

/-- TILE_START (R81 steps 1 and 2, R86, R87, R90): an ACTIVE engine with room chooses among its contexts. -/
def execTileStart (c : EngineCmd) (s : State) : Out :=
  let engine := c.engine
  let s := giveCtxs s engine
  if !engReady s engine then .next s
  else
    let cands := (s.nme.ctxs.filter (fun c => c.1 / 16 == engine && (nextOf s engine c.2).isSome
      && !((descOf s c.2).map (·.stopping)).getD true))
    let r := arbPick 64 (arbN s Reg.xbarArbCtl_n_nme) (ngetD arb0 s.nme.arbs engine) (cands.map (fun c => (c.1 % 16, rankOf s c.2)))
    let s := { s with nme := { s.nme with arbs := nput s.nme.arbs engine r.2 } }
    match r.1.bind (fun p => nfind s.nme.ctxs (engine * 16 + p)) with
    | none => .next s
    | some uid =>
      match nextOf s engine uid, descOf s uid with
      | some tr, some d => .next (ctxRest (startTile s tr d c.remote) engine)
      | _, _ => .next s

/-- TILE_LOAD_DATA (R81 step 3, R106): the operands of a translated tile arrive. -/
def execTileLoadData (uid tile : Nat) (remote : NMap Gran) (s : State) : Out :=
  .next (atStep s uid tile 2 (fun s tr d => loadStep s tr d remote))

/-- TILE_COMPUTE_DONE (R77, R81 steps 4 and 5, R100). -/
def execTileComputeDone (uid tile : Nat) (c : ComputeEnd) (remote : NMap Gran) (s : State) : Out :=
  .next (slotRetry (atStep s uid tile 3 (fun s tr d => computeStep s tr d c.issued c.corrected c.bad remote)))

/-- PARTIAL_STATE_COMBINE (R115, R129, R134): the next partial state of a tile reaches its accumulating engine. -/
def execPartialStateCombine (uid tile : Nat) (remote : NMap Gran) (s : State) : Out :=
  match tileRec s uid tile with
  | some tr =>
    match tr.parts with
    | [] => .next s
    | p :: rest => .next (combinePart (modTile s uid tile (fun t => { t with parts := rest })) uid tr.engine tr.xl remote p)
  | none => .next s

/-- TILE_RETIRE (R81 step 6): the writes left are issued and the tile retires; a tile with partial states not yet combined is
not over, nor one whose ATOMIC another node carries out. -/
def execTileRetire (uid tile : Nat) (remote : NMap Gran) (s : State) : Out :=
  .next (slotRetry (atStep s uid tile 5 (fun s tr _ => if tr.parts != [] || decide (farEngine ≤ tr.engine) then s else retireStep s tr remote)))

/-! Sparing (R93 to R96) -/

/-- Slot of logical engine k of a stack in NME_MAP_s. -/
def mapSlot (s : State) (st k : Nat) : Nat := bitsOf (getF s Reg.nmeMap_slot_k st) (4 * k) 4

/-- Set the slot of logical engine k. -/
def setMapSlot (s : State) (st k v : Nat) : State := setF s Reg.nmeMap_slot_k (putBits (getF s Reg.nmeMap_slot_k st) (4 * k) 4 v) st

/-- The engine that tiles of a logical number go to: itself, or the one that R94 names. -/
def successor (s : State) (e : Nat) : Nat :=
  if engOn s e then e
  else (leastQueued s (((List.range 8).map (fun k => e / 8 * 8 + k)).filter (engOn s))).getD (anyEngine s)

/-- Restart tiles of an engine that have written nothing: they queue for the replacement, or go to the engine that R94 names. -/
def moveTiles (s : State) (e : Nat) : State :=
  let mine := s.nme.tiles.filter (fun t => t.engine == e && decide (t.step < 5))
  let ids := mine.map (fun t => (t.uid, t.tile.num))
  let s := { s with
    nme := { s.nme with tiles := s.nme.tiles.filter (fun t => !(t.engine == e && decide (t.step < 5))) }
    xtu := { s.xtu with flights := s.xtu.flights.filter (fun f => !(f.holder == .engine e && ids.contains (f.uid, f.tile))),
                        leases := s.xtu.leases.filter (fun l => l.holder ≠ .engine e || l.stale) } }
  mine.foldl (fun s t => enqueue s t.uid (successor s e) t.tile t.bytes) s

/-- The first result granule that a tile in step 5 has not written: of its own writes, or of a unit that it owes a partial state. -/
def firstPending (s : State) (t : TileRec) : Option Nat :=
  let units := match descOf s t.uid with
    | some d => t.parts.flatMap (fun p => (unitWrites d.raw p.unit).map (fun r => r.1 / 64 * 64))
    | none => []
  (t.pend.map (·.pva) ++ units).foldl (fun a w => match a with | some b => some (min b w) | none => some w) none

/-- Tiles of an engine in step 5: the granules not yet written are written poisoned, partial states not yet combined count as poisoned, and
the tile retires; the first such granule is the faulting address (R95). -/
def poisonPending (s : State) (e : Nat) : State :=
  (s.nme.tiles.filter (fun t => t.engine == e && t.step == 5)).foldl (fun s t =>
    let first := firstPending s t
    let s := notePoison s t.uid t.tile.num first
    let s := combineAll s { t with parts := t.parts.map (fun p => { p with bad := true }) } []
    retireStep s { t with pend := t.pend.map (fun w => { w with gran := poisonGran, poison := true }),
                          poisonAt := match t.poisonAt with | some a => some a | none => first } []) s

/-- Tiles of an engine in step 5 run to the end of step 6 (R96). -/
def finishPending (s : State) (e : Nat) (env : NMap Gran) : State :=
  (s.nme.tiles.filter (fun t => t.engine == e && t.step == 5)).foldl (fun s t => retireStep (combineAll s t env) t env) s

/-- The slot that serves a logical engine, or is about to. -/
def slotOf (s : State) (e : Nat) : Nat := (nfind s.nme.activating e).getD (getF s Reg.nmeStatus_phys_slot e)

/-- The logical engine leaves its slot: the spare starts to activate, or the number becomes ABSENT (R94, R95). -/
def leaveSlot (s : State) (e : Nat) : State :=
  let st := e / 8
  let slot := slotOf s e
  let s := { s with nme := { s.nme with activating := ndel s.nme.activating e } }
  let s := setF s Reg.nmeMap_bad_mask (Nat.lor (getF s Reg.nmeMap_bad_mask st) (2 ^ slot)) st
  let spare := getF s Reg.nmeMap_spare_slot st
  if spare = 15 then
    let s := setF s Reg.nmeStatus_state 2 e
    let s := setF s Reg.nmeStatus_phys_slot 15 e
    let s := setMapSlot s st (e % 8) 15
    let s := setF s Reg.nmeCaps_enabled (getF s Reg.nmeCaps_enabled - 1)
    logNme s 5 e slot none 0
  else
    let s := setF s Reg.nmeMap_spare_slot 15 st
    let s := setF s Reg.nmeCaps_spares_ready (getF s Reg.nmeCaps_spares_ready - 1)
    let s := setF s Reg.nmeStatus_state 1 e
    { s with nme := { s.nme with activating := nput s.nme.activating e spare } }

/-- The tenant and request that the error-ring entry of a fault names: those of the first running tile in the model's list, where several are
affected (DESIGN CHOICE, log 132: R95 and R442 name one and give no choice). -/
def victimOf (s : State) (e : Nat) : Option Nat × Nat :=
  match (s.nme.tiles.find? (fun t => t.engine == e && decide (2 ≤ t.step))).bind (fun t => descOf s t.uid) with
  | some d => (some d.tenant, d.reqId)
  | none => (none, 0)

/-- An engine leaves service with a fault (R95); MGT records the slot for the next start. -/
def faultEngine (s : State) (e : Nat) : State :=
  let v := victimOf s e
  let slot := slotOf s e
  let s := logNme s 2 e slot v.1 v.2
  let s := setB s Reg.nmeErr_engine_fault true e
  let s := leaveSlot (poisonPending s e) e
  let s := { s with dev := { s.dev with badSlots := s.dev.badSlots ++ [(e / 8) * 9 + slot] } }
  ackInvals (engView (moveTiles s e) e) e

/-- ENGINE_FAULT (R95): an uncorrectable error in an engine's pipeline state or a parity error in its control logic. -/
def execEngineFault (engine : Nat) (s : State) : Out :=
  if 96 ≤ engine ∨ getF s Reg.nmeStatus_state engine ≠ 0 then .next s else .next (faultEngine s engine)

/-- TILE_WATCHDOG_EXPIRY (R95): a tile has stayed in step 4 for 1 ms. -/
def execTileWatchdogExpiry (uid tile : Nat) (s : State) : Out :=
  .next (atStep s uid tile 3 (fun s tr _ => faultEngine (advance s (tr.since + 1000000)) tr.engine))

/-- SPARE_ACTIVATED (R95): zeroed and tested, its generator seeded by SEC (R152, R353), the spare takes the logical number. -/
def execSpareActivated (engine : Nat) (s : State) : Out :=
  match nfind s.nme.activating engine with
  | none => .next s
  | some slot =>
    if !getB s Reg.secStatus_trng_ok then .next s
    else
      let s := { s with nme := { s.nme with activating := ndel s.nme.activating engine, seeded := ndel s.nme.seeded engine } }
      let s := setF s Reg.nmeStatus_state 0 engine
      let s := setF s Reg.nmeStatus_phys_slot slot engine
      let s := setMapSlot s (engine / 8) (engine % 8) slot
      .next (logNme s 4 engine slot none 0)

/-- NME_RETIRE (R96): the register is written with `retire` set; no granule is poisoned. -/
def execNmeRetire (c : EngineCmd) (s : State) : Out :=
  if getB s Reg.nmeRetire_busy then .next s
  else
    let s := setF s Reg.nmeRetire_engine c.engine
    let e := getF s Reg.nmeRetire_engine
    if 95 < e then .next (setF s Reg.nmeRetire_result 1)
    else if getF s Reg.nmeStatus_state e = 2 then .next (setF s Reg.nmeRetire_result 2)
    else
      let s := logNme (setF s Reg.nmeRetire_result 0) 3 e (slotOf s e) none 0
      .next (ackInvals (engView (moveTiles (leaveSlot (finishPending s e c.remote) e) e) e) e)

/-- NME_COMMIT (R5): pending values of NME_DISP_CTL take effect. -/
def execNmeCommit (s : State) : Out := .next (commitTable s Reg.tableNme)

end Sys2Proof.Machine
end

