-- ==== Sys2Proof/Machine/Mailbox.lean ====
section
/-!
DEFINITION. Machine/Mailbox.lean: the commands of the management mailbox (spec 16 R349, spec 18 R383, R391, spec 19 R411 to R414,
spec 17 R367, R368). A command names the request it serves by source and tag.
-/
namespace Sys2Proof.Machine
open Sys2Proof

/-! Taking and answering -/

/-- The codes that the mailbox carries (R391, R411). -/
def knownCmd (code : Nat) : Bool :=
  [0x10, 0x11, 0x12, 0x13, 0x18, 0x20, 0x21, 0x30, 0x40, 0x41, 0x42, 0x43, 0x44, 0x45, 0x46, 0x47, 0x48].contains code

/-- The device ended its start in RECOVERY. -/
def inRecovery (s : State) : Bool := getF s Reg.cfgStatus_phase == 6

/-- The next request is taken: by the root of trust in RECOVERY, which denies what it does not serve (R414), else by the winner, which
stops taking during a handover (R383). -/
def mailboxTake (s : State) : State :=
  match s.mbx.queue.find? (fun e => e.taken == 0) with
  | none => s
  | some e =>
    let take := fun (n : Nat) => { s with mbx := { s.mbx with queue := s.mbx.queue.map (fun x => if x.id = e.id then { x with taken := n } else x) } }
    if inRecovery s then
      if [0x10, 0x11, 0x18].contains (msgCmd e.msg) then take 3 else answer (take 3) { e with taken := 3 } 4 0 []
    else match winner s with
      | none => s
      | some b =>
        if s.mgt.handover.isSome then s
        else if knownCmd (msgCmd e.msg) then take (pairNo b)
        else answer (take (pairNo b)) { e with taken := pairNo b } 2 0 []

/-- MAILBOX_TAKE (R349). -/
def execMailboxTake (s : State) : Out := if s.hif.ready then .next (mailboxTake s) else .next s

/-- The request of a source, tag and code that has been taken and not answered. -/
def takenReq (s : State) (source tag code : Nat) : Option MbxEnt :=
  s.mbx.queue.find? (fun e => e.source == source && msgTag e.msg == tag && msgCmd e.msg == code && e.taken != 0 && e.rsp.isNone)

/-- Serve the request of a source, tag and code: a body of a wrong length answers BAD_LENGTH (R391, R411). -/
def serve (s : State) (source tag code : Nat) (lenOk : Nat → Bool) (f : State → MbxEnt → List Byte → State) : State :=
  match takenReq s source tag code with
  | none => s
  | some e => if lenOk (msgByte e.msg 4) then f s e (msgBody e.msg) else answer s e 3 0 []

/-- Bytes lo to lo + n − 1 of a body as a number. -/
def argAt (b : List Byte) (lo n : Nat) : Nat := leToNat ((b.drop lo).take n)

/-- A register's value from its fields. -/
def wordOf (s : State) (fs : List Fld) : Nat := (fs.map (fun f => getF s f * 2 ^ f.lo)).sum

/-! Power and firmware (R391) -/

/-- PWR_STATUS (R391): five 32-bit registers, then bytes that the spec does not name, which are free (log 61). -/
def execPwrStatus (source tag : Nat) (s : State) : Out :=
  .next (serve s source tag 0x40 (fun n => n == 0) (fun s e _ =>
    let r := freshBytes 12 s
    let claim := wordOf s [Reg.pwrClaim_claim_a, Reg.pwrClaim_claim_b, Reg.pwrClaim_winner, Reg.pwrClaim_doldrums, Reg.pwrClaim_a_displaced,
      Reg.pwrClaim_b_displaced]
    let dvfs := wordOf s [Reg.pwrDvfs_target, Reg.pwrDvfs_current, Reg.pwrDvfs_changing, Reg.pwrDvfs_hw_limited]
    let lim := wordOf s [Reg.pwrLimits_power_cap_w, Reg.pwrLimits_icc_limit_a, Reg.pwrLimits_throttle_c]
    let pkg := wordOf s [Reg.pwrPkg_power, Reg.pwrPkg_icc]
    let temp := wordOf s [Reg.pwrTemp_temp, Reg.pwrTemp_die]
    answer r.2 e 0 0 (natToLe 4 claim ++ natToLe 4 dvfs ++ natToLe 4 lim ++ natToLe 4 pkg ++ natToLe 4 temp ++ r.1)))

/-- POWER_CAP (R391). -/
def execPowerCap (source tag : Nat) (s : State) : Out :=
  .next (serve s source tag 0x41 (fun n => n == 2) (fun s e b =>
    answer (setF s Reg.pwrLimits_power_cap_w (clamp 100 1050 (argAt b 0 2))) e 0 0 []))

/-- DOMAIN_POWER (R390, R391): BUSY while another switch runs. -/
def execDomainPower (source tag : Nat) (s : State) : Out :=
  .next (serve s source tag 0x42 (fun n => n == 2) (fun s e b =>
    let d := min 71 (argAt b 0 1)
    let on := decide (1 ≤ argAt b 1 1)
    if s.pwr.pd.isSome then (let h := freeRetry s; answer h.2 e 1 h.1 [])
    else
      let s := pdSwitch s d on (some e.source)
      answer s e (if getF s Reg.pwrPdCmd_result = 0 then 0 else 4) 0 []))

/-- The highest point allowed changes; a target above it comes down to it (R391). -/
def setCeiling (s : State) (p : Nat) : State :=
  let s := { s with mgt := { s.mgt with ceiling := p } }
  if (winner s).isSome ∧ getF s Reg.pwrDvfs_target < p then writeTarget s p else s

/-- POINT_CEILING (R391). -/
def execPointCeiling (source tag : Nat) (s : State) : Out :=
  .next (serve s source tag 0x43 (fun n => n == 1) (fun s e b => answer (setCeiling s (min 5 (argAt b 0 1))) e 0 0 []))

/-- THERMAL_LIMIT (R391). -/
def execThermalLimit (source tag : Nat) (s : State) : Out :=
  .next (serve s source tag 0x44 (fun n => n == 1) (fun s e b =>
    answer (setF s Reg.pwrLimits_throttle_c (clamp 70 100 (argAt b 0 1))) e 0 0 []))

/-- Bytes of a host image fetched over the management channel under PF0 (R193, R336): none when the host does not answer. -/
def fetched (s : State) (image : Option (List Byte)) (len : Nat) : Option (List Byte) :=
  if hostUp s 0 then image.map (fixLen len) else none

/-- Write an image to a flash slot, erased first; `ok` tells that it reads back. A write that fails leaves the slot erased (DESIGN CHOICE,
log 70). -/
def writeSlot (s : State) (off size : Nat) (image : List Byte) (ok : Bool) : State :=
  let s := flashErase s off size
  if ok then flashWrite s off image else s

/-- FW_STAGE (R383): `image` what the host answers, `fails` the step of R366 at which it fails (0: it verifies), `flashOk` whether the
flash takes it. -/
def execFwStage (source tag : Nat) (image : Option (List Byte)) (fails : Nat) (flashOk : Bool) (s : State) : Out :=
  .next (serve s source tag 0x45 (fun n => n == 12) (fun s e b =>
    match fetched s image (min 0x1000000 (argAt b 8 4)) with
    | none => answer s e 6 (getF s Reg.secStatus_verify_cause) []
    | some im =>
      if fails % 8 ≠ 0 then
        let s := logSec (setF s Reg.secStatus_verify_cause fails) 2 none none
        answer s e 6 (getF s Reg.secStatus_verify_cause) []
      else
        let s := writeSlot s (mgtAt (1 - s.mgt.active)) 0x1000000 im flashOk
        if flashOk then answer s e 0 0 [] else answer s e 6 (getF s Reg.secStatus_verify_cause) []))

/-- Steps 3 and 4 of R383: the record is written and pair b gives up its claim. -/
def giveUp (s : State) (b : Bool) : State :=
  let s := writeHandoff { s with mgt := { s.mgt with handover := some b } } b
  settleClaims (setPresent s b false)

/-- No other request that pair b has taken waits for its answer. -/
def noneOpen (s : State) (b : Bool) (id : Nat) : Bool :=
  s.mbx.queue.all (fun e => e.id == id || e.taken != pairNo b || e.rsp.isSome)

/-- The standby is reset with boot_staged, as the winner's write of MGT_x_CTL does. -/
def bootStandby (s : State) (b staged : Bool) : State :=
  let s := if b then setB s Reg.mgtBCtl_boot_staged staged else setB s Reg.mgtACtl_boot_staged staged
  startBoot (setFails s b 0) b

/-- FW_ACTIVATE (R383): the standby boots the staged image; `cause` is the outcome of its diagnosis (0: it passes). The winner answers
everything else it has taken first, so the command waits for that (DESIGN CHOICE, log 71). -/
def execFwActivate (source tag cause : Nat) (s : State) : Out :=
  .next (serve s source tag 0x46 (fun n => n == 0) (fun s e _ =>
    match winner s with
    | none => s
    | some w =>
      if !noneOpen s w e.id then s
      else if !pdOn s (if w then 65 else 66) then answer s e 6 0 []
      else if cause % 256 ≠ 0 then
        let s := logMgt (setFails (setDiag (bootStandby s (!w) true) (!w) cause) (!w) 1) 1 (b2n (!w)) cause
        let s := if w then setB s Reg.mgtACtl_boot_staged false else setB s Reg.mgtBCtl_boot_staged false
        answer (startBoot s (!w)) e 6 0 []
      else giveUp (answer (setPairState (bootStandby s (!w) true) (!w) 3) e 0 0 []) w))

/-- HANDOVER (R391): OK, then steps 3 to 5 of R383 without a new image; it waits as FW_ACTIVATE does. -/
def execHandover (source tag : Nat) (s : State) : Out :=
  .next (serve s source tag 0x47 (fun n => n == 0) (fun s e _ =>
    match winner s with
    | none => s
    | some w => if noneOpen s w e.id then giveUp (answer s e 0 0 []) w else s))

/-- MGT_STATUS (R391). -/
def execMgtStatus (source tag : Nat) (s : State) : Out :=
  .next (serve s source tag 0x48 (fun n => n == 0) (fun s e _ =>
    let a := wordOf s [Reg.mgtAStatus_state, Reg.mgtAStatus_new_image, Reg.mgtAStatus_diag_cause, Reg.mgtAStatus_fails, Reg.mgtAStatus_gated]
    let b := wordOf s [Reg.mgtBStatus_state, Reg.mgtBStatus_new_image, Reg.mgtBStatus_diag_cause, Reg.mgtBStatus_fails, Reg.mgtBStatus_gated]
    answer s e 0 0 (natToLe 4 a ++ natToLe 4 b)))

/-! Configuration (R411 to R414) -/

/-- CFG_REPORT (R408, R411). -/
def execCfgReport (source tag : Nat) (s : State) : Out :=
  .next (serve s source tag 0x10 (fun n => n == 2) (fun s e b => answer s e 0 0 (((reportBytes s).drop (argAt b 0 2)).take 240)))

/-- FIELD_GET (R411): a field or instance that does not exist answers FAILED (DESIGN CHOICE, log 72). -/
def execFieldGet (source tag : Nat) (s : State) : Out :=
  .next (serve s source tag 0x11 (fun n => n == 3) (fun s e b =>
    let id := argAt b 0 2
    let inst := argAt b 2 1
    match fieldRow id with
    | none => answer s e 6 0 []
    | some r => if r.insts ≤ inst then answer s e 6 0 [] else answer s e 0 0 (natToLe 8 (fieldValue s id inst))))

/-- Hold a write to a field that takes effect at its block's commit (R5). -/
def setShadow (s : State) (f : Fld) (v n : Nat) : State := { s with shadow := nput s.shadow (fldKey f n) (v % 2 ^ f.width) }

/-- The domain that holds the target of a field that may be off, if one does. -/
def fieldDomain (id inst : Nat) : Option Nat :=
  if id = 0x20 ∨ id = 0x21 ∨ id = 0x22 then some (36 + inst) else if id = 0x23 then some (36 + inst / 4) else none

/-- Write an applied value to a run-time field (R412): a port that is switched on is powered first (R397); DIR's fields wait for its
commit. -/
def fieldSet (s : State) (id inst v : Nat) : State :=
  if id = 0x20 then
    (if v = 1 then portEnable (if pdOn s (36 + inst) then s else domainOn s (36 + inst)) inst else portDisable s inst)
  else if id = 0x42 then setShadow s Reg.dirCtl_min_hold v 0
  else if id = 0x43 then setShadow s Reg.dirCtl_snoop_timeout v 0
  else if id = 0x52 then setCeiling s v
  else if id = 0x22 then encCheck (fieldApply s id inst v) inst
  else fieldApply s id inst v

/-- FIELD_SET (R411, R412). A field of a port whose domain is off, but for port_enable, takes no value: FAILED (DESIGN CHOICE, log 72). -/
def execFieldSet (source tag : Nat) (s : State) : Out :=
  .next (serve s source tag 0x12 (fun n => n == 11) (fun s e b =>
    let id := argAt b 0 2
    let inst := argAt b 2 1
    match fieldRow id with
    | none => answer s e 4 0 []
    | some r =>
      if !r.runTime || inst == 255 then answer s e 4 0 []
      else if r.insts ≤ inst then answer s e 6 0 []
      else if id ≠ 0x20 ∧ (match fieldDomain id inst with | some d => pdOn s d | none => true) = false then answer s e 6 0 []
      else
        let c := fieldCheck r inst (argAt b 3 8)
        answer (fieldSet s id inst c.2) e 0 (if c.1 = 1 then 1 else 0) (natToLe 8 c.2)))

/-- IMAGE_WRITE (R413). -/
def execImageWrite (source tag : Nat) (image : Option (List Byte)) (flashOk : Bool) (s : State) : Out :=
  .next (serve s source tag 0x13 (fun n => n == 12) (fun s e b =>
    match fetched s image (min 0x100000 (argAt b 8 4)) with
    | none => answer s e 6 0 []
    | some im =>
      if varicState im = 2 then answer s e 6 0 []
      else
        let slot := 1 - activeSlot s 2
        let s := writeSlot s (varicAt slot) 0x100000 im flashOk
        if flashOk then answer (writeHeader s 2 slot) e 0 0 [] else answer s e 6 0 []))

/-- A range of the flash that RECOVERY_WRITE may write: the header copies, or the slot areas (R414, R401). -/
def recoveryArea (off n : Nat) : Bool :=
  decide (off + n ≤ 0x2000) || (decide (0x100000 ≤ off) && decide (off + n ≤ 0x500000))
    || (decide (0x1000000 ≤ off) && decide (off + n ≤ 0x3000000))

/-- Erase the sectors of a range that this recovery has not erased yet (R414). -/
def eraseFresh (s : State) (off n : Nat) : State :=
  let secs := ((List.range (cdiv (off % 4096 + n) 4096)).map (fun i => off / 4096 + i)).filter (fun k => !s.cfg.erased.contains k)
  let s := secs.foldl (fun s k => flashErase s (k * 4096) 4096) s
  { s with cfg := { s.cfg with erased := s.cfg.erased ++ secs } }

/-- RECOVERY_WRITE (R414): only the root of trust in RECOVERY serves it. -/
def execRecoveryWrite (source tag : Nat) (s : State) : Out :=
  .next (serve s source tag 0x18 (fun n => decide (4 ≤ n) && decide (n ≤ 236)) (fun s e b =>
    let off := argAt b 0 4
    let data := b.drop 4
    if e.taken ≠ 3 ∨ !recoveryArea off data.length ∨ (e.source ≠ 0 ∧ !getB s Reg.hifCtl_mctp_write_en) then answer s e 4 0 []
    else if data = [] then answer s e 0 0 []
    else answer (flashWrite (eraseFresh s off data.length) off data) e 0 0 []))

/-! Security (R367, R368) and PLDM -/

/-- ATTEST (R368, R411): BUSY while the identity key is not ready; a PPA outside reserved memory or not aligned, or a refused signature,
answers FAILED. `fails`: a write of the XMSS state fails (R364). -/
def execAttest (source tag : Nat) (fails : Bool) (s : State) : Out :=
  .next (serve s source tag 0x20 (fun n => n == 42) (fun s e b =>
    let t := argAt b 32 2
    let ppa := argAt b 34 8
    if !getB s Reg.secStatus_identity_ready then (let h := freeRetry s; answer h.2 e 1 h.1 [])
    else if ppa % 64 ≠ 0 ∨ 2 ^ 56 ≤ ppa ∨ ownerOf ppa ≠ s.dev.node ∨ localOf ppa < rsvBase s ∨ capacity s < localOf ppa + 5861 then
      answer s e 6 0 []
    else
      let r := attestReport s (b.take 32) (if 32768 ≤ t then some t else none) fails
      match r.1 with
      | none => answer r.2 e 6 0 []
      | some rep => answer (hwWrite r.2 .deviceIfReserved ppa rep) e 0 0 []))

/-- The SVN of the images that run (R367). -/
def runningSvn (s : State) : Nat := min (Config.imageSvn (rotImage s)) (Config.imageSvn (mgtImage s))

/-- SVN_ADVANCE (R367): fuses are burned up to the value. -/
def execSvnAdvance (source tag : Nat) (s : State) : Out :=
  .next (serve s source tag 0x21 (fun n => n == 1) (fun s e b =>
    let v := min 64 (argAt b 0 1)
    if runningSvn s < v then answer s e 4 0 []
    else answer { s with fuse := { s.fuse with svn := max s.fuse.svn v } } e 0 0 []))

/-- PLDM (R411): the spec gives the PLDM response no content, so its length and bytes are free (log 73). -/
def execPldm (source tag : Nat) (s : State) : Out :=
  .next (serve s source tag 0x30 (fun n => decide (n ≤ 240)) (fun s e _ =>
    let n := fresh s
    let r := freshBytes (n.1 % 241) n.2
    answer r.2 e 0 0 r.1))

end Sys2Proof.Machine
end

