-- ==== Sys2Proof/Machine/Telemetry.lean ====
section
/-!
DEFINITION. Machine/Telemetry.lean: the commands of TEL: selectors, counters, dumps and the control of sampling (spec 20 R416 to R426).
-/
namespace Sys2Proof.Machine
open Sys2Proof

/-! Counters (R416 to R419) -/

/-- What decides whether a commit zeroes a counter (R419). -/
def selKey (s : State) (n : Nat) : Nat × Nat × Nat × Nat :=
  (getF s Reg.telSel_event n, getF s Reg.telSel_inst n, getF s Reg.telSel_filter n, getF s Reg.telSel_enable n)

/-- The selector names a reserved event, or an instance beyond the event's (R419); event 0x00 counts nothing. -/
def badSel (s : State) (n : Nat) : Bool :=
  let e := getF s Reg.telSel_event n
  let i := getF s Reg.telSel_inst n
  e != 0 && (telInsts e == 0 || (i != 0xFF && decide (telInsts e ≤ i)))

/-- TEL_CNT_n.clear (R417). -/
def telClear (s : State) (n : Nat) : State := setF (setF s Reg.telCnt_value 0 n) Reg.telCnt_overflow 0 n

/-- TEL_COMMIT (R5, R419). -/
def telCommit (s0 : State) : State :=
  let ns := dedupSort (s0.shadow.filterMap (fun e => (rwcAt Reg.tableTel e.1).map (·.2)))
  let s := commitTable s0 Reg.tableTel
  let s := ns.foldl (fun s n =>
    let s := if selKey s n = selKey s0 n then s else telClear s n
    setB s Reg.telCnt_bad_sel (badSel s n) n) s
  let keep := s.tel.live.filter (fun n => !ns.contains n)
  { s with tel := { s.tel with live := dedupSort (keep ++ ns.filter (fun n => getB s Reg.telSel_enable n)) } }

/-- TEL_COMMIT (R419). -/
def execTelCommit (s : State) : Out := .next (telCommit s)

/-- TEL_CNT_CLEAR (R417). -/
def execTelCntClear (n : Nat) (s : State) : Out := if n < 4096 then .next (telClear s n) else .next s

/-! Dumps (R423 to R425) -/

/-- Bytes of a dump slot. -/
def dumpSlot (s : State) : Nat := 2 ^ clamp 6 16 (getF s Reg.telDumpCtl_slot_log2)

/-- Slots of the dump ring. -/
def dumpSlots (s : State) : Nat := 2 ^ clamp 2 12 (getF s Reg.telDumpCtl_log2_slots)

/-- Setting TEL_DUMP_CTL.en: sequence, tail and head are zeroed. -/
def dumpEnable (s : State) : State :=
  if getB s Reg.telDumpCtl_en then s
  else
    let s := setRing (setB s Reg.telDumpCtl_en true) ringDump ⟨0, 0⟩
    { s with tel := { s.tel with seq := 0, skipped := 0 } }

/-- TEL_DUMP_ENABLE (R423). -/
def execTelDumpEnable (s : State) : Out := .next (dumpEnable s)

/-- The counters of a dump, in ascending index (R423). -/
def dumped (s : State) : List Nat := s.tel.live.filter (fun n => getB s Reg.telSel_dump n)

/-- A record (R424). -/
def dumpRecord (s : State) : List Byte :=
  let room := (dumpSlot s - 64) / 8
  let l := dumped s
  let n := min l.length room
  let head := natToLe 4 s.tel.seq ++ natToLe 4 (n + b2n (decide (room < l.length)) * 2 ^ 13) ++ natToLe 8 (sinceT0 s % 2 ^ 48)
    ++ natToLe 4 (getF s Reg.pwrDvfs_current) ++ natToLe 4 s.tel.skipped ++ natToLe 40 0
  head ++ (l.take room).flatMap (fun c => natToLe 8 (getF s Reg.telCnt_value c + getF s Reg.telCnt_overflow c * 2 ^ 48 + c % 4096 * 2 ^ 50))

/-- Write a record into the next slot: in the pool, or to the host as a transfer of a management channel (R193, R424, R425). -/
def dumpWrite (s : State) : State :=
  let c := ringCnt s ringDump
  let a := getF s Reg.telDumpBase_base + c.wr % dumpSlots s * dumpSlot s
  let b := dumpRecord s
  let s := { s with tel := { s.tel with seq := (s.tel.seq + 1) % 2 ^ 32 } }
  if dumpSlots s ≤ ringUsed c then bumpSat s Reg.telDumpOvf_count
  else if getB s Reg.telDumpCtl_host then
    let e := mgtEngine s
    dmaView { s with dma := { s.dma with mgts := s.dma.mgts ++ [⟨e, a, b, true⟩] } } e
  else
    let s := setRing (hwWrite s .deviceIfReserved (a % 2 ^ 56) b) ringDump { c with wr := (c.wr + 1) % 2 ^ 24 }
    { s with tel := { s.tel with skipped := 0 } }

/-- TEL_DUMP_PERIOD (R423, R425): a record of the host is still being written while its transfer waits, and `busy` tells that one of the pool
is. The sequence counts the snapshots taken, dropped ones too (DEDUCED, log 74). -/
def execTelDumpPeriod (busy : Bool) (_a : Unit) (s : State) : Out :=
  if !getB s Reg.telDumpCtl_en then .next s
  else if busy || s.dma.mgts.any (·.dump) then .next { s with tel := { s.tel with skipped := (s.tel.skipped + 1) % 2 ^ 32 } }
  else .next (dumpWrite s)

/-! Sampling control (R426) -/

/-- A write of TEL_SAMP_CTL: the generator is seeded afresh (its values are free), and setting en zeroes the pointers. -/
def sampCtl (s : State) (en : Bool) (k filter log2 : Nat) : State :=
  let s := if en && !getB s Reg.telSampCtl_en then setRing s ringSamp ⟨0, 0⟩ else s
  let s := setF (setB s Reg.telSampCtl_en en) Reg.telSampCtl_k (clamp 4 24 (k % 32))
  setF (setF s Reg.telSampCtl_filter filter) Reg.telSampCtl_log2_entries log2

/-- TEL_SAMP_CTL_WRITE (R426). -/
def execTelSampCtlWrite (en : Bool) (k filter log2 : Nat) (s : State) : Out := .next (sampCtl s en k filter log2)

end Sys2Proof.Machine
end

