-- ==== Sys2Proof/Machine/Registers.lean ====
section
/-!
DEFINITION. Machine/Registers.lean: REGISTER_WRITE: the field types of R3, the access rules of R6 and R339, the gate of a
management pair (R376), and what a write of each register does. A register whose write is a row of its own of the command table
reaches the same operations from here.
-/
namespace Sys2Proof.Machine
open Sys2Proof

/-! Finding a register -/

/-- The first copy of a register that stands at its place in the map: TEL filters are numbered from 1 (R421). -/
def firstCopy (r : RegDesc) : Nat :=
  if r.off = Reg.telFltCtl_priv_mask.off ∨ r.off = Reg.telFltLo_lo.off ∨ r.off = Reg.telFltHi_hi.off then 1 else 0

/-- Copy of register r that covers an offset. -/
def copyAt (r : RegDesc) (off : Nat) : Option (RegDesc × Nat) :=
  if off < r.off then none
  else
    let n := if r.stride = 0 then 0 else (off - r.off) / r.stride
    if firstCopy r ≤ n ∧ n < r.count ∧ off - r.off - n * r.stride < r.width / 8 then some (r, n) else none

/-- The register and copy that cover an offset of PF0 BAR0; none for an offset that holds no register (R6). -/
def regAt (off : Nat) : Option (RegDesc × Nat) := Reg.table.findSome? (fun r => copyAt r off)

/-! Field types (R3, R443) -/

/-- The value that a write stores in a field whose range is clamped. -/
def clampFld (f : Fld) (v : Nat) : Nat :=
  if f = Reg.smcTrain_period_ms then clamp 10 1000 v
  else if f = Reg.smcRsv_frames then clamp 96 4096 v
  else if f = Reg.dirCtl_min_hold then clamp 32 1024 v
  else if f = Reg.dirCtl_snoop_timeout then clamp 10 1000 v
  else if f = Reg.fptLlCtl_replay_timeout then max 150 v
  else if f = Reg.nieCtl_cto_ms then clamp 1 4000 v
  else if f = Reg.pwrWdogCtl_timeout then clamp 1 50 v
  else if f = Reg.pwrLimits_power_cap_w then clamp 100 1050 v
  else if f = Reg.pwrLimits_icc_limit_a then clamp 100 640 v
  else if f = Reg.pwrLimits_throttle_c then clamp 70 100 v
  else if f = Reg.telDumpCtl_slot_log2 then clamp 6 16 v
  else if f = Reg.telDumpCtl_log2_slots then clamp 2 12 v
  else v

/-- The ring whose read count a head field reports (R441). -/
def headRing (f : Fld) : Option Ring :=
  if f = Reg.qmgErrCtl_head then some ringQmg
  else if f = Reg.nmeErrCtl_head then some ringNme
  else if f = Reg.xtuErrCtl_head then some ringXtu
  else if f = Reg.xtuCcqCtl_head then some ringXccq
  else if f = Reg.dmaErrCtl_head then some ringDma
  else if f = Reg.rasErrCtl_head then some ringRas
  else if f = Reg.dirErrCtl_head then some ringDir
  else if f = Reg.fptErrCtl_head then some ringFpt
  else if f = Reg.hifErrCtl_head then some ringHif
  else if f = Reg.secErrCtl_head then some ringSec
  else if f = Reg.secCcqCtl_head then some ringSccq
  else if f = Reg.mgtErrCtl_head then some ringMgt
  else if f = Reg.telDumpPtr_head then some ringDump
  else if f = Reg.telSampPtr_head then some ringSamp
  else none

/-- An agent is named by a directory entry (spec 12, DIR_AGENT_a.enable). -/
def agentNamed (s : State) (a : Nat) : Bool := s.dir.ents.any (fun e => (holders s e.2).contains a)

/-- A port of the XBAR that takes no settings: the bridge ports and the unused ones (R222). -/
def xbarFixed (p : Nat) : Bool := [7, 23, 15, 31, 17].contains p

/-- Writes of value v to copy n of a field are ignored at present. -/
def fldIgnored (s : State) (f : Fld) (n v : Nat) : Bool :=
  if f = Reg.qmgQctxBase_base then s.qmg.live != []
  else if f = Reg.xtuResmapBase_base then getB s Reg.xtuCtl_mig_en
  else if f = Reg.xtuTenant4_ext_capacity ∨ f = Reg.xtuTenant8_ext_table_ppa then getF s Reg.xtuTenant0_state n != 0
  else if f = Reg.smcRsv_frames ∨ f = Reg.smcProf_grain_log2 ∨ f = Reg.smcProf_stack_mask then getB s Reg.smcLock_locked
  else if f = Reg.xbarPortCfg_rank ∨ f = Reg.xbarPortCfg_lat_target then xbarFixed n
  else if f = Reg.nieJob0_tenant ∨ f = Reg.nieJob4_rank_count ∨ f = Reg.nieJob8_rank_ppa then getB s Reg.nieJob0_valid n
  else if f = Reg.dirAgent_node then getB s Reg.dirAgent_enable n
  else if f = Reg.dirAgent_enable then v == 0 && agentNamed s n
  else if f = Reg.secCtl_mem_enc_en ∨ f = Reg.secCtl_mem_class ∨ f = Reg.secCtl_dev_class ∨ f = Reg.secCtl_link_class
      ∨ f = Reg.cfgFeatAccept_accept then getB s Reg.cfgStatus_committed
  else false

/-- The effect of a write on one field by its type: v is what the write holds in the field's bits (R3, R443). -/
def writeFld (s : State) (t : FTy) (f : Fld) (n v : Nat) : State :=
  match t with
  | .ro => s
  | .rw =>
    match headRing f with
    | some r => ringHead s r f.width v
    | none => setF s f (clampFld f v) n
  | .rwc => setShadow s f (clampFld f v) n
  | .w1c => if v = 2 ^ f.width - 1 then setF s f 0 n else s
  | .w1s => setF s f (Nat.lor (getF s f n) v) n
  | .wo => s

/-- A write of v to copy n of a register by the types of its fields; what is ignored is judged before the write. -/
def writeFields (s0 : State) (r : RegDesc) (n v : Nat) : State :=
  (r.fields.filter (fun e => !fldIgnored s0 e.2 n (bitsOf v e.2.lo e.2.width))).foldl
    (fun s e => writeFld s e.1 e.2 n (bitsOf v e.2.lo e.2.width)) s0

/-! Registers with behaviour of their own -/

/-- What a value written holds in a field's bits. -/
def inFld (f : Fld) (v : Nat) : Nat := bitsOf v f.lo f.width

/-- What a value written holds in a one-bit field. -/
def inBit (f : Fld) (v : Nat) : Bool := inFld f v == 1

/-- The state that an operation shared with a command answers. -/
def after (s : State) (o : Out) : State :=
  match o with
  | .next t => t
  | _ => s

/-- Registers of QMG (R74). A new place for the contexts is another array, of which QMG knows nothing yet (log 125). -/
def writeQmg (s : State) (r : RegDesc) (n v : Nat) : State :=
  let s := if r.off = Reg.qmgQctxBase_base.off && s.qmg.live == [] then { s with qmg := { s.qmg with tenantOf := [], lost := [] } } else s
  let s := writeFields s r n v
  if r.off ≠ Reg.qmgQcmd_op.off then s
  else
    let q := inFld Reg.qmgQcmd_queue v
    match inFld Reg.qmgQcmd_op v with
    | 1 => after s (execReadCtx q s)
    | 2 => after s (execWriteCtx q s)
    | 3 => after s (execEnable q s)
    | 4 => after s (execDisableDrain q s)
    | 5 => after s (execDisableAbort q s)
    | 6 => after s (execClearPred q s)
    | _ => s

/-- Registers of NME (R5, R96). -/
def writeNme (s : State) (env : RegEnv) (r : RegDesc) (n v : Nat) : State :=
  if r.off = Reg.nmeCommit_commit.off then (if inBit Reg.nmeCommit_commit v then commitTable s Reg.tableNme else s)
  else if r.off = Reg.nmeRetire_retire.off then
    if getB s Reg.nmeRetire_busy then s
    else
      let s := writeFields s r n v
      if inBit Reg.nmeRetire_retire v then after s (execNmeRetire ⟨inFld Reg.nmeRetire_engine v, env.remote⟩ s) else s
  else writeFields s r n v

/-- XTU_TENANT_t word 0x00 (R26). -/
def writeTenant (s : State) (t v : Nat) : State :=
  let st := getF s Reg.xtuTenant0_state t
  let new := inFld Reg.xtuTenant0_state v
  let conf := inBit Reg.xtuTenant0_confidential v
  let bus := inBit Reg.xtuTenant0_sr1_bus_error v
  if st = 0 ∧ new = 1 then after s (execTenantCreate t conf bus s)
  else if st = 0 then setB (setB s Reg.xtuTenant0_confidential conf t) Reg.xtuTenant0_sr1_bus_error bus t
  else if st = 1 ∧ new = 2 then after s (execTenantRetire t s)
  else s

/-- XTU_RCMD (R178, R186, R189, R190, R450). -/
def writeRcmd (s : State) (v : Nat) : State :=
  let t := inFld Reg.xtuRcmd_tenant v
  let tag := inFld Reg.xtuRcmd_tag v
  let a := getF s Reg.xtuRcmdArg0_addr
  let c := getF s Reg.xtuRcmdArg1_count
  match inFld Reg.xtuRcmd_op v with
  | 1 => after s (execInvalidateRange t tag a c s)
  | 2 => after s (execInvalidateTenant t tag s)
  | 3 => revokeBy s (.rcmd t tag a)
  | 4 => after s (execTableSwap t tag a c s)
  | 5 => after s (execResmapClear tag a c s)
  | _ => setF (setF s Reg.xtuRcmd_tenant t) Reg.xtuRcmd_tag tag

/-- Registers of XTU. -/
def writeXtu (s : State) (r : RegDesc) (n v : Nat) : State :=
  if r.off = Reg.xtuTenant0_state.off then writeTenant s n v
  else if r.off = Reg.xtuRcmd_op.off then (if getB s Reg.xtuRcmd_busy then s else writeRcmd s v)
  else if r.off = Reg.xtuMigDone_index.off then
    after s (execXtuMigDone (inFld Reg.xtuMigDone_index v) (inFld Reg.xtuMigDone_outcome v) s)
  else if r.off = Reg.xtuCtl_mig_en.off then
    let s := if getB s Reg.xtuCtl_mig_en && !inBit Reg.xtuCtl_mig_en v then after s (execMigEnClear s) else s
    writeFields s r n v
  else writeFields s r n v

/-- Registers of DMA (R208). -/
def writeDma (s : State) (r : RegDesc) (n v : Nat) : State :=
  if r.off = Reg.dmaMigCmd2_go.off then
    let s := writeFields s r n v
    if inBit Reg.dmaMigCmd2_go v then
      after s (execDmaMigCmd (getF s Reg.dmaMigCmd0_ppa) (getF s Reg.dmaMigCmd1_iova) (getF s Reg.dmaMigCmd2_pasid) (getF s Reg.dmaMigCmd2_index) s)
    else s
  else if r.off = Reg.dmaMigPop_pop.off then (if inBit Reg.dmaMigPop_pop v then after s (execDmaMigPop s) else s)
  else writeFields s r n v

/-- Registers of SMC (R225, R229, R407). -/
def writeSmc (s : State) (env : RegEnv) (r : RegDesc) (n v : Nat) : State :=
  if r.off = Reg.smcCommit_commit.off then (if inBit Reg.smcCommit_commit v then commitSmc s else s)
  else if r.off = Reg.smcLock_locked.off then (if inBit Reg.smcLock_locked v then lockLayout s else s)
  else if r.off = Reg.smcTrain_retrain_now.off then
    let s := setF s Reg.smcTrain_period_ms (clampFld Reg.smcTrain_period_ms (inFld Reg.smcTrain_period_ms v)) n
    if inBit Reg.smcTrain_retrain_now v then retrainPass s n env.failed else s
  else writeFields s r n v

/-- DIR_CMD (R278): a write while busy is ignored. -/
def writeDirCmd (s : State) (v : Nat) : State :=
  if getB s Reg.dirCmd_busy then s
  else
    let s := setF s Reg.dirCmd_agent (inFld Reg.dirCmd_agent v)
    match inFld Reg.dirCmd_op v with
    | 1 => after s (execBinvRange (getF s Reg.dirCmdArg0_ppa) (getF s Reg.dirCmdArg1_ells) s)
    | 2 => after s (execAgentRelease (inFld Reg.dirCmd_agent v) s)
    | _ => s

/-- Registers of DIR. -/
def writeDir (s : State) (r : RegDesc) (n v : Nat) : State :=
  if r.off = Reg.dirCommit_commit.off then (if inBit Reg.dirCommit_commit v then commitDir s else s)
  else if r.off = Reg.dirCmd_op.off then writeDirCmd s v
  else writeFields s r n v

/-- FPT_p_CTL (R293, R295). -/
def writeFptCtl (s : State) (p v : Nat) : State :=
  let s := setF s Reg.fptCtl_auto_up (inFld Reg.fptCtl_auto_up v) p
  let s := setF s Reg.fptCtl_allow_x4 (inFld Reg.fptCtl_allow_x4 v) p
  let s := if inBit Reg.fptCtl_enable v then portEnable s p else portDisable s p
  if inBit Reg.fptCtl_retrain v then portRetrain s p else s

/-- Registers of FPT. -/
def writeFpt (s : State) (r : RegDesc) (n v : Nat) : State :=
  if r.off = Reg.fptCtl_enable.off then writeFptCtl s n v
  else if r.off = Reg.fptEnc_enc_en.off then encCheck (setEnc s n (v % 4)) n
  else if r.off = Reg.fptVc0_region.off then setVc s n 0 v
  else if r.off = Reg.fptVc1_region.off then setVc s n 1 v
  else if r.off = Reg.fptVc2_region.off then setVc s n 2 v
  else if r.off = Reg.fptVc3_region.off then setVc s n 3 v
  else writeFields s r n v

/-- Registers of ROUTER (R310, R229). -/
def writeRouter (s : State) (r : RegDesc) (n v : Nat) : State :=
  if r.off = Reg.routerCommit_commit.off then (if inBit Reg.routerCommit_commit v then commitRouter s else s)
  else if r.off = Reg.routerTblData_entry.off then tblWrite s v
  else writeFields s r n v

/-- NIE_FLOW_CMD (R316). -/
def writeFlowCmd (s : State) (v : Nat) : State :=
  let f := inFld Reg.nieFlowCmd_flow v
  let j := inFld Reg.nieFlowCmd_job v
  let a := inFld Reg.nieFlowCmd_src_node v
  match inFld Reg.nieFlowCmd_op v with
  | 1 => after s (execNieFlowOpen f j a s)
  | 2 => after s (execNieFlowClose f j a s)
  | _ => flowCmd s f j a (getF s Reg.nieFlowCmd_result)

/-- Registers of NIE. -/
def writeNie (s : State) (r : RegDesc) (n v : Nat) : State :=
  if r.off = Reg.nieFlowCmd_op.off then writeFlowCmd s v else writeFields s r n v

/-- ADM_MAP_DATA: the entry that ADM_MAP_ADDR names, if there is one (R323). -/
def writeAdmMap (s : State) (v : Nat) : State :=
  let i := getF s Reg.admMapAddr_index
  if 16449 < i then s
  else
    let w := inFld Reg.admMapData_host v + inFld Reg.admMapData_valid v * 2 ^ 15
    { s with adm := { s.adm with map := nset 0 s.adm.map i w } }

/-- Registers of ADM (R322, R323, R328). -/
def writeAdm (s : State) (r : RegDesc) (n v : Nat) : State :=
  if r.off = Reg.admMapData_host.off then writeAdmMap s v
  else if r.off = Reg.admBktCmd_op.off then
    match inFld Reg.admBktCmd_op v with
    | 1 => bktRead s (getF s Reg.admBktSel_bucket)
    | 2 => bktWrite s (getF s Reg.admBktSel_bucket)
    | _ => s
  else writeFields s r n v

/-- Registers of HIF (R349). -/
def writeHif (s : State) (r : RegDesc) (n v : Nat) : State :=
  if r.off = Reg.hifMbxSubmit_go.off then (if inBit Reg.hifMbxSubmit_go v then mbxSubmit s else s)
  else if r.off = Reg.hifMbxPop_pop.off then (if inBit Reg.hifMbxPop_pop v then mbxPop s else s)
  else writeFields s r n v

/-- SEC_KCMD (R360, R362, R373). -/
def writeKcmd (s : State) (env : RegEnv) (v : Nat) : State :=
  let t := inFld Reg.secKcmd_tenant v
  let p := inFld Reg.secKcmd_port v
  let tag := inFld Reg.secKcmd_tag v
  let s := kcmd s t p tag (getF s Reg.secKcmd_result)
  match inFld Reg.secKcmd_op v with
  | 1 => eraseRange s t tag (getF s Reg.secKcmdArg0_offset) (getF s Reg.secKcmdArg1_ells) env.place
  | 2 => linkRekey s p tag
  | 3 => pairSet s p tag
  | _ => s

/-- Registers of SEC; the words of SEC_PAIR_n are held until PAIR_SET takes them and read as zero. -/
def writeSec (s : State) (env : RegEnv) (r : RegDesc) (n v : Nat) : State :=
  if r.off = Reg.secKcmd_op.off then writeKcmd s env v
  else if r.off = Reg.secPair_secret.off then setF s Reg.secPair_secret v n
  else writeFields s r n v

/-- CFG_FEAT_CTL (R409). -/
def writeCfg (s : State) (env : RegEnv) (r : RegDesc) (n v : Nat) : State :=
  if r.off = Reg.cfgFeatCtl_commit.off then (if inBit Reg.cfgFeatCtl_commit v then featCommit (setHostCfg s env.host) else s)
  else writeFields s r n v

/-- TEL_DUMP_CTL (R423): writes other than to en are ignored while en is 1. -/
def writeDumpCtl (s : State) (r : RegDesc) (v : Nat) : State :=
  let en := inBit Reg.telDumpCtl_en v
  if getB s Reg.telDumpCtl_en then (if en then s else setB s Reg.telDumpCtl_en false)
  else
    let s := setB (writeFields s r 0 v) Reg.telDumpCtl_en false
    if en then dumpEnable s else s

/-- Registers of TEL (R417, R419, R423, R426). -/
def writeTel (s : State) (r : RegDesc) (n v : Nat) : State :=
  if r.off = Reg.telCommit_commit.off then (if inBit Reg.telCommit_commit v then telCommit s else s)
  else if r.off = Reg.telDumpCtl_en.off then writeDumpCtl s r v
  else if r.off = Reg.telSampCtl_en.off then
    sampCtl s (inBit Reg.telSampCtl_en v) (inFld Reg.telSampCtl_k v) (inFld Reg.telSampCtl_filter v) (inFld Reg.telSampCtl_log2_entries v)
  else if r.off = Reg.telCnt_clear.off then (if inBit Reg.telCnt_clear v then telClear s n else s)
  else writeFields s r n v

/-- MGT_A_CTL and MGT_B_CTL: only the other pair, as winner, can write them. -/
def writeMgtCtl (s : State) (src : Src) (b : Bool) (v : Nat) : State :=
  if src ≠ (if b then .pairA else .pairB) then s
  else
    let staged := bitOf v 1
    if bitOf v 0 then pairReset s b staged
    else if b then setB s Reg.mgtBCtl_boot_staged staged else setB s Reg.mgtACtl_boot_staged staged

/-- Registers of MGT. -/
def writeMgt (s : State) (src : Src) (r : RegDesc) (n v : Nat) : State :=
  if r.off = Reg.mgtACtl_reset.off then writeMgtCtl s src false v
  else if r.off = Reg.mgtBCtl_reset.off then writeMgtCtl s src true v
  else writeFields s r n v

/-- Registers of PWR, as the winning pair b writes them: its own claim and heartbeats, the point, a switch, limits (R375, R376). -/
def writePwr (s : State) (b : Bool) (r : RegDesc) (n v : Nat) : State :=
  if r.off = (if b then Reg.pwrClaimB_present.off else Reg.pwrClaimA_present.off) then writeClaims s b (bitOf v 0) none
  else if r.off = (if b then Reg.pwrClaimA_present.off else Reg.pwrClaimB_present.off) then s
  else if r.off = Reg.pwrHb_beat.off then
    let own := if b then [2, 3] else [0, 1]
    { s with pwr := { s.pwr with hb := own.foldl (fun h c => if bitOf v c then putBits h c 1 1 else h) s.pwr.hb } }
  else if r.off = Reg.pwrDvfs_target.off then writeTarget s (inFld Reg.pwrDvfs_target v)
  else if r.off = Reg.pwrPdCmd_go.off then
    if getB s Reg.pwrPdCmd_busy then s
    else
      let d := inFld Reg.pwrPdCmd_domain v
      let s := writeFields s r n v
      if inBit Reg.pwrPdCmd_go v then pdSwitch s d (inBit Reg.pwrPdCmd_isOn v) (askingSource s b d) else s
  else writeFields s r n v

/-- A write of a register, by its block. PF0's writes to PWR are ignored (R376). -/
def writeReg (s : State) (src : Src) (env : RegEnv) (r : RegDesc) (n v : Nat) : State :=
  match r.block with
  | 0x000 => writeHif s r n v
  | 0x001 => writeCfg s env r n v
  | 0x002 => (match src with
    | .pf0 => s
    | .pairA => writePwr s false r n v
    | .pairB => writePwr s true r n v)
  | 0x003 => writeMgt s src r n v
  | 0x004 => writeSec s env r n v
  | 0x005 => writeTel s r n v
  | 0x010 => writeQmg s r n v
  | 0x018 => writeAdm s r n v
  | 0x020 => writeXtu s r n v
  | 0x028 => writeDir s r n v
  | 0x030 => writeNme s env r n v
  | 0x040 => writeDma s r n v
  | 0x048 => if r.off = Reg.xbarCommit_commit.off then (if inBit Reg.xbarCommit_commit v then commitXbar s else s) else writeFields s r n v
  | 0x050 => writeSmc s env r n v
  | 0x070 =>
    if r.off = Reg.parCmd_retire.off then
      let s := writeFields s r n v
      if inBit Reg.parCmd_retire v then parRetire s (inFld Reg.parCmd_stack v) else s
    else writeFields s r n v
  | 0x080 => writeNie s r n v
  | 0x090 => writeRouter s r n v
  | 0x0A0 => writeFpt s r n v
  | _ => writeFields s r n v

/-! Accesses (R6, R339, R376) -/

/-- A write of a pair that passes the gate though the pair is not the winner: its own MGT registers, claim and heartbeats (R376). -/
def passesGate (b : Bool) (off : Nat) : Bool :=
  off == Reg.pwrHb_beat.off
    || off == (if b then Reg.pwrClaimB_present.off else Reg.pwrClaimA_present.off)
    || off == (if b then Reg.mgtBStatus_state.off else Reg.mgtAStatus_state.off)
    || off == (if b then Reg.mgtBCtl_reset.off else Reg.mgtACtl_reset.off)

/-- HIF records an access of PF0; a pair's access does not pass HIF (DEDUCED, log 76). -/
def noteAccess (s : State) (src : Src) (cause off : Nat) : State := if src = .pf0 then recordAccess s cause off true else s

/-- One access of `size` bytes that covers one register, or an offset that holds none (R6, R339). -/
def writeOne (s : State) (src : Src) (env : RegEnv) (off size v : Nat) : State :=
  match regAt off with
  | none => if blockOff s off then noteAccess s src 2 off else s
  | some (r, n) =>
    if r.width = 64 ∧ size = 4 then noteAccess s src 1 off
    else if blockOff s off then noteAccess s src 2 off
    else writeReg s src env r n v

/-- An access of any size: other than 4 or 8 bytes, or not aligned, is discarded; 8 bytes over two 32-bit registers are two accesses, the
lower first (R339). -/
def writeAt (s : State) (src : Src) (env : RegEnv) (off size v : Nat) : State :=
  if ¬ (size = 4 ∨ size = 8) ∨ off % size ≠ 0 then noteAccess s src 1 off
  else if size = 4 then writeOne s src env off 4 (v % 2 ^ 32)
  else
    match regAt off with
    | some (r, _) =>
      if r.width = 64 then writeOne s src env off 8 (v % 2 ^ 64)
      else writeOne (writeOne s src env off 4 (v % 2 ^ 32)) src env (off + 4) 4 (v / 2 ^ 32 % 2 ^ 32)
    | none => writeOne (writeOne s src env off 4 (v % 2 ^ 32)) src env (off + 4) 4 (v / 2 ^ 32 % 2 ^ 32)

/-- A write of a pair: its firmware must run, and the gate discards what the winner alone may write (R376). -/
def writePair (s : State) (b : Bool) (env : RegEnv) (off size v : Nat) : State :=
  let src := if b then Src.pairB else Src.pairA
  if !pairRuns s b then s
  else if winner s = some b || passesGate b off then writeAt s src env off size v
  else gateWrite s b

/-- Where a pair's writes reach the GPIO output stage: the spec gives it no register, and the model puts one beyond BAR0 (DESIGN CHOICE, log 141). -/
def gpioOff : Nat := 2 ^ 28

/-- The winner drives GPIO_2 to GPIO_15 to bits 15:2 of v, through the gate of R376 (R434). -/
def gpioWrite (s : State) (b : Bool) (v : Nat) : State :=
  if !pairRuns s b then s
  else if winner s = some b then { s with pwr := { s.pwr with gpio := some (v % 2 ^ 16 / 4 * 4) } }
  else gateWrite s b

/-- REGISTER_WRITE (R3, R6, R339, R345, R376, R434): a write of `size` bytes at an offset of PF0 BAR0 by the host, or by a management pair. Before
readiness, or outside the BAR, HIF answers Unsupported Request. -/
def execRegisterWrite (src : Src) (env : RegEnv) (off size v : Nat) (s : State) : Out :=
  match src with
  | .pf0 =>
    if bar2Open s 0 && decide (off < 2 ^ 28) then .next (writeAt s .pf0 env off size v)
    else if s.hif.linkUp && !s.hif.d3.contains 0 then .next (emit (aerNote s 0 .unsupportedRequest) (.unsupported off))
    else .next s
  | .pairA => if off < 2 ^ 28 then .next (writePair s false env off size v) else if off = gpioOff then .next (gpioWrite s false v) else .next s
  | .pairB => if off < 2 ^ 28 then .next (writePair s true env off size v) else if off = gpioOff then .next (gpioWrite s true v) else .next s

/-! Reads (R3, R6) -/

/-- What a field reads as: WO zero, RWC the pending value, a ring's head and tail the low bits of its counts. -/
def readFld (s : State) (t : FTy) (f : Fld) (n : Nat) : Nat :=
  match t with
  | .wo => 0
  | .rwc => ngetD (getF s f n) s.shadow (fldKey f n)
  | .rw =>
    match headRing f with
    | some r => (ringCnt s r).rd % 2 ^ f.width
    | none => getF s f n
  | _ => getF s f n

/-- The tail field beside a head field. -/
def tailRing (r : RegDesc) : Option Ring := r.fields.findSome? (fun e => headRing e.2)

/-- What copy n of a register reads as: its fields, and the registers that show state held elsewhere. -/
def readReg (s : State) (r : RegDesc) (n : Nat) : Nat :=
  if r.off = Reg.hifMbxStatus_queued.off then
    s.mbx.queue.length + s.mbx.fifo.length * 2 ^ 16 + b2n (winner s).isSome * 2 ^ 22
  else if r.off = Reg.hifMbxRsp_data.off then
    match s.mbx.fifo with
    | [] => 0
    | id :: _ =>
      match s.mbx.queue.find? (fun e => e.id == id) with
      | none => 0
      | some e => leToNat (((e.rsp.getD []).drop (8 * n)).take 8)
  else if r.off = Reg.cfgFeatOffer_offer.off then
    -- the bit of ATS and PRI is as the host last told it
    if n = 0 ∧ 4 ≤ getF s Reg.cfgStatus_phase then featOffer s else 0
  else if r.off = Reg.admMapData_host.off then ngetD 0 s.adm.map (getF s Reg.admMapAddr_index)
  else if r.off = Reg.routerTblData_entry.off then
    let d := getF s Reg.routerTblAddr_dest
    if getB s Reg.routerTblAddr_half then ngetD 0 s.rtr.half1 d else ngetD 0 s.rtr.half0 d
  else if r.off = Reg.routerPOld_count.off then min (oldCount s n) (2 ^ Reg.routerPOld_count.width - 1)
  else if r.off = Reg.routerPDepth_vc_n.off then ((List.range 4).map (fun vc => min (heldFlits s n vc) 32767 * 2 ^ (15 * vc))).sum
  else
    (r.fields.map (fun e =>
      let v := match tailRing r with
        | some g => if e.1 = .ro then (ringCnt s g).wr % 2 ^ e.2.width else readFld s e.1 e.2 n
        | none => readFld s e.1 e.2 n
      v * 2 ^ e.2.lo)).sum

/-- What a 4-byte or 8-byte aligned read at an offset of BAR0 returns (R6, R339). -/
def readAt (s : State) (off size : Nat) : Nat :=
  if ¬ (size = 4 ∨ size = 8) ∨ off % size ≠ 0 then 0
  else
    let half := fun o => if blockOff s o then 2 ^ 32 - 1
      else match regAt o with
        | none => 0
        | some (r, n) => readReg s r n / 2 ^ (8 * (o - r.off - n * r.stride)) % 2 ^ 32
    if size = 4 then half off else half off + half (off + 4) * 2 ^ 32

end Sys2Proof.Machine
end

