-- ==== Sys2Proof/Machine/Dispatch.lean ====
section
/-! DEFINITION. Machine/Dispatch.lean: each command's meaning, one arm per constructor. -/
namespace Sys2Proof.Machine
open Sys2Proof

/-- The effect of a command on everything but the queue of waiting commands. -/
def exec (i : Instr) (s : State) : Host.Outcome State Fault Refusal :=
  match i with
  | .deviceReset => Sys2Proof.Machine.execDeviceReset s
  | .deviceStart env => Sys2Proof.Machine.execDeviceStart env s
  | .pcieReset => Sys2Proof.Machine.execPcieReset s
  | .pcieLinkDown => Sys2Proof.Machine.execPcieLinkDown s
  | .functionLevelReset fn => Sys2Proof.Machine.execFunctionLevelReset fn s
  | .vfDisable n => Sys2Proof.Machine.execVfDisable n s
  | .atsInvalidationRequest fn pasid page pages tag => Sys2Proof.Machine.execAtsInvalidationRequest fn pasid page pages tag s
  | .pageRequestResponse index success => Sys2Proof.Machine.execPageRequestResponse index success s
  | .priTimeout index => Sys2Proof.Machine.execPriTimeout index s
  | .hostCompletion tag res remote => Sys2Proof.Machine.execHostCompletion tag res remote s
  | .hostCompletionTimeout tag => Sys2Proof.Machine.execHostCompletionTimeout tag s
  | .registerWrite src env off size v => Sys2Proof.Machine.execRegisterWrite src env off size v s
  | .blockUnavailableTimeout off bytes write => Sys2Proof.Machine.execBlockUnavailableTimeout off bytes write s
  | .sqTail fn page idx value => Sys2Proof.Machine.execSqTail fn page idx value s
  | .cqHead fn page idx value => Sys2Proof.Machine.execCqHead fn page idx value s
  | .doorbellWriteDropped fn off bytes => Sys2Proof.Machine.execDoorbellWriteDropped fn off bytes s
  | .readCtx queue => Sys2Proof.Machine.execReadCtx queue s
  | .writeCtx queue => Sys2Proof.Machine.execWriteCtx queue s
  | .enable queue => Sys2Proof.Machine.execEnable queue s
  | .disableDrain queue => Sys2Proof.Machine.execDisableDrain queue s
  | .disableAbort queue => Sys2Proof.Machine.execDisableAbort queue s
  | .clearPred queue => Sys2Proof.Machine.execClearPred queue s
  | .descriptorFetch hosts => Sys2Proof.Machine.execDescriptorFetch hosts s
  | .predicateRelease uid => Sys2Proof.Machine.execPredicateRelease uid s
  | .waitSlotsCleared uid => Sys2Proof.Machine.execWaitSlotsCleared uid s
  | .moderationTimerExpiry queue => Sys2Proof.Machine.execModerationTimerExpiry queue s
  | .copy2d o => Sys2Proof.Machine.execCopy2d o s
  | .fill o => Sys2Proof.Machine.execFill o s
  | .gather o => Sys2Proof.Machine.execGather o s
  | .scatterAdd o => Sys2Proof.Machine.execScatterAdd o s
  | .embedBag o => Sys2Proof.Machine.execEmbedBag o s
  | .reduce o => Sys2Proof.Machine.execReduce o s
  | .atomic o => Sys2Proof.Machine.execAtomic o s
  | .quantize o => Sys2Proof.Machine.execQuantize o s
  | .scrubRange o => Sys2Proof.Machine.execScrubRange o s
  | .attendDecode o => Sys2Proof.Machine.execAttendDecode o s
  | .attendMerge o => Sys2Proof.Machine.execAttendMerge o s
  | .topk o => Sys2Proof.Machine.execTopk o s
  | .moeDispatch o => Sys2Proof.Machine.execMoeDispatch o s
  | .expertFfn o => Sys2Proof.Machine.execExpertFfn o s
  | .moeCombine o => Sys2Proof.Machine.execMoeCombine o s
  | .publish o => Sys2Proof.Machine.execPublish o s
  | .publishComplete p => Sys2Proof.Machine.execPublishComplete p s
  | .revoke c => Sys2Proof.Machine.execRevoke c s
  | .revokeDrainDone tenant pva => Sys2Proof.Machine.execRevokeDrainDone tenant pva s
  | .revokeStragglerTimeout tenant pva => Sys2Proof.Machine.execRevokeStragglerTimeout tenant pva s
  | .waitListService => Sys2Proof.Machine.execWaitListService s
  | .tileDispatch uid remote => Sys2Proof.Machine.execTileDispatch uid remote s
  | .tileStart e => Sys2Proof.Machine.execTileStart e s
  | .tileLoadData uid tile remote => Sys2Proof.Machine.execTileLoadData uid tile remote s
  | .tileComputeDone uid tile c remote => Sys2Proof.Machine.execTileComputeDone uid tile c remote s
  | .tileRetire uid tile remote => Sys2Proof.Machine.execTileRetire uid tile remote s
  | .partialStateCombine uid tile remote => Sys2Proof.Machine.execPartialStateCombine uid tile remote s
  | .engineFault engine => Sys2Proof.Machine.execEngineFault engine s
  | .tileWatchdogExpiry uid tile => Sys2Proof.Machine.execTileWatchdogExpiry uid tile s
  | .spareActivated engine => Sys2Proof.Machine.execSpareActivated engine s
  | .nmeRetire e => Sys2Proof.Machine.execNmeRetire e s
  | .nmeCommit => Sys2Proof.Machine.execNmeCommit s
  | .dmaChannelSelect engine => Sys2Proof.Machine.execDmaChannelSelect engine s
  | .dmaPiece engine remote => Sys2Proof.Machine.execDmaPiece engine remote s
  | .flushReadComplete tag => Sys2Proof.Machine.execFlushReadComplete tag s
  | .dmaSuspendResume engine => Sys2Proof.Machine.execDmaSuspendResume engine s
  | .writeAcknowledge uid reqId => Sys2Proof.Machine.execWriteAcknowledge uid reqId s
  | .tenantCreate tenant confidential busError => Sys2Proof.Machine.execTenantCreate tenant confidential busError s
  | .keySlotLoaded tenant => Sys2Proof.Machine.execKeySlotLoaded tenant s
  | .tenantRetire tenant => Sys2Proof.Machine.execTenantRetire tenant s
  | .tenantKeyDestroy tenant => Sys2Proof.Machine.execTenantKeyDestroy tenant s
  | .invalidateRange tenant tag addr count => Sys2Proof.Machine.execInvalidateRange tenant tag addr count s
  | .invalidateTenant tenant tag => Sys2Proof.Machine.execInvalidateTenant tenant tag s
  | .leaseNotice epoch dma n => Sys2Proof.Machine.execLeaseNotice epoch dma n s
  | .invalidationComplete tag => Sys2Proof.Machine.execInvalidationComplete tag s
  | .tableSwap tenant tag ppa count => Sys2Proof.Machine.execTableSwap tenant tag ppa count s
  | .resmapClear tag offset count => Sys2Proof.Machine.execResmapClear tag offset count s
  | .translationMiss tenant pva => Sys2Proof.Machine.execTranslationMiss tenant pva s
  | .migEnClear => Sys2Proof.Machine.execMigEnClear s
  | .dmaMigCmd ppa iova pasid index => Sys2Proof.Machine.execDmaMigCmd ppa iova pasid index s
  | .migrationDone engine a b => Sys2Proof.Machine.execMigrationDone engine a b s
  | .dmaMigPop => Sys2Proof.Machine.execDmaMigPop s
  | .xtuMigDone index outcome => Sys2Proof.Machine.execXtuMigDone index outcome s
  | .rdReq inPort p => Sys2Proof.Machine.execRdReq inPort p s
  | .wrReq inPort p => Sys2Proof.Machine.execWrReq inPort p s
  | .atomicReq inPort p => Sys2Proof.Machine.execAtomicReq inPort p s
  | .doorbellPacket inPort p => Sys2Proof.Machine.execDoorbellPacket inPort p s
  | .tileBatch inPort p remote => Sys2Proof.Machine.execTileBatch inPort p remote s
  | .cmdFwd inPort p => Sys2Proof.Machine.execCmdFwd inPort p s
  | .setReq inPort p => Sys2Proof.Machine.execSetReq inPort p s
  | .setRsp inPort p => Sys2Proof.Machine.execSetRsp inPort p s
  | .setWithdraw inPort p => Sys2Proof.Machine.execSetWithdraw inPort p s
  | .withdrawAck inPort p => Sys2Proof.Machine.execWithdrawAck inPort p s
  | .rdRsp inPort p => Sys2Proof.Machine.execRdRsp inPort p s
  | .wrRsp inPort p => Sys2Proof.Machine.execWrRsp inPort p s
  | .atomicRsp inPort r => Sys2Proof.Machine.execAtomicRsp inPort r s
  | .batchRsp inPort r => Sys2Proof.Machine.execBatchRsp inPort r s
  | .cmdRsp inPort p => Sys2Proof.Machine.execCmdRsp inPort p s
  | .errRsp inPort p => Sys2Proof.Machine.execErrRsp inPort p s
  | .cacheRelease inPort p => Sys2Proof.Machine.execCacheRelease inPort p s
  | .replayCacheExpiry tenant reqId => Sys2Proof.Machine.execReplayCacheExpiry tenant reqId s
  | .flowRelease flow => Sys2Proof.Machine.execFlowRelease flow s
  | .nieFlowOpen flow job srcNode => Sys2Proof.Machine.execNieFlowOpen flow job srcNode s
  | .nieFlowClose flow job srcNode => Sys2Proof.Machine.execNieFlowClose flow job srcNode s
  | .jobBind job tenant ranks rankPpa => Sys2Proof.Machine.execJobBind job tenant ranks rankPpa s
  | .completionTimeout dst tenant reqId => Sys2Proof.Machine.execCompletionTimeout dst tenant reqId s
  | .rdShared inPort p dirErr => Sys2Proof.Machine.execRdShared inPort p dirErr s
  | .rdOwn inPort p dirErr => Sys2Proof.Machine.execRdOwn inPort p dirErr s
  | .upgrade inPort p dirErr => Sys2Proof.Machine.execUpgrade inPort p dirErr s
  | .wbData inPort p => Sys2Proof.Machine.execWbData inPort p s
  | .evictClean inPort p => Sys2Proof.Machine.execEvictClean inPort p s
  | .snpRsp inPort p => Sys2Proof.Machine.execSnpRsp inPort p s
  | .compAck inPort p => Sys2Proof.Machine.execCompAck inPort p s
  | .holdExpiry line => Sys2Proof.Machine.execHoldExpiry line s
  | .snoopTimeout line agent => Sys2Proof.Machine.execSnoopTimeout line agent s
  | .compAckTimeout line => Sys2Proof.Machine.execCompAckTimeout line s
  | .binvRange ppa ells => Sys2Proof.Machine.execBinvRange ppa ells s
  | .agentRelease agent => Sys2Proof.Machine.execAgentRelease agent s
  | .dirCommit => Sys2Proof.Machine.execDirCommit s
  | .packetHeaderArrival inPort p => Sys2Proof.Machine.execPacketHeaderArrival inPort p s
  | .headerHoldTimeout id => Sys2Proof.Machine.execHeaderHoldTimeout id s
  | .routeTableWrite half dest entry => Sys2Proof.Machine.execRouteTableWrite half dest entry s
  | .epochFlip inPort p => Sys2Proof.Machine.execEpochFlip inPort p s
  | .epochRetire => Sys2Proof.Machine.execEpochRetire s
  | .routerCommit => Sys2Proof.Machine.execRouterCommit s
  | .frameTransmit port => Sys2Proof.Machine.execFrameTransmit port s
  | .frameReceive port fecCorr fecUncorr f => Sys2Proof.Machine.execFrameReceive port fecCorr fecUncorr f s
  | .replayReq port number => Sys2Proof.Machine.execReplayReq port number s
  | .replayTimeout port => Sys2Proof.Machine.execReplayTimeout port s
  | .retrainReq port => Sys2Proof.Machine.execRetrainReq port s
  | .rttProbe port stamp => Sys2Proof.Machine.execRttProbe port stamp s
  | .rttEcho port stamp => Sys2Proof.Machine.execRttEcho port stamp s
  | .rttProbeTimer port => Sys2Proof.Machine.execRttProbeTimer port s
  | .lossOfSignal port lane => Sys2Proof.Machine.execLossOfSignal port lane s
  | .laneErrorLimit port lane => Sys2Proof.Machine.execLaneErrorLimit port lane s
  | .portEnable port => Sys2Proof.Machine.execPortEnable port s
  | .portDisable port => Sys2Proof.Machine.execPortDisable port s
  | .portRetrain port => Sys2Proof.Machine.execPortRetrain port s
  | .detectSignal port => Sys2Proof.Machine.execDetectSignal port s
  | .trainDone port ok => Sys2Proof.Machine.execTrainDone port ok s
  | .configDone port c => Sys2Proof.Machine.execConfigDone port c s
  | .retrainDone port c => Sys2Proof.Machine.execRetrainDone port c s
  | .retrainTimeout port => Sys2Proof.Machine.execRetrainTimeout port s
  | .autoUpTimer port => Sys2Proof.Machine.execAutoUpTimer port s
  | .rekeyTimer port => Sys2Proof.Machine.execRekeyTimer port s
  | .linkRekey port tag => Sys2Proof.Machine.execLinkRekey port tag s
  | .keyPhaseSwitch port => Sys2Proof.Machine.execKeyPhaseSwitch port s
  | .pairSet port tag => Sys2Proof.Machine.execPairSet port tag s
  | .admRelease => Sys2Proof.Machine.execAdmRelease s
  | .admRedecide => Sys2Proof.Machine.execAdmRedecide s
  | .admBktRead bucket => Sys2Proof.Machine.execAdmBktRead bucket s
  | .admBktWrite bucket rate gust overhead target limit resetMode => Sys2Proof.Machine.execAdmBktWrite bucket rate gust overhead target limit resetMode s
  | .fathomUpdate u => Sys2Proof.Machine.execFathomUpdate u s
  | .channelGrant stack channel reqs errs => Sys2Proof.Machine.execChannelGrant stack channel reqs errs s
  | .parityDelta gran => Sys2Proof.Machine.execParityDelta gran s
  | .refresh stack channel pseudo bank reqs => Sys2Proof.Machine.execRefresh stack channel pseudo bank reqs s
  | .channelRetrain stack channel temp ok => Sys2Proof.Machine.execChannelRetrain stack channel temp ok s
  | .smcRetrainNow stack failed => Sys2Proof.Machine.execSmcRetrainNow stack failed s
  | .stackNoResponse stack => Sys2Proof.Machine.execStackNoResponse stack s
  | .rebuildUnit channel => Sys2Proof.Machine.execRebuildUnit channel s
  | .ueLimitExceeded stack => Sys2Proof.Machine.execUeLimitExceeded stack s
  | .parRetire stack => Sys2Proof.Machine.execParRetire stack s
  | .mistralRead stack channel errs => Sys2Proof.Machine.execMistralRead stack channel errs s
  | .rowRepair stack channel pseudo bank row spare => Sys2Proof.Machine.execRowRepair stack channel pseudo bank row spare s
  | .smcLock => Sys2Proof.Machine.execSmcLock s
  | .smcCommit => Sys2Proof.Machine.execSmcCommit s
  | .xbarCommit => Sys2Proof.Machine.execXbarCommit s
  | .eraseRange tenant tag offset ells pl => Sys2Proof.Machine.execEraseRange tenant tag offset ells pl s
  | .eraseComplete tag => Sys2Proof.Machine.execEraseComplete tag s
  | .trngHealthFail => Sys2Proof.Machine.execTrngHealthFail s
  | .identityReady => Sys2Proof.Machine.execIdentityReady s
  | .debugGrant signed => Sys2Proof.Machine.execDebugGrant signed s
  | .spdmGetVersion => Sys2Proof.Machine.execSpdmGetVersion s
  | .spdmGetCapabilities => Sys2Proof.Machine.execSpdmGetCapabilities s
  | .spdmNegotiateAlgorithms => Sys2Proof.Machine.execSpdmNegotiateAlgorithms s
  | .spdmGetMeasurements block nonce fails => Sys2Proof.Machine.execSpdmGetMeasurements block nonce fails s
  | .mctpMessage source pldm msg => Sys2Proof.Machine.execMctpMessage source pldm msg s
  | .hifMbxSubmit bytes => Sys2Proof.Machine.execHifMbxSubmit bytes s
  | .hifMbxPop => Sys2Proof.Machine.execHifMbxPop s
  | .mailboxTake => Sys2Proof.Machine.execMailboxTake s
  | .pwrStatus source tag => Sys2Proof.Machine.execPwrStatus source tag s
  | .powerCap source tag => Sys2Proof.Machine.execPowerCap source tag s
  | .domainPower source tag => Sys2Proof.Machine.execDomainPower source tag s
  | .pointCeiling source tag => Sys2Proof.Machine.execPointCeiling source tag s
  | .thermalLimit source tag => Sys2Proof.Machine.execThermalLimit source tag s
  | .fwStage source tag image fails flashOk => Sys2Proof.Machine.execFwStage source tag image fails flashOk s
  | .fwActivate source tag cause => Sys2Proof.Machine.execFwActivate source tag cause s
  | .handover source tag => Sys2Proof.Machine.execHandover source tag s
  | .mgtStatus source tag => Sys2Proof.Machine.execMgtStatus source tag s
  | .cfgReport source tag => Sys2Proof.Machine.execCfgReport source tag s
  | .fieldGet source tag => Sys2Proof.Machine.execFieldGet source tag s
  | .fieldSet source tag => Sys2Proof.Machine.execFieldSet source tag s
  | .imageWrite source tag image flashOk => Sys2Proof.Machine.execImageWrite source tag image flashOk s
  | .recoveryWrite source tag => Sys2Proof.Machine.execRecoveryWrite source tag s
  | .attest source tag fails => Sys2Proof.Machine.execAttest source tag fails s
  | .svnAdvance source tag => Sys2Proof.Machine.execSvnAdvance source tag s
  | .pldm source tag => Sys2Proof.Machine.execPldm source tag s
  | .cfgFeatCommit host => Sys2Proof.Machine.execCfgFeatCommit host s
  | .cfgRptRead => Sys2Proof.Machine.execCfgRptRead s
  | .claimRaise b other => Sys2Proof.Machine.execClaimRaise b other s
  | .claimDrop b other => Sys2Proof.Machine.execClaimDrop b other s
  | .heartbeat core => Sys2Proof.Machine.execHeartbeat core s
  | .watchdogExpiry b => Sys2Proof.Machine.execWatchdogExpiry b s
  | .selfDiagPeriodic cause => Sys2Proof.Machine.execSelfDiagPeriodic cause s
  | .standbyTakeover b cause => Sys2Proof.Machine.execStandbyTakeover b cause s
  | .pairBootDone b cause => Sys2Proof.Machine.execPairBootDone b cause s
  | .mgtPairReset b staged => Sys2Proof.Machine.execMgtPairReset b staged s
  | .doldrumsAlert => Sys2Proof.Machine.execDoldrumsAlert s
  | .dvfsTarget b point => Sys2Proof.Machine.execDvfsTarget b point s
  | .dvfsStepDone => Sys2Proof.Machine.execDvfsStepDone s
  | .avsTimeout fails => Sys2Proof.Machine.execAvsTimeout fails s
  | .powerLoop power icc => Sys2Proof.Machine.execPowerLoop power icc s
  | .thermalLoop temp east => Sys2Proof.Machine.execThermalLoop temp east s
  | .fastCurrentLimit => Sys2Proof.Machine.execFastCurrentLimit s
  | .hwThermalThrottle => Sys2Proof.Machine.execHwThermalThrottle s
  | .thermtrip => Sys2Proof.Machine.execThermtrip s
  | .pdSwitch b domain on => Sys2Proof.Machine.execPdSwitch b domain on s
  | .telCommit => Sys2Proof.Machine.execTelCommit s
  | .telCntClear n => Sys2Proof.Machine.execTelCntClear n s
  | .telDumpEnable => Sys2Proof.Machine.execTelDumpEnable s
  | .telDumpPeriod busy a => Sys2Proof.Machine.execTelDumpPeriod busy a s
  | .telSampCtlWrite en k filter log2 => Sys2Proof.Machine.execTelSampCtlWrite en k filter log2 s
  | .pcieLinkUp speed width link => Sys2Proof.Machine.execPcieLinkUp speed width link s
  | .hwThermalThrottleRelease => Sys2Proof.Machine.execHwThermalThrottleRelease s
  | .trngHealthPass => Sys2Proof.Machine.execTrngHealthPass s
  | .atsTranslationCompletion fn pasid page rd wr priMax => Sys2Proof.Machine.execAtsTranslationCompletion fn pasid page rd wr priMax s
  | .vfEnable n => Sys2Proof.Machine.execVfEnable n s
  | .d3hotTransition fn enter => Sys2Proof.Machine.execD3hotTransition fn enter s
  | .replayReqResendTimeout port => Sys2Proof.Machine.execReplayReqResendTimeout port s
  | .openMaxExpiry stack channel pseudo bank => Sys2Proof.Machine.execOpenMaxExpiry stack channel pseudo bank s
  | .zmapReady => Sys2Proof.Machine.execZmapReady s
  | .pdSwitchDone => Sys2Proof.Machine.execPdSwitchDone s

end Sys2Proof.Machine
end

