-- ==== Sys2Proof/Safety.lean ====
section
/-!
DEFINITION. Safety.lean: what the statements call a well-formed state, a completed command and a frame.
-/
namespace Sys2Proof.Machine
open Sys2Proof

/-- A machine whose maps are in their one canonical form: registers and pending values by rising bit address, memory as Memory.wf says. -/
def State.wf (s : State) : Bool := decide (NMap.sorted s.regs) && decide (NMap.sorted s.shadow) && Memory.wf s.mem

/-- A command completes with a next state of which P holds. -/
def Completes (i : Instr) (s : State) (P : State → Prop) : Prop := ∃ t, exec i s = .next t ∧ P t

/-- No byte, codeword or zero-map bit of pool memory differs. -/
def SameMem (s t : State) : Prop := t.mem = s.mem

/-- Every register field but those listed reads as before. -/
def SameRegsBut (s t : State) (fs : List (Fld × Nat)) : Prop :=
  ∀ (f : Fld) (n : Nat), (∀ e ∈ fs, fldKey e.1 e.2 ≠ fldKey f n) → getF t f n = getF s f n

/-- A command that stores nothing in pool memory, whatever its operands. -/
def storesNothing (c : Instr) : Bool :=
  match c with
  | .atsInvalidationRequest _ _ _ _ _ | .nmeCommit | .dmaSuspendResume _ | .invalidateRange _ _ _ _ | .invalidateTenant _ _
  | .dmaMigCmd _ _ _ _ | .dmaMigPop | .setWithdraw _ _ | .withdrawAck _ _ | .cacheRelease _ _ | .replayCacheExpiry _ _
  | .nieFlowOpen _ _ _ | .jobBind _ _ _ _ | .dirCommit | .packetHeaderArrival _ _ | .headerHoldTimeout _
  | .routeTableWrite _ _ _ | .epochFlip _ _ | .epochRetire | .routerCommit | .frameTransmit _ | .rttProbe _ _
  | .rttProbeTimer _ | .portEnable _ | .detectSignal _ | .trainDone _ _ | .autoUpTimer _ | .rekeyTimer _ | .keyPhaseSwitch _
  | .admBktRead _ | .admBktWrite _ _ _ _ _ _ _ | .refresh _ _ _ _ _ | .smcLock | .smcCommit | .xbarCommit
  | .eraseRange _ _ _ _ _ | .identityReady | .spdmGetVersion | .spdmGetCapabilities | .spdmNegotiateAlgorithms | .hifMbxPop
  | .mailboxTake | .pwrStatus _ _ | .powerCap _ _ | .domainPower _ _ | .thermalLimit _ _ | .mgtStatus _ _ | .cfgReport _ _
  | .fieldGet _ _ | .imageWrite _ _ _ _ | .recoveryWrite _ _ | .svnAdvance _ _ | .pldm _ _ | .cfgRptRead | .heartbeat _
  | .doldrumsAlert | .pdSwitch _ _ _ | .telCommit | .telCntClear _ | .telDumpEnable | .telSampCtlWrite _ _ _ _
  | .pcieLinkUp _ _ _ | .vfEnable _ | .d3hotTransition _ _ | .replayReqResendTimeout _ | .openMaxExpiry _ _ _ _ => true
  | _ => false

/-- A command of the link layer or the router. -/
def linkCommand (c : Instr) : Bool :=
  match c with
  | .frameTransmit _ | .frameReceive _ _ _ _ | .replayReq _ _ | .replayTimeout _ | .retrainReq _ | .rttProbe _ _ | .rttEcho _ _
  | .rttProbeTimer _ | .lossOfSignal _ _ | .laneErrorLimit _ _ | .portEnable _ | .portDisable _ | .portRetrain _
  | .detectSignal _ | .trainDone _ _ | .configDone _ _ | .retrainDone _ _ | .retrainTimeout _ | .autoUpTimer _ | .rekeyTimer _
  | .keyPhaseSwitch _ | .replayReqResendTimeout _ | .packetHeaderArrival _ _ | .headerHoldTimeout _ | .routeTableWrite _ _ _
  | .epochFlip _ _ | .epochRetire => true
  | _ => false

/-- A queue command or doorbell that starts no work and ends none. -/
def queueCommand (c : Instr) : Bool :=
  match c with
  | .sqTail _ _ _ _ | .cqHead _ _ _ _ | .doorbellWriteDropped _ _ _ | .readCtx _ | .writeCtx _ | .enable _ | .disableDrain _
  | .clearPred _ => true
  | _ => false

end Sys2Proof.Machine
end

