-- ==== Sys2Proof/Certificates/Slice0/Obligations.lean ====
section
/-!
DEFINITION. Certificates/Slice0/Obligations.lean: the statements for the provers.
-/
open Sys2Proof Sys2Proof.Machine

/-- For every state whose queue of waiting commands begins with c, one step is exec of c on that state with the rest of the queue waiting.
On an empty queue a step lets one nanosecond pass and takes no command; that idle nanosecond is the model's own choice (DESIGN CHOICE,
log entry 4). -/
def Obligations.StepRunsTheFrontCommand : Prop :=
  (∀ (s : State) (c : Instr) (rest : List Instr), s.pending = c :: rest → step s = exec c { s with pending := rest }) ∧
  (∀ s : State, s.pending = [] → step s = .next (advance s (s.nowNs + 1)))

/-- Whatever the state and whatever command stands at the front, when a step answers a next state the commands that wait there are exactly
those that waited behind it, in their order: no command adds to the queue, drops from it or reorders it. -/
def Obligations.StepsTakeCommandsFirstInFirstOut : Prop :=
  ∀ s t : State, step s = .next t → t.pending = s.pending.tail

/-- The state after reset has every map in its canonical form and an empty queue, and every copy of every register field reads as the reset
value its table row gives. -/
def Obligations.ResetIsCanonical : Prop :=
  State.wf State.reset = true ∧ State.reset.pending = [] ∧ ∀ (f : Fld) (n : Nat), getF State.reset f n = fldReset f n

/-- If the state is well formed (pool memory lists bytes, codeword metadata, zero-map bits, lost zero-map granules and lost channels by
strictly rising key and lists no entry equal to what an unlisted key reads as; registers and pending values are listed by rising bit
address), then so is the state after any step, whatever command runs. -/
def Obligations.StepsKeepTheMapsCanonical : Prop :=
  ∀ s t : State, State.wf s = true → step s = .next t → State.wf t = true

/-- For every state and every command at its front, a step that answers a next state never turns the model's clock back, never reuses the
place of a free value, keeps the tenant and device fuse slots, the lock fuse and the fleet fuses as they are, never lowers the fuse
floor of signature indexes, and only adds to what the host was told. -/
def Obligations.NothingIsUndone : Prop :=
  ∀ s t : State, step s = .next t →
    s.nowNs ≤ t.nowNs ∧ s.free ≤ t.free ∧ t.fuse.slots = s.fuse.slots ∧ t.fuse.lock = s.fuse.lock ∧ t.fuse.fleet = s.fuse.fleet ∧
    s.fuse.floor ≤ t.fuse.floor ∧ s.toHost <+: t.toHost

/-- For every command c and every state s: if c answers a next state t, the svn fuses of t are no lower than those of s; and where they
differ, c is the SVN advance command of the mailbox and the new value is no greater than the SVN of the running images. -/
def Obligations.SvnFusesAdvanceOnlyByTheirCommand : Prop :=
  ∀ (c : Instr) (s t : State), exec c s = .next t →
    s.fuse.svn ≤ t.fuse.svn ∧
    (t.fuse.svn ≠ s.fuse.svn → (∃ source tag, c = .svnAdvance source tag) ∧ t.fuse.svn ≤ runningSvn s)

/-- While configuration requests are answered: FUNCTION_LEVEL_RESET of PF0 drops the mailbox responses that wait and its error records and
leaves D3hot, of PF1 ends the virtual functions and resets PF1, of an existing virtual function resets it; VF_ENABLE and VF_DISABLE
leave the stated number of virtual functions; D3HOT_TRANSITION moves a function in or out and touches nothing else. PCIE_LINK_DOWN on a
link that is up and PCIE_RESET of a powered HIF have the effects of DL_Down. PCIE_LINK_UP on a powered HIF whose link is down raises the
link with the trained speed, width and flit mode and what the host has configured, and changes only registers and HIF's state. A block
that does not answer an aligned access is recorded with cause 2; a 4-byte read gives all ones, a write gives nothing. -/
def Obligations.HostFunctionAndLinkCommandsComplete : Prop :=
  ∀ s : State,
    (cfgOpen s = true →
      exec (.functionLevelReset 0) s =
        .next (dropResponses { s with hif := { s.hif with d3 := s.hif.d3.filter (fun f => f ≠ 0), aer := s.hif.aer.filter (fun e => e.1 ≠ 0) } }) ∧
      exec (.functionLevelReset 1) s = .next (resetFn (keepVfs s 0) 1) ∧
      (∀ v, v < s.hif.vfs → exec (.functionLevelReset (2 + v)) s = .next (resetFn s (2 + v))) ∧
      (∀ n, ∃ t, exec (.vfDisable n) s = .next t ∧ t.hif.vfs ≤ n) ∧
      (∀ n, 1 ∉ s.hif.d3 → exec (.vfEnable n) s = .next { s with hif := { s.hif with vfs := max s.hif.vfs (min n 64) } }) ∧
      (∀ fn, fn < 2 + s.hif.vfs → exec (.d3hotTransition fn true) s =
        .next { s with hif := { s.hif with d3 := s.hif.d3.filter (fun f => f ≠ fn) ++ [fn] } }) ∧
      (∀ fn, fn < 2 + s.hif.vfs → exec (.d3hotTransition fn false) s =
        .next { s with hif := { s.hif with d3 := s.hif.d3.filter (fun f => f ≠ fn) } })) ∧
    (s.hif.linkUp = true → exec .pcieLinkDown s = .next (dlDown s)) ∧
    (pdOn s 48 = true → exec .pcieReset s = .next (dlDown s)) ∧
    (∀ speed width flit host, pdOn s 48 = true → s.hif.linkUp = false → ∃ r,
      exec (.pcieLinkUp speed width ⟨flit, host⟩) s = .next (setHostCfg { s with regs := r, hif := { s.hif with linkUp := true } } host) ∧
      (∀ t : State, t.regs = r → getB t Reg.hifLink_up = true ∧ getF t Reg.hifLink_speed = clamp 1 (clamp 1 6 (fieldValue s 8 0)) speed)) ∧
    (∀ off, bar2Open s 0 = true → off % 4 = 0 → off < 2 ^ 28 →
      exec (.blockUnavailableTimeout off 4 true) s = .next (recordAccess s 2 off true) ∧
      exec (.blockUnavailableTimeout off 4 false) s = .next (emit (recordAccess s 2 off false) (.readData off (2 ^ 32 - 1))))

/-- While configuration requests are answered, VF_DISABLE to n functions applies the function reset of R341 to every virtual function n and
above that exists, and none of them exists afterwards. A doorbell write that reaches BAR2 through a function that does not exist is
dropped as R54 drops a write: it is counted, logged with cause 0x10 and changes no queue. -/
def Obligations.VirtualFunctionsThatEndAreReset : Prop :=
  (∀ (n : Nat) (s : State), cfgOpen s = true →
    let u := ((List.range s.hif.vfs).filter (fun v => decide (n ≤ v))).foldl (fun s v => resetFn s (2 + v)) s
    exec (.vfDisable n) s = .next { u with hif := { u.hif with vfs := min n u.hif.vfs } }) ∧
  (∀ (fn page idx value : Nat) (s : State), bar2Open s fn = true → 2 + s.hif.vfs ≤ fn →
    let u := dropDoorbell s ((page * 64 + idx % 64) % 65536) fn
    exec (.sqTail fn page idx value) s = .next u ∧ exec (.cqHead fn page idx value) s = .next u ∧ u.qmg = s.qmg)

/-- HIF_MBX_SUBMIT with the link open, a length in range and an entry free appends PF0's request to the queue with result 0; with all 256
entries in use it queues nothing and shows result 1. HIF_MBX_POP frees the oldest response's entry and lets the next one into the FIFO.
An MCTP message of a right length that may be written is appended; with every entry in use its source gets BUSY with hint 1000.
MAILBOX_TAKE marks the oldest untaken request of a known command as taken by the pair that holds the claim, and changes nothing else. -/
def Obligations.MailboxTransportCompletes : Prop :=
  (∀ (bytes : List Byte) (s : State), bar2Open s 0 = true →
    let u := (List.range 32).foldl (fun s i => setF s Reg.hifMbxReq_data (leToNat (((fixLen 256 bytes).drop (8 * i)).take 8)) i) s
    let m := stagedMsg u
    msgByte m 4 ≤ 240 →
    (s.mbx.queue.length < 256 → u.mbx = s.mbx → ∃ t, exec (.hifMbxSubmit bytes) s = .next t ∧ getF t Reg.hifMbxSubmit_result = 0 ∧
      t.mbx = { s.mbx with queue := s.mbx.queue ++ [⟨s.mbx.nextId, 0, patch (m.take (16 + msgByte m 4)) 5 [0], 0, none⟩],
                           nextId := s.mbx.nextId + 1 }) ∧
    (256 ≤ s.mbx.queue.length → u.mbx = s.mbx →
      exec (.hifMbxSubmit bytes) s = .next (logHif (setF u Reg.hifMbxSubmit_result 1) 6 0))) ∧
  (∀ (s : State) (id : Nat) (rest : List Nat), bar2Open s 0 = true → s.mbx.fifo = id :: rest →
    exec .hifMbxPop s =
      .next (fifoFill { s with mbx := { s.mbx with queue := s.mbx.queue.filter (fun e => e.id ≠ id), fifo := rest } })) ∧
  (∀ (source : Nat) (m : List Byte) (s : State), mctpOpen s source = true → 16 ≤ m.length →
    let p := patch m 5 (natToLe 1 source)
    msgByte p 4 ≤ 240 → p.length = 16 + msgByte p 4 → (readOnlyCmd (msgCmd p) = true ∨ getB s Reg.hifCtl_mctp_write_en = true) →
    (s.mbx.queue.length < 256 → exec (.mctpMessage source false m) s = .next { s with mbx := { s.mbx with
      queue := s.mbx.queue ++ [⟨s.mbx.nextId, source, p, 0, none⟩], nextId := s.mbx.nextId + 1 } }) ∧
    (256 ≤ s.mbx.queue.length →
      exec (.mctpMessage source false m) s = .next (emit (logHif s 6 0xFF) (.mctp source (rspMsg p source 1 1000 []))))) ∧
  (∀ (s : State) (b : Bool) (e : MbxEnt), s.hif.ready = true → inRecovery s = false → winner s = some b → s.mgt.handover = none →
    s.mbx.queue.find? (fun e => e.taken == 0) = some e → knownCmd (msgCmd e.msg) = true →
    exec .mailboxTake s = .next { s with mbx := { s.mbx with
      queue := s.mbx.queue.map (fun x => if x.id = e.id then { x with taken := pairNo b } else x) } })

/-- An ATS invalidation request drops the cached translations it covers, advances the invalidation epoch and begins an invalidation that
every holder must acknowledge. An ATS translation completion with the right the wait needs caches the translation, ends every wait it
answers and lets the migration or the queue that waited go on; without it and with no page request allowed it fails the wait as
UNMAPPED, else it sends a page request with a deadline. A successful page request response asks for the translation again, a failed one
fails the wait; a page request that times out fails it as TIMEOUT at its deadline. -/
def Obligations.HostTranslationCommandsComplete : Prop :=
  (∀ (fn pasid page pages tag : Nat) (s : State), ∃ t, exec (.atsInvalidationRequest fn pasid page pages tag) s = .next t ∧
    (∀ e ∈ t.hif.ats, e ∈ s.hif.ats ∧ ¬ (e.fn = fn ∧ e.pasid = pasid ∧ page ≤ e.page ∧ e.page < page + pages)) ∧
    t.xtu.epoch = (s.xtu.epoch + 1) % 2 ^ 32 ∧
    (∃ v, t.xtu.invals = s.xtu.invals ++ [v] ∧ v.tag = tag ∧ v.ats = some (fn, pasid)) ∧
    t = { s with hif := { s.hif with ats := t.hif.ats }, xtu := { s.xtu with epoch := t.xtu.epoch, invals := t.xtu.invals } }) ∧
  (∀ (fn pasid page priMax : Nat) (rd wr : Bool) (s : State) (w : AtsWait),
    s.hif.waits.find? (fun w => w.fn == fn && w.pasid == pasid && w.page == page && w.pri.isNone) = some w →
    (let done : AtsWait → Bool := fun x => x.fn == fn && x.pasid == pasid && x.page == page && x.pri.isNone && (if x.wr then wr else rd)
     (if w.wr then wr else rd) = true → exec (.atsTranslationCompletion fn pasid page rd wr priMax) s =
      .next ((s.hif.waits.filter done).foldl atsGo
        (atsPut { s with hif := { s.hif with waits := s.hif.waits.filter (fun x => !done x) } } ⟨fn, pasid, page, rd, wr⟩))) ∧
    ((if w.wr then wr else rd) = false → priMax = 0 →
      exec (.atsTranslationCompletion fn pasid page rd wr priMax) s = .next (atsFail s w .unmapped)) ∧
    ((if w.wr then wr else rd) = false → (s.hif.waits.filter (fun x => x.pri.isSome)).length < min 512 priMax →
      ∃ t, exec (.atsTranslationCompletion fn pasid page rd wr priMax) s = .next t ∧ t.hif.nextPri = s.hif.nextPri + 1 ∧
        t.toHost = s.toHost ++ [.pageRequest fn pasid (page * 4096) s.hif.nextPri])) ∧
  (∀ (index dl : Nat) (s : State) (w : AtsWait), priWait s index = some (w, dl) →
    (∃ t, exec (.pageRequestResponse index true) s = .next t ∧
      t.toHost = s.toHost ++ [.translationRequest w.fn w.pasid (w.page * 4096)]) ∧
    exec (.pageRequestResponse index false) s = .next (atsFail s w .unmapped) ∧
    exec (.priTimeout index) s = .next (atsFail (advance s dl) w .timeout))

/-- Whatever the state and whatever its operands, a command either answers a next state or is DEVICE_START with a sensor below 0 degrees,
which the specification leaves without an effect and the model stops with the fault startBelowZero; no command is refused. -/
def Obligations.OnlyAColdStartStops : Prop :=
  ∀ (c : Instr) (s : State), (∃ t, exec c s = .next t) ∨
    ∃ env : StartEnv, c = .deviceStart env ∧ env.cold = true ∧ exec c s = .fault .startBelowZero

/-- For each of the seventeen management commands: where the request of the given source, tag and code is taken and unanswered and its
body's length is not one the command takes, the command answers status 3 with no body and has no other effect. -/
def Obligations.MailboxRequestsOfAWrongLengthAreRefused : Prop :=
  ∀ (source tag : Nat) (s : State) (e : MbxEnt), let n := msgByte e.msg 4
    let bad := Host.Outcome.next (φ := Fault) (ρ := Refusal) (answer s e 3 0 [])
    (takenReq s source tag 0x40 = some e → n ≠ 0 → exec (.pwrStatus source tag) s = bad) ∧
    (takenReq s source tag 0x41 = some e → n ≠ 2 → exec (.powerCap source tag) s = bad) ∧
    (takenReq s source tag 0x42 = some e → n ≠ 2 → exec (.domainPower source tag) s = bad) ∧
    (takenReq s source tag 0x43 = some e → n ≠ 1 → exec (.pointCeiling source tag) s = bad) ∧
    (takenReq s source tag 0x44 = some e → n ≠ 1 → exec (.thermalLimit source tag) s = bad) ∧
    (∀ im fails ok, takenReq s source tag 0x45 = some e → n ≠ 12 → exec (.fwStage source tag im fails ok) s = bad) ∧
    (∀ cause, takenReq s source tag 0x46 = some e → n ≠ 0 → exec (.fwActivate source tag cause) s = bad) ∧
    (takenReq s source tag 0x47 = some e → n ≠ 0 → exec (.handover source tag) s = bad) ∧
    (takenReq s source tag 0x48 = some e → n ≠ 0 → exec (.mgtStatus source tag) s = bad) ∧
    (takenReq s source tag 0x10 = some e → n ≠ 2 → exec (.cfgReport source tag) s = bad) ∧
    (takenReq s source tag 0x11 = some e → n ≠ 3 → exec (.fieldGet source tag) s = bad) ∧
    (takenReq s source tag 0x12 = some e → n ≠ 11 → exec (.fieldSet source tag) s = bad) ∧
    (∀ im ok, takenReq s source tag 0x13 = some e → n ≠ 12 → exec (.imageWrite source tag im ok) s = bad) ∧
    (takenReq s source tag 0x18 = some e → (n < 4 ∨ 236 < n) → exec (.recoveryWrite source tag) s = bad) ∧
    (∀ fails, takenReq s source tag 0x20 = some e → n ≠ 42 → exec (.attest source tag fails) s = bad) ∧
    (takenReq s source tag 0x21 = some e → n ≠ 1 → exec (.svnAdvance source tag) s = bad) ∧
    (takenReq s source tag 0x30 = some e → 240 < n → exec (.pldm source tag) s = bad)

/-- A taken request of the right length is served: POWER_CAP sets the cap clamped to 100 to 1050 W, THERMAL_LIMIT the throttle point clamped
to 70 to 100 degrees, POINT_CEILING the ceiling, each with status 0; DOMAIN_POWER with no switch under way switches the domain (numbers
above 71 meaning 71) and answers by the result, and while one is under way answers BUSY with a hint that is free; MGT_STATUS answers the
two status words and changes nothing else; PWR_STATUS answers status 0 with a body of 32 bytes, the power words then twelve bytes the
specification does not state, which the model leaves free (log entry 61). -/
def Obligations.PowerRequestsTakeTheirEffect : Prop :=
  ∀ (source tag : Nat) (s : State) (e : MbxEnt), let n := msgByte e.msg 4
    let b := msgBody e.msg
    (takenReq s source tag 0x41 = some e → n = 2 →
      exec (.powerCap source tag) s = .next (answer (setF s Reg.pwrLimits_power_cap_w (clamp 100 1050 (argAt b 0 2))) e 0 0 [])) ∧
    (takenReq s source tag 0x44 = some e → n = 1 →
      exec (.thermalLimit source tag) s = .next (answer (setF s Reg.pwrLimits_throttle_c (clamp 70 100 (argAt b 0 1))) e 0 0 [])) ∧
    (takenReq s source tag 0x43 = some e → n = 1 →
      exec (.pointCeiling source tag) s = .next (answer (setCeiling s (min 5 (argAt b 0 1))) e 0 0 [])) ∧
    (takenReq s source tag 0x42 = some e → n = 2 → s.pwr.pd = none →
      let t := pdSwitch s (min 71 (argAt b 0 1)) (decide (1 ≤ argAt b 1 1)) (some e.source)
      exec (.domainPower source tag) s = .next (answer t e (if getF t Reg.pwrPdCmd_result = 0 then 0 else 4) 0 [])) ∧
    (takenReq s source tag 0x42 = some e → n = 2 → s.pwr.pd ≠ none →
      exec (.domainPower source tag) s = .next (answer (freeRetry s).2 e 1 (freeRetry s).1 [])) ∧
    (takenReq s source tag 0x48 = some e → n = 0 → ∃ body, body.length = 8 ∧
      exec (.mgtStatus source tag) s = .next (answer s e 0 0 body)) ∧
    (takenReq s source tag 0x40 = some e → n = 0 → ∃ words r, words.length = 20 ∧ r = freshBytes 12 s ∧
      exec (.pwrStatus source tag) s = .next (answer r.2 e 0 0 (words ++ r.1)))

/-- A taken CFG_REPORT of the right length answers at most 240 bytes of the report from the asked offset. FIELD_GET of a field and instance
of the field table answers the 8 bytes of its value; of another it answers FAILED. FIELD_SET of a run-time field of the table, to one
existing instance whose domain is on, sets the value the check of R384 leaves, answers it, and answers status 1 where it was altered; a
field that is absent, not settable at run time or asked of all instances is DENIED, and an instance beyond the field's count FAILED. -/
def Obligations.FieldAndReportRequestsTakeTheirEffect : Prop :=
  ∀ (source tag : Nat) (s : State) (e : MbxEnt), let n := msgByte e.msg 4
    let b := msgBody e.msg
    let id := argAt b 0 2
    let inst := argAt b 2 1
    (takenReq s source tag 0x10 = some e → n = 2 →
      exec (.cfgReport source tag) s = .next (answer s e 0 0 (((reportBytes s).drop id).take 240))) ∧
    (takenReq s source tag 0x11 = some e → n = 3 →
      (∀ r, fieldRow id = some r → inst < r.insts → exec (.fieldGet source tag) s = .next (answer s e 0 0 (natToLe 8 (fieldValue s id inst)))) ∧
      ((fieldRow id = none ∨ ∃ r, fieldRow id = some r ∧ r.insts ≤ inst) → exec (.fieldGet source tag) s = .next (answer s e 6 0 []))) ∧
    (takenReq s source tag 0x12 = some e → n = 11 →
      ((fieldRow id = none ∨ inst = 255 ∨ ∃ r, fieldRow id = some r ∧ r.runTime = false) →
        exec (.fieldSet source tag) s = .next (answer s e 4 0 [])) ∧
      (∀ r, fieldRow id = some r → r.runTime = true → inst ≠ 255 →
        (r.insts ≤ inst → exec (.fieldSet source tag) s = .next (answer s e 6 0 [])) ∧
        (inst < r.insts → (id = 0x20 ∨ ∀ d, fieldDomain id inst = some d → pdOn s d = true) →
          let c := fieldCheck r inst (argAt b 3 8)
          exec (.fieldSet source tag) s =
            .next (answer (fieldSet s id inst c.2) e 0 (if c.1 = 1 then 1 else 0) (natToLe 8 c.2)))))

/-- A taken request of the right length is served. FW_STAGE of an image that can be fetched and verifies writes the standby pair's slot and
answers 0; one that fails a check records the cause, logs it and answers FAILED with it. IMAGE_WRITE of a fetched Varic image in order
writes the slot not active, then the header that makes it active. RECOVERY_WRITE of the active pair B from PF0 within the recovery area
erases what is fresh, writes the bytes and answers 0; of a request taken otherwise it is DENIED. HANDOVER with no other request open
answers 0 and hands the claim over. FW_ACTIVATE of a standby that passes its checks boots it, answers 0 and hands over; of a standby
whose domain is off it answers FAILED. -/
def Obligations.ImageRequestsTakeTheirEffect : Prop :=
  ∀ (source tag : Nat) (s : State) (e : MbxEnt), let n := msgByte e.msg 4
    let b := msgBody e.msg
    (∀ im fails bytes, takenReq s source tag 0x45 = some e → n = 12 → fetched s im (min 0x1000000 (argAt b 8 4)) = some bytes →
      (fails % 8 = 0 → exec (.fwStage source tag im fails true) s =
        .next (answer (writeSlot s (mgtAt (1 - s.mgt.active)) 0x1000000 bytes true) e 0 0 [])) ∧
      (fails % 8 ≠ 0 → let t := logSec (setF s Reg.secStatus_verify_cause fails) 2 none none
        exec (.fwStage source tag im fails true) s = .next (answer t e 6 (getF t Reg.secStatus_verify_cause) []))) ∧
    (∀ im bytes, takenReq s source tag 0x13 = some e → n = 12 → fetched s im (min 0x100000 (argAt b 8 4)) = some bytes →
      varicState bytes ≠ 2 → let slot := 1 - activeSlot s 2
      exec (.imageWrite source tag im true) s =
        .next (answer (writeHeader (writeSlot s (varicAt slot) 0x100000 bytes true) 2 slot) e 0 0 [])) ∧
    (takenReq s source tag 0x18 = some e → 4 < n → n ≤ 236 → (b.drop 4).length = n - 4 →
      (e.taken = 3 → e.source = 0 → recoveryArea (argAt b 0 4) (n - 4) = true → exec (.recoveryWrite source tag) s =
        .next (answer (flashWrite (eraseFresh s (argAt b 0 4) (n - 4)) (argAt b 0 4) (b.drop 4)) e 0 0 [])) ∧
      (e.taken ≠ 3 → exec (.recoveryWrite source tag) s = .next (answer s e 4 0 []))) ∧
    (∀ w, takenReq s source tag 0x47 = some e → n = 0 → winner s = some w → noneOpen s w e.id = true →
      exec (.handover source tag) s = .next (giveUp (answer s e 0 0 []) w)) ∧
    (∀ w cause, takenReq s source tag 0x46 = some e → n = 0 → winner s = some w → noneOpen s w e.id = true →
      (pdOn s (if w then 65 else 66) = true → cause % 256 = 0 → exec (.fwActivate source tag cause) s =
        .next (giveUp (answer (setPairState (bootStandby s (!w) true) (!w) 3) e 0 0 []) w)) ∧
      (pdOn s (if w then 65 else 66) = false → exec (.fwActivate source tag cause) s = .next (answer s e 6 0 [])))

/-- A taken SVN_ADVANCE of the right length to a number the running images reach raises the fused number to it, never lowers it, changes
nothing else before it answers 0, and to a higher one answers DENIED. ATTEST without an identity answers BUSY with a free hint; with an
identity, to an aligned address of this node from the reserved memory up that leaves room for the report, it writes the report and
answers 0 when the report is made. A PLDM message of at most 240 bytes is answered with status 0 and a body the specification does not
give, whose length and bytes are free (log entry 73). -/
def Obligations.SecurityRequestsTakeTheirEffect : Prop :=
  ∀ (source tag : Nat) (s : State) (e : MbxEnt), let n := msgByte e.msg 4
    let b := msgBody e.msg
    (takenReq s source tag 0x21 = some e → n = 1 →
      (min 64 (argAt b 0 1) ≤ runningSvn s → exec (.svnAdvance source tag) s =
        .next (answer { s with fuse := { s.fuse with svn := max s.fuse.svn (min 64 (argAt b 0 1)) } } e 0 0 [])) ∧
      (runningSvn s < min 64 (argAt b 0 1) → exec (.svnAdvance source tag) s = .next (answer s e 4 0 []))) ∧
    (takenReq s source tag 0x20 = some e → n = 42 →
      (∀ fails, getB s Reg.secStatus_identity_ready = false →
        exec (.attest source tag fails) s = .next (answer (freeRetry s).2 e 1 (freeRetry s).1 [])) ∧
      (∀ fails ppa rep u, getB s Reg.secStatus_identity_ready = true → argAt b 34 8 = ppa → ppa % 64 = 0 → ppa < 2 ^ 56 →
        ownerOf ppa = s.dev.node → rsvBase s ≤ localOf ppa → localOf ppa + 5861 ≤ capacity s →
        attestReport s (b.take 32) (if 32768 ≤ argAt b 32 2 then some (argAt b 32 2) else none) fails = (some rep, u) →
        exec (.attest source tag fails) s = .next (answer (hwWrite u .deviceIfReserved ppa rep) e 0 0 []))) ∧
    (takenReq s source tag 0x30 = some e → n ≤ 240 → ∃ k body u, k ≤ 240 ∧ freshBytes k (fresh s).2 = (body, u) ∧
      exec (.pldm source tag) s = .next (answer u e 0 0 body))

/-- For a queue q below 65536, whose context is read first (one that cannot be read is noticed as lost): READ_CTX puts the context's 64
bytes into the stage registers and posts result 0. WRITE_CTX and ENABLE of a queue that is not DISABLED post result 1 and do nothing
else; of a DISABLED queue an invalid context posts 2; a valid one is written with state 0 by WRITE_CTX, and by ENABLE, where the tenant
is active, enabled with every predicate slot cleared and all indexes 0, result 0. DISABLE_DRAIN of an ENABLED or ERROR queue starts the
drain; DISABLE_ABORT of one that is not DISABLED aborts it; CLEAR_PRED of a DISABLED queue clears its slots. -/
def Obligations.QueueCommandsTakeTheirEffect : Prop :=
  ∀ (q : Nat) (s : State), q < 65536 → let u := noticeCtx s q
    let c := ctxOf u q
    (let b := match nfind u.qmg.lost q with | some c => natToLe 64 (ctxNat c) | none => (hwRead u .device (ctxPpa u q) 64).1
     ∃ t, exec (.readCtx q) s = .next t ∧ getF t Reg.qmgQcmd_queue = q ∧ getF t Reg.qmgQcmd_result = 0 ∧
      ∀ i, i < 8 → getF t Reg.qmgQstage_data i = leToNat ((b.drop (8 * i)).take 8) % 2 ^ Reg.qmgQstage_data.width) ∧
    (c.state ≠ 0 → exec (.writeCtx q) s = .next (qcmdResult u q 1) ∧ exec (.enable q) s = .next (qcmdResult u q 1) ∧
      exec (.clearPred q) s = .next (qcmdResult u q 1) ∧ exec (.disableAbort q) s = .next (qcmdResult (abortQueue u q) q 0)) ∧
    (c.state = 0 → exec (.disableAbort q) s = .next (qcmdResult u q 1) ∧ exec (.disableDrain q) s = .next (qcmdResult u q 1) ∧
      exec (.clearPred q) s = .next (qcmdResult (clearPreds u c) q 0)) ∧
    (c.state = 0 → ctxOk u q (stagedCtx u) = false → exec (.writeCtx q) s = .next (qcmdResult u q 2)) ∧
    (c.state = 0 → ctxOk u q (stagedCtx u) = true →
      exec (.writeCtx q) s = .next (qcmdResult (newCtx u q (keepHw c (stagedCtx u))) q 0)) ∧
    (c.state = 0 → ctxOk u q c = false → exec (.enable q) s = .next (qcmdResult u q 2)) ∧
    (c.state = 0 → ctxOk u q c = true → tenantActive u c.tenant = false → exec (.enable q) s = .next (qcmdResult u q 3)) ∧
    (c.state = 0 → ctxOk u q c = true → tenantActive u c.tenant = true → let v := clearPreds u c
      exec (.enable q) s = .next (qcmdResult (putCtx { v with
          qmg := { v.qmg with modCnt := ndel v.qmg.modCnt q, modOldest := ndel v.qmg.modOldest q },
          hif := { v.hif with mute := v.hif.mute.filter (fun x => x ≠ q) } } q
        { c with state := 1, sqTail := 0, sqHead := 0, cqTail := 0, cqHead := 0, inflight := 0, errCause := 0 }) q 0)) ∧
    (c.state = 1 ∨ c.state = 2 → exec (.disableDrain q) s = .next (qcmdResult (disabling u q) q 0)) ∧
    (c.state = 3 → exec (.disableDrain q) s = .next (qcmdResult u q 1))

/-- For a doorbell through an existing function whose page answers, to queue q, whose context is read first (one that cannot be read is
noticed as lost): on an ENABLED queue SQ_TAIL sets the tail where the posted entries fit the ring, changes nothing where the tail is the
same, and else takes the queue to ERROR with cause 1; CQ_HEAD sets the head where it does not pass the completion tail, else ERROR with
cause 2. On a queue that is not ENABLED the write is dropped. DOORBELL_WRITE_DROPPED, a write of another size or place than a doorbell,
is dropped; the dropped write changes no queue. -/
def Obligations.DoorbellsMoveAnEnabledQueuesIndexes : Prop :=
  ∀ (fn page idx value p : Nat) (s : State), bar2Open s fn = true → doorPage s fn page = some p → let q := p * 64 + idx % 64
    let u := noticeCtx s q
    let c := ctxOf u q
    let v := value % 2 ^ 32
    (c.state ≠ 1 →
      exec (.sqTail fn page idx value) s = .next (dropDoorbell u q fn) ∧ exec (.cqHead fn page idx value) s = .next (dropDoorbell u q fn)) ∧
    (c.state = 1 →
      (v = c.sqTail → c.sqTail < 2 ^ 32 → exec (.sqTail fn page idx value) s = .next u) ∧
      (let d := (v + 2 ^ 32 - c.sqTail) % 2 ^ 32
       let room := d + (c.sqTail + 2 ^ 32 - c.sqHead) % 2 ^ 32
       d ≠ 0 → (room ≤ 2 ^ c.sqLog2 → exec (.sqTail fn page idx value) s = .next (putCtx u q { c with sqTail := v })) ∧
               (2 ^ c.sqLog2 < room → exec (.sqTail fn page idx value) s = .next (queueError u q 1 fn 0))) ∧
      (let d := (v + 2 ^ 32 - c.cqHead) % 2 ^ 32
       let most := (c.cqTail + 2 ^ 32 - c.cqHead) % 2 ^ 32
       (d ≤ most → exec (.cqHead fn page idx value) s = .next (putCtx u q { c with cqHead := v })) ∧
       (most < d → exec (.cqHead fn page idx value) s = .next (queueError u q 2 fn 0)))) ∧
    (∀ off bytes, ¬ (off % 64 < 8 ∧ bytes = 4 ∧ off % 4 = 0) → ¬ (off % 64 = 0 ∧ bytes = 8) →
      exec (.doorbellWriteDropped fn off bytes) s = .next (dropDoorbell s (droppedQueue s fn off) fn) ∧
      (dropDoorbell s (droppedQueue s fn off) fn).qmg = s.qmg)

/-- For every context whose fields fit the widths of R51 and whose reserved bits are zero, the context read back from its 64-byte form is
the context, every field at every value of its width. -/
def Obligations.QueueContextsRoundTrip : Prop :=
  ∀ c : QCtx, c.state < 2 ^ 2 → c.sqLog2 < 2 ^ 5 → c.cqLog2 < 2 ^ 5 → c.tenant < 2 ^ 12 → c.qprio < 2 ^ 2 → c.predCount < 2 ^ 9 →
    c.predBase < 2 ^ 16 → c.sqBase < 2 ^ 64 → c.cqBase < 2 ^ 64 → c.pasid < 2 ^ 20 → c.intMode < 2 ^ 2 → c.intVector < 2 ^ 11 →
    c.modCount < 2 ^ 8 → c.modTime < 2 ^ 10 → c.notifyNode < 2 ^ 14 → c.sqTail < 2 ^ 32 → c.sqHead < 2 ^ 32 → c.cqTail < 2 ^ 32 →
    c.cqHead < 2 ^ 32 → c.inflight < 2 ^ 17 → c.errCause < 2 ^ 8 → c.rsv = false → parseCtx (ctxNat c) = c

/-- DESCRIPTOR_FETCH reads the contexts of the live queues (lost ones are noticed) and asks for the host pages that rings in host memory
need; it then grants one queue that may fetch, by the arbiter, and fetches one descriptor from it; with none it does nothing more.
PREDICATE_RELEASE of a descriptor that waits for its predicate judges it; WAIT_SLOTS_CLEARED of a MOE_COMBINE whose recorded slots have
all cleared lets it go on. MODERATION_TIMER_EXPIRY of a queue with an unreported completion and a timer moves the clock to the deadline,
no earlier than now, and raises the interrupt. -/
def Obligations.DescriptorsAreFetchedAndJudged : Prop :=
  (∀ (hosts : NMap (List Gran)) (s : State),
    let v := s.qmg.live.foldl noticeCtx s
    let s1 := v.qmg.live.foldl (fun s q => (slotsMissing s q (ctxOf s q)).foldl (fun s p =>
      atsAsk s (fnOf s q) (ctxOf s q).pasid p false (.sq q)) s) v
    let r := arbPick 65536 (arbN s1 Reg.xbarArbCtl_n_qmg) s1.qmg.arb ((s1.qmg.live.filter (canFetch s1 hosts)).map (fun q => (q, (ctxOf s1 q).qprio)))
    let u := { s1 with qmg := { s1.qmg with arb := r.2 } }
    (∀ q, r.1 = some q → exec (.descriptorFetch hosts) s = .next (fetchRest (fetchFrom u q (ngetD [] hosts q)) hosts)) ∧
    (r.1 = none → exec (.descriptorFetch hosts) s = .next u)) ∧
  (∀ (uid : Nat) (d : Desc) (s : State), descOf s uid = some d →
    (d.phase = .waitPred → exec (.predicateRelease uid) s = .next (judgePred s uid)) ∧
    (d.phase = .waitSlots → d.waits = [] → exec (.waitSlotsCleared uid) s = .next (afterPred s uid))) ∧
  (∀ (q t : Nat) (s : State), nfind s.qmg.modOldest q = some t → (ctxOf s q).modTime ≠ 0 → ∃ u, u = advance s (t + (ctxOf s q).modTime * 1000) ∧
    u.nowNs = max s.nowNs (t + (ctxOf s q).modTime * 1000) ∧ exec (.moderationTimerExpiry q) s = .next (raiseIrq u q (ctxOf s q)))

/-- Where a descriptor of the command's queue and image has been fetched and stands ready, COPY2D, FILL, GATHER, SCATTER_ADD, EMBED_BAG,
REDUCE, ATOMIC, QUANTIZE, ATTEND_DECODE, ATTEND_MERGE, TOPK, MOE_DISPATCH, EXPERT_FFN and MOE_COMBINE run both phases of it, SCRUB_RANGE
scrubs its range, PUBLISH publishes or forwards its region and REVOKE, as a descriptor, revokes. REVOKE through the XTU's command
register is issued as that register's commands are. -/
def Obligations.OperatorsRunTheirDescriptor : Prop :=
  ∀ (o : OpCmd) (u : Nat) (s : State),
    let ready : Nat → Prop := fun code => readyDesc s (o.queue % 65536) (opImage code o) = some u
    let runs := Host.Outcome.next (φ := Fault) (ρ := Refusal) (runDesc s u o.remote)
    (ready 0x10 → exec (.copy2d o) s = runs) ∧
    (ready 0x11 → exec (.fill o) s = runs) ∧
    (ready 0x12 → exec (.gather o) s = runs) ∧
    (ready 0x13 → exec (.scatterAdd o) s = runs) ∧
    (ready 0x14 → exec (.embedBag o) s = runs) ∧
    (ready 0x15 → exec (.reduce o) s = runs) ∧
    (ready 0x16 → exec (.atomic o) s = runs) ∧
    (ready 0x17 → exec (.quantize o) s = runs) ∧
    (ready 0x20 → exec (.attendDecode o) s = runs) ∧
    (ready 0x21 → exec (.attendMerge o) s = runs) ∧
    (ready 0x22 → exec (.topk o) s = runs) ∧
    (ready 0x28 → exec (.moeDispatch o) s = runs) ∧
    (ready 0x29 → exec (.expertFfn o) s = runs) ∧
    (ready 0x2A → exec (.moeCombine o) s = runs) ∧
    (∀ far, ready 0x58 → exec (.scrubRange ⟨o, far⟩) s = .next (runScrub s u o.remote far)) ∧
    (ready 0x50 → exec (.publish o) s = .next (runPublish s u)) ∧
    (ready 0x51 → exec (.revoke (.desc o)) s = .next (runRevoke s u)) ∧
    (∀ t tag addr, t < 4096 → exec (.revoke (.rcmd t tag addr)) s = .next (issueRcmd s t tag addr (getF s Reg.xtuRcmdArg1_count)
      (revPvaOk (addr % 2 ^ 64)) (tenantActive s t) (fun s => startRevoke s t (addr % 2 ^ 64) (.tag (tag % 2 ^ 24)))))

/-- WAIT_LIST_SERVICE starts the first descriptor that may leave the wait list, from the class whose turn it is, and passes the turn.
TILE_DISPATCH dispatches a ready descriptor. TILE_START of an engine in service with room starts the tile the arbiter picks. A tile in
step 2 whose granules read loads them and goes to step 3, one whose read fails ends with the failure; a tile in step 3 computes, issues
the writes and goes to step 5, or ends with its failure; a tile in step 5 with no partial state left retires; one with partial states
hands the first to the combination. -/
def Obligations.TilesMoveThroughTheirSteps : Prop :=
  (∀ (c u : Nat) (s : State), (List.range 4).findSome? (fun i => (waitFirst s ((s.nme.rr + i) % 4)).map (fun u => ((s.nme.rr + i) % 4, u))) = some (c, u) →
    exec .waitListService s =
      .next (startDesc { s with nme := { s.nme with waitQ := s.nme.waitQ.filter (fun x => x ≠ u), rr := (c + 1) % 4 } } u)) ∧
  (∀ (uid : Nat) (env : NMap Gran) (d : Desc) (s : State), descOf s uid = some d → d.phase = .ready →
    (opOpen s d env).1 = true → let p := openPhase (opOpen s d env).2 uid
      exec (.tileDispatch uid env) s = .next (descCheck (sendBatches 256 (p.1.foldl (fun s t => chargeTile s uid t) p.2) uid) uid)) ∧
  (∀ (e pos uid : Nat) (env : NMap Gran) (tr : TileRec) (d : Desc) (s : State), let u := giveCtxs s e
    let cands := u.nme.ctxs.filter (fun c => c.1 / 16 == e && (nextOf u e c.2).isSome && !((descOf u c.2).map (·.stopping)).getD true)
    let r := arbPick 64 (arbN u Reg.xbarArbCtl_n_nme) (ngetD arb0 u.nme.arbs e) (cands.map (fun c => (c.1 % 16, rankOf u c.2)))
    let v := { u with nme := { u.nme with arbs := nput u.nme.arbs e r.2 } }
    engReady u e = true → r.1 = some pos → nfind u.nme.ctxs (e * 16 + pos) = some uid → nextOf v e uid = some tr → descOf v uid = some d →
    let x := tileXlate (attrib v 3 4 d.tenant) tr.engine d tr.tile env
    let b := setBinds x.2 d.uid x.1.all.binds
    (x.1.all.fin.st ≠ .done → exec (.tileStart ⟨e, env⟩) s =
      .next (ctxRest (endTile (notePoison b d.uid tr.tile.num x.1.load.poisonAt) d.uid tr.tile.num x.1.all.fin) e)) ∧
    (∀ w, x.1.all.fin.st = .done → x.1.all.waits = [] → flightRoom b d.tenant x.1.all.xl = true →
      takeLeases b tr.engine d.uid d.tenant x.1.all.xl = some w →
      let y := sampleFirst (addFlights w (.engine tr.engine) d.uid tr.tile.num d.tenant x.1.all.xl) true d.uid x.1.all.xl
      exec (.tileStart ⟨e, env⟩) s = .next (ctxRest (engView (modTile y d.uid tr.tile.num (fun t => { t with
        step := 2, xl := x.1.all.xl, more := x.1.more, view := x.1.load.view, poisonAt := x.1.load.poisonAt, since := y.nowNs })) tr.engine) e))) ∧
  (∀ (uid tile : Nat) (env : NMap Gran) (tr : TileRec) (d : Desc) (s : State), tileRec s uid tile = some tr → descOf s uid = some d →
    (tr.step = 2 → let own := if hOpcode d.raw = 0x2A then tr.tile.selfReads ++ tr.more else tr.tile.reads ++ tr.tile.selfReads
      let l := loadRanges (sampleStamp (attrib s 3 4 d.tenant) true d.uid 8) tr.xl env own ⟨tr.view, tr.poisonAt, Fin.ok, 0⟩
      let u := noteLoad (telEvent (sampleStamp l.2 true d.uid 9) 0x22 tr.engine tr.tile.alen) tr.engine l.1
      (l.1.fin.st ≠ .done → exec (.tileLoadData uid tile env) s =
        .next (endTile (notePoison u d.uid tr.tile.num l.1.poisonAt) d.uid tr.tile.num l.1.fin)) ∧
      (l.1.fin.st = .done → exec (.tileLoadData uid tile env) s = .next (modTile u d.uid tr.tile.num (fun t => { t with
        step := 3, view := l.1.view, poisonAt := l.1.poisonAt, since := u.nowNs })))) ∧
    (∀ n k bad, tr.step = 3 → let e := scratchErrs (attrib s 3 4 d.tenant) tr d k bad
      let c := computeTile e.2 d e.1 env
      (∀ f, c.1 = .inr f → exec (.tileComputeDone uid tile ⟨n, k, bad⟩ env) s =
        .next (slotRetry (endTile (notePoison c.2 d.uid tr.tile.num e.1.poisonAt) d.uid tr.tile.num f))) ∧
      (∀ ws parts, c.1 = .inl (ws, parts) → let q := splitWrites (if hOpcode d.raw = 0x13 then ws.length else n) ws
        let u := issueWrites c.2 d.uid tr.tile.num tr.engine env q.1
        exec (.tileComputeDone uid tile ⟨n, k, bad⟩ env) s = .next (slotRetry (modTile u d.uid tr.tile.num (fun t => { t with
          step := 5, view := [], poisonAt := e.1.poisonAt, pend := q.2, parts := parts, since := u.nowNs }))))) ∧
    (tr.step = 5 → tr.parts = [] → tr.engine < farEngine → let u := issueWrites s tr.uid tr.tile.num tr.engine env tr.pend
      exec (.tileRetire uid tile env) s =
        .next (slotRetry (countTile (bump u Reg.nmeTiles_count 1 tr.engine) tr.uid tr.tile.num tr.bytes tr.poisonAt))) ∧
    (∀ p rest, tr.parts = p :: rest → exec (.partialStateCombine uid tile env) s =
      .next (combinePart (modTile s uid tile (fun t => { t with parts := rest })) uid tr.engine tr.xl env p)))

/-- ENGINE_FAULT takes an engine in service out of service with its fault; TILE_WATCHDOG_EXPIRY of a computing tile moves the clock 1 ms
past the tile's start, no earlier than now, and does the same to its engine. SPARE_ACTIVATED ends the activation: the engine reads as in
service at the spare's slot and an entry with cause 4 is logged. NME_RETIRE of a number above 95 shows result 1, of a failed engine 2;
of another it shows 0, logs cause 3, and moves the tiles away. While a retirement runs the command changes nothing. NME_COMMIT brings
the pending values of the engines' table into force. -/
def Obligations.EnginesLeaveAndReturnToService : Prop :=
  (∀ (e : Nat) (s : State), e < 96 → getF s Reg.nmeStatus_state e = 0 → exec (.engineFault e) s = .next (faultEngine s e)) ∧
  (∀ (uid tile : Nat) (tr : TileRec) (d : Desc) (s : State), tileRec s uid tile = some tr → descOf s uid = some d → tr.step = 3 →
    ∃ u, u = advance s (tr.since + 1000000) ∧
    u.nowNs = max s.nowNs (tr.since + 1000000) ∧ exec (.tileWatchdogExpiry uid tile) s = .next (faultEngine u tr.engine)) ∧
  (∀ (e slot : Nat) (s : State), e < 96 → nfind s.nme.activating e = some slot → getB s Reg.secStatus_trng_ok = true →
    ∃ u, exec (.spareActivated e) s = .next (logNme u 4 e slot none 0) ∧
    u.nme = { s.nme with activating := ndel s.nme.activating e, seeded := ndel s.nme.seeded e } ∧ getF u Reg.nmeStatus_state e = 0 ∧
    getF u Reg.nmeStatus_phys_slot e = slot % 2 ^ Reg.nmeStatus_phys_slot.width) ∧
  (∀ (e : Nat) (env : NMap Gran) (s : State), getB s Reg.nmeRetire_busy = false → e < 2 ^ Reg.nmeRetire_engine.width → let u := setF s Reg.nmeRetire_engine e
    (95 < e → exec (.nmeRetire ⟨e, env⟩) s = .next (setF u Reg.nmeRetire_result 1)) ∧
    (e ≤ 95 → getF s Reg.nmeStatus_state e = 2 → exec (.nmeRetire ⟨e, env⟩) s = .next (setF u Reg.nmeRetire_result 2)) ∧
    (e ≤ 95 → getF s Reg.nmeStatus_state e ≠ 2 → let v := setF u Reg.nmeRetire_result 0
      exec (.nmeRetire ⟨e, env⟩) s = .next (ackInvals (engView (moveTiles (leaveSlot
        (finishPending (logNme v 3 e (slotOf u e) none 0) e env) e) e) e) e))) ∧
  (∀ s : State, exec .nmeCommit s = .next (commitTable s Reg.tableNme))

/-- A host completion that names an outstanding read takes effect: UR and CA take the read away and fail its piece with cause 1 and
ACCESS_DENIED at the host address, a completion timeout with cause 2 and TIMEOUT, noted for the function that read; data is kept and
every piece whose reads are all back issues its writes; the data of a flush read ends the flush. DMA_CHANNEL_SELECT of an idle engine
starts the channel, migration or management transfer that the arbiter picks. DMA_PIECE of a running transfer whose read window has room
takes the next piece: one that cannot be translated fails with cause 6, else a pool-to-host piece is sent or the host reads of a
host-to-pool piece are issued. DMA_SUSPEND_RESUME resumes a suspended transfer with nothing held; FLUSH_READ_COMPLETE and
WRITE_ACKNOWLEDGE take what they name off the outstanding list and let what waited for it go on. -/
def Obligations.DmaEnginesMoveTheirPieces : Prop :=
  (∀ (tag : Nat) (env : NMap Gran) (q : HostRead) (s : State), s.dma.reads.find? (fun q => q.tag == tag) = some q →
    (let gone : State → State := fun u => { u with dma := { u.dma with reads := u.dma.reads.filter (fun x => x.tag ≠ q.tag) } }
     q.flush = false → q.engine < 32 →
      exec (.hostCompletion tag .ur env) s = .next (failPiece (gone s) q.engine q.piece 1 ⟨.accessDenied, q.addr, .iova, 0⟩) ∧
      exec (.hostCompletion tag .ca env) s = .next (failPiece (gone s) q.engine q.piece 1 ⟨.accessDenied, q.addr, .iova, 0⟩) ∧
      exec (.hostCompletionTimeout tag) s =
        .next (failPiece (gone (aerNote s (readFn s q) .completionTimeout)) q.engine q.piece 2 ⟨.timeout, q.addr, .iova, 0⟩)) ∧
    (∀ bytes, q.flush = true → exec (.hostCompletion tag (.data bytes false) env) s = .next (flushDone s q)) ∧
    (∀ bytes r d, q.flush = false → q.engine < 32 → nfind s.dma.run q.engine = some r → descOf s r.uid = some d →
      let u := { s with dma := { s.dma with reads := s.dma.reads.map (fun x =>
        if x.tag = q.tag then { x with got := some ((bytes ++ List.replicate q.len 0).take q.len, false) } else x) } }
      exec (.hostCompletion tag (.data bytes false) env) s = .next (slotRetry (piecesGo (r.ahead - r.piece) u q.engine env)))) ∧
  (∀ (e c : Nat) (s : State), e < 32 → nfind s.dma.run e = none → nfind s.dma.run (32 + e) = none →
    let chans := (List.range 7).filter (fun c => ngetD [] s.dma.chans (e * 8 + c) ≠ [])
    let rank := fun c => ((((ngetD [] s.dma.chans (e * 8 + c)).head?).bind (descOf s)).map (fun d => (ctxOf s d.queue).qprio)).getD 0
    let r := arbPick 64 (arbN s Reg.xbarArbCtl_n_dma) (ngetD arb0 s.dma.arbs e) (chans.map (fun c => (c, rank c)) ++ (if sevenWaits s e then [(7, 3)] else []))
    let u := { s with dma := { s.dma with arbs := nput s.dma.arbs e r.2 } }
    r.1 = some c → exec (.dmaChannelSelect e) s =
      .next (chanRest (if c = 7 then (if e < 16 then startMigration u e else runMgt u e) else startChannel u e c) e)) ∧
  (∀ (e : Nat) (env : NMap Gran) (r : DmaRun) (d : Desc) (s : State), nfind s.dma.run e = some r → descOf s r.uid = some d →
    r.mig = none → r.suspended = false → r.fail = none → (d.phase = .ready ∨ d.phase = .running) → r.ahead < pieces d.raw →
    let p := pieceOf d.raw r.ahead
    (c2SrcHost d.raw = true → readsOut s e + p.2 ≤ rdWindow s) →
    let c := pieceCharge s e r d p.2
    let u := modDesc c.2 d.uid (fun x => { x with phase := .running })
    let x := pieceXlate (attrib u 4 4 d.tenant) e r.ch r.ahead d
    c.1 = true →
    (x.1.fin.st ≠ .done → exec (.dmaPiece e env) s = .next (failPiece x.2 e r.ahead 6 x.1.fin)) ∧
    (x.1.fin.st = .done → x.1.waits = [] → flightRoom x.2 d.tenant x.1.xl = true → x.2.hif.linkUp = true → hostUp x.2 (fnOf x.2 d.queue) = true →
      hostMissing x.2 d p.1 p.2 = [] →
      let v := modRun x.2 e (fun y => { y with ahead := y.ahead + 1, charged := false, xl := nput y.xl r.ahead x.1.xl })
      (c2SrcHost d.raw = true → exec (.dmaPiece e env) s =
        .next (issueReads v e r.ahead (fnOf x.2 d.queue) (c2Pasid d.raw) (hostSegs d.raw p.1 p.2))) ∧
      (c2SrcHost d.raw = false → exec (.dmaPiece e env) s = .next (slotRetry (pieceToHost v e r d x.1.xl p.1 p.2 env))))) ∧
  (∀ (tag : Nat) (q : HostRead) (s : State), s.dma.reads.find? (fun q => q.tag == tag && q.flush) = some q →
    exec (.flushReadComplete tag) s = .next (flushDone s q)) ∧
  (∀ (e : Nat) (r : DmaRun) (s : State), nfind s.dma.run e = some r → r.suspended = true → s.xtu.held = [] → nfind s.dma.run (32 + e) = none →
    exec (.dmaSuspendResume e) s =
      .next (dmaView (modDesc (modRun s e (fun x => { x with suspended := false })) r.uid (fun d => { d with phase := .running })) e)) ∧
  (∀ (uid reqId : Nat) (o : Outst) (s : State), s.nie.outst.find? (fun o => o.uid == some uid && o.reqId == reqId && o.isWrite) = some o →
    exec (.writeAcknowledge uid reqId) s = .next (ackDone { s with nie := { s.nie with outst := s.nie.outst.erase o } } uid))

/-- DMA_MIG_CMD with migration disabled shows result 3, with an unaligned or foreign address 2, with every engine full 1, else it queues the
migration on the engine with the fewest and shows 0. MIGRATION_DONE of a migration whose pieces have all been stored, or that failed,
posts its result 0, 1 or 2 and frees the engine where the result FIFO has room; DMA_MIG_POP removes the oldest result. XTU_MIG_DONE of
an outstanding index marks the extent resident and lets the held work go on, or fails it. MIG_EN_CLEAR drops the untaken entries and
fails what waits for a migration. -/
def Obligations.MigrationsRunAndReport : Prop :=
  (∀ (ppa iova pasid index : Nat) (s : State),
    let u := setF (setF (setF (setF s Reg.dmaMigCmd0_ppa ppa) Reg.dmaMigCmd1_iova iova) Reg.dmaMigCmd2_pasid pasid) Reg.dmaMigCmd2_index index
    let a := getF u Reg.dmaMigCmd0_ppa
    let v := getF u Reg.dmaMigCmd1_iova
    let best := (List.range 16).foldl (fun b e => if migsOf u e < migsOf u b then e else b) 0
    (getB u Reg.xtuCtl_mig_en = false → exec (.dmaMigCmd ppa iova pasid index) s = .next (setF u Reg.dmaMigCmd2_result 3)) ∧
    (getB u Reg.xtuCtl_mig_en = true → (a % ellBytes ≠ 0 ∨ v % ellBytes ≠ 0 ∨ ownerOf a ≠ s.dev.node) →
      exec (.dmaMigCmd ppa iova pasid index) s = .next (setF u Reg.dmaMigCmd2_result 2)) ∧
    (getB u Reg.xtuCtl_mig_en = true → a % ellBytes = 0 → v % ellBytes = 0 → ownerOf a = s.dev.node →
      (4 ≤ migsOf u best → exec (.dmaMigCmd ppa iova pasid index) s = .next (setF u Reg.dmaMigCmd2_result 1)) ∧
      (migsOf u best < 4 → exec (.dmaMigCmd ppa iova pasid index) s = .next (dmaView (setF
        { u with dma := { u.dma with migs := u.dma.migs ++ [⟨best, getF u Reg.dmaMigCmd2_index, a, v, getF u Reg.dmaMigCmd2_pasid⟩] } }
        Reg.dmaMigCmd2_result 0) best)))) ∧
  (∀ (e outcome : Nat) (r : DmaRun) (m : Mig) (s : State), nfind s.dma.run (32 + e) = some r → r.mig = some m → s.dma.results.length < 64 →
    (outcome = 0 ∧ r.fail = none ∧ r.piece = migPieces) ∨ (∃ k c f, r.fail = some (k, c, f) ∧ outcome = (if f.st = .unmapped then 1 else 2)) →
    exec (.migrationDone e () ()) s = .next (migView (dmaView
      { s with dma := { s.dma with run := ndel s.dma.run (32 + e), results := s.dma.results ++ [(m.index, outcome)] } } e))) ∧
  (∀ s : State, exec .dmaMigPop s = .next (migView { s with dma := { s.dma with results := s.dma.results.drop 1 } })) ∧
  (∀ (i : Nat) (m : MigFault) (s : State), i < 4096 → nfind s.xtu.migEnts i = some m → let u := { s with xtu := { s.xtu with migEnts := ndel s.xtu.migEnts i } }
    exec (.xtuMigDone i 0) s = .next (resumeHeld (setResident u m.ell true) (waitsEll m.ell)) ∧
    exec (.xtuMigDone i 1) s = .next (failHeld u (waitsEll m.ell) (heldIova .unmapped)) ∧
    exec (.xtuMigDone i 2) s = .next (failHeld u (waitsEll m.ell) (heldIova .timeout))) ∧
  (∀ s : State, getB s Reg.xtuCtl_mig_en = true → ∃ u, exec .migEnClear s = .next (failHeld u isMigrate (heldIova .unmapped)) ∧
    getB u Reg.xtuCtl_mig_en = false ∧ u.xtu = { s.xtu with migEnts := s.xtu.migEnts.filter (fun e => !(untaken s).contains e.1) } ∧ u.mem = s.mem)

/-- TENANT_CREATE of a free number, with the configuration committed, whose table is in order and for which every feature it asks is in
force, makes the tenant's state 1 and asks for its key slot; one asked before the commit, or whose table is not in order, is refused and
logged. KEY_SLOT_LOADED of an awaited slot, with random numbers where it needs them, loads the slot and resumes what waited for it.
TENANT_RETIRE of an active tenant makes it retiring and stops its work; TENANT_KEY_DESTROY of a retiring tenant with nothing left frees
the number and the slot, steps the serial, and ends its leases. Of a number in no such state they change nothing. -/
def Obligations.TenantsAreCreatedAndRetired : Prop :=
  ∀ (t : Nat) (s : State), t < 4096 →
    (∀ confidential busError, getF s Reg.xtuTenant0_state t = 0 → getB s Reg.cfgStatus_committed = true → tableOk s (tableOf s t).1 (tableOf s t).2 = true →
      (busError = true → feature s 1 = true) → (confidential = true → feature s 2 = true ∧ getB s Reg.secStatus_debug_granted = false) →
      (needsRandom s t confidential = true → getB s Reg.secStatus_trng_ok = true) → ∃ u, exec (.tenantCreate t confidential busError) s = .next u ∧
        getF u Reg.xtuTenant0_state t = 1 ∧ getB u Reg.xtuTenant0_confidential t = confidential ∧ u.mem = s.mem ∧
        u.sec = { s.sec with pendingLoad := s.sec.pendingLoad ++ [t] }) ∧
    (∀ busError, getF s Reg.xtuTenant0_state t = 0 → getB s Reg.cfgStatus_committed = false ∨ tableOk s (tableOf s t).1 (tableOf s t).2 = false →
      exec (.tenantCreate t false busError) s = .next (refuseCreate s t)) ∧
    (let random := needsRandom s t (getB s Reg.xtuTenant0_confidential t)
     s.sec.pendingLoad.contains t = true → (random = true → getB s Reg.secStatus_trng_ok = true) → let u := loadSlot s t random
      exec (.keySlotLoaded t) s =
        .next (resumeHeld { u with sec := { u.sec with pendingLoad := u.sec.pendingLoad.filter (fun x => x ≠ t) } } (fun w => w == .key t))) ∧
    (getF s Reg.xtuTenant0_state t = 1 → ∃ u n v, u = setF (setF s Reg.xtuTenant0_state 2 t) Reg.secSlot_state 2 t ∧
      stopTenant { u with sec := { u.sec with pendingLoad := u.sec.pendingLoad.filter (fun x => x ≠ t) } } t = (n, v) ∧
      exec (.tenantRetire t) s = .next { v with sec := { v.sec with removals := v.sec.removals ++ [⟨t, n⟩] } }) ∧
    (getF s Reg.xtuTenant0_state t ≠ 1 → exec (.tenantRetire t) s = .next s) ∧
    (∀ r, s.sec.removals.find? (fun r => r.tenant == t) = some r → tenantBusy s t = false → ∃ u, exec (.tenantKeyDestroy t) s = .next (if ringSize u ringSccq ≤ ringUsed (ringCnt u ringSccq) + u.sec.cmds
        then bumpSat u Reg.secErrOvf_dropped
        else ringPush u ringSccq (ccqRecord u ringSccq 0 0 0 ⟨.done, 0, .none, t + min r.stopped 65535 * 65536⟩)) ∧
      getF u Reg.xtuTenant0_state t = 0 ∧ getF u Reg.secSlot_state t = 0 ∧ u.sec.removals = s.sec.removals.erase r ∧
      u.sec.serial = nput s.sec.serial t (ngetD 0 s.sec.serial t + 1) ∧ ∀ l ∈ u.xtu.leases, l.tenant ≠ t)

/-- The XTU's commands that pass their checks reserve a completion entry and then: INVALIDATE_RANGE and INVALIDATE_TENANT drop the cached
records and start an invalidation; TABLE_SWAP takes the new table, drops the tenant's cached records and completes; RESMAP_CLEAR clears
the residence bits and completes. One that fails its check has the refusal's effect alone. LEASE_NOTICE brings an invalidation to a
holder it has not reached, after the earlier ones that have not reached it. INVALIDATION_COMPLETE of one with no holder, stale work,
request or write of its range left moves the clock past the late writes of its range and ends it with its record. TRANSLATION_MISS of an
active tenant's address that the cache does not hold looks its record up. -/
def Obligations.TranslationCommandsTakeTheirEffect : Prop :=
  (∀ (t tag addr count : Nat) (s : State), t < 4096 → let n := count % 2 ^ 32
    let a := addr % 2 ^ 64
    let go : State → State := fun u => { u with xtu := { u.xtu with ccqResv := u.xtu.ccqResv + 1 } }
    (let ok := decide (a < 2 ^ 52) && n ≠ 0 && decide (a / ellBytes + n ≤ 2 ^ 36)
     let r := rcmdRefusal s ok (tenantActive s t)
     (r = 0 → exec (.invalidateRange t tag addr count) s = .next (startInval (go (rcmd s t tag addr count 0)) (tag % 2 ^ 24) t (a / ellBytes) n)) ∧
     (r ≠ 0 → exec (.invalidateRange t tag addr count) s = .next (rcmd s t tag addr count r))) ∧
    (rcmdRefusal s true (tenantActive s t) = 0 → exec (.invalidateTenant t tag) s =
      .next (startInval (go (rcmd s t tag (getF s Reg.xtuRcmdArg0_addr) (getF s Reg.xtuRcmdArg1_count) 0)) (tag % 2 ^ 24) t 0 (2 ^ 36))) ∧
    (rcmdRefusal s (tableOk s a n) (tenantActive s t) = 0 → exec (.tableSwap t tag addr count) s =
      .next (xtuDone (cacheDropTenant (setF (setF (go (rcmd s t tag addr count 0)) Reg.xtuTenant8_ext_table_ppa addr t) Reg.xtuTenant4_ext_capacity n t) t)
        4 (tag % 2 ^ 24) Fin.ok)) ∧
    (rcmdRefusal s (n ≠ 0 && decide (a / ellBytes + n ≤ 18874368)) true = 0 → exec (.resmapClear tag addr count) s =
      .next (xtuDone ((List.range n).foldl (fun u i => setResident u (a / ellBytes + i) false) (go (rcmd s (getF s Reg.xtuRcmd_tenant) tag addr count 0)))
        5 (tag % 2 ^ 24) Fin.ok))) ∧
  (∀ (epoch n : Nat) (dma : Bool) (v : Inval) (s : State), let h := if dma then Holder.dma n else Holder.engine n
    (v ∈ s.xtu.invals → v.epoch = epoch → v.toNotify.contains h = true → exec (.leaseNotice epoch dma n) s =
      .next ((((s.xtu.invals.takeWhile (fun v => v.epoch ≠ epoch)).map (·.epoch)) ++ [epoch]).foldl (fun s e => noticeOf s h e) s)) ∧
    (∀ rest, s.xtu.invals = v :: rest → v.epoch = epoch → v.toNotify.contains h = true → exec (.leaseNotice epoch dma n) s = .next (notice s v h))) ∧
  (∀ (tag : Nat) (v : Inval) (s : State), s.xtu.invals.find? (fun v => v.ats.isNone && v.tag == tag) = some v →
    v.toNotify = [] → v.waiting = [] → v.reqs = [] → rangeBusy s v = false →
    let late := s.xtu.late.filter (fun x => x.tenant == v.tenant && decide (v.lo ≤ x.ell) && decide (x.ell < v.lo + v.count))
    let u := advance s ((late.map LateWrite.untilNs).foldl max s.nowNs)
    let rest := u.xtu.late.filter (fun x => decide (u.nowNs < x.untilNs))
    let kept := u.xtu.leases.filter (fun q => !(q.stale && q.tenant == v.tenant))
    exec (.invalidationComplete tag) s = .next (xtuDone { u with xtu := { u.xtu with invals := u.xtu.invals.erase v, late := rest, leases := kept } } (if v.count = 2 ^ 36 then 2 else 1) v.tag
      ⟨.done, 0, .none, min v.stopped 0xFFFFFF⟩)) ∧
  (∀ (t pva : Nat) (s : State), t < 4096 → tenantActive s t = true → pva < 2 ^ 52 → s.xtu.cache.any (entHits t (pva / ellBytes)) = false →
    exec (.translationMiss t pva) s = .next (findRec s t (pva / ellBytes) pva).2)

/-- PUBLISH_COMPLETE of a publish that no node owes an answer and whose drained version no work here or, as the command tells, elsewhere
binds ends it with the new version and takes up the next publish of the region. REVOKE_DRAIN_DONE of a record with nothing in flight
under it answers every waiter DONE; REVOKE_STRAGGLER_TIMEOUT moves the clock 2 ms past the revoke's start, no earlier than now, and
aborts what is still in flight, after which nothing is in flight under the record. -/
def Obligations.PublishesAndRevokesEnd : Prop :=
  (∀ (region : Nat) (bound : List (Nat × Nat)) (p : Publish) (s : State), let v := learnBound s region bound
    v.xtu.publishes.find? (fun p => p.region == region) = some p → p.waiting = [] → (p.drain = true → stillBound v region p.replaced = false) →
    let u := publishEnd { v with xtu := { v.xtu with publishes := v.xtu.publishes.erase p } } p.uid p.reply ⟨.done, 0, .none, p.newVersion⟩
    exec (.publishComplete ⟨region, bound⟩) s = .next (publishNext u.xtu.pubQ.length u region)) ∧
  (∀ (t pva : Nat) (v : Revoke) (s : State), t < 4096 → revokeOf s t pva = some v →
    (inFlight s v = [] → inFlightDir s v = [] → exec (.revokeDrainDone t pva) s =
      .next (v.waiters.foldl (fun s w => revAnswer s w ⟨.done, 0, .none, revHint v⟩) { s with xtu := { s.xtu with revokes := s.xtu.revokes.erase v } })) ∧
    (let u := advance s (v.startNs + 2000000)
     let fs := inFlight u v
     let cs := inFlightDir u v
     u.nowNs = max s.nowNs (v.startNs + 2000000) ∧ ∃ b x, x = cs.foldl abortCaching (fs.foldl (fun s f => abortFlight s v f)
        { u with xtu := { u.xtu with revokes := u.xtu.revokes.map (fun x =>
            if x = v then { x with aborted := x.aborted + stragglers fs + cs.length, fwdWrite := x.fwdWrite || b } else x) } }) ∧
      exec (.revokeStragglerTimeout t pva) s = .next { x with xtu := { x.xtu with flights := x.xtu.flights.filter (fun f => !fs.contains f) } }))

/-- A packet whose sender is not false and whose type the sender may send reaches the units: RD_REQ, WR_REQ and ATOMIC_REQ from an SR2 with
a PPA are served by the owner, others go through the entry checks; the caching requests RD_SHARED, RD_OWN and UPGRADE are taken alike; a
DOORBELL that passes the entry checks is applied when an SR2 sent it and goes through its flow otherwise; TILE_BATCH, CMD_FWD and
SET_REQ are taken as a batch, a forwarded PUBLISH and a question for a set. A packet that does not reach the units has only the effect
of its discard. -/
def Obligations.FabricRequestsAreTaken : Prop :=
  ∀ (port : Nat) (p : Pkt) (env : NMap Gran) (s : State),
    let of : Nat → Pkt := fun k => { p with ptype := k }
    let reached : Nat → State → Prop := fun k u => arrives s port (of k) = (true, u)
    (∀ u, reached 1 u → fromSr2 u port = true → p.isPpa = true → exec (.rdReq port p) s = .next (ownerReq u port (of 1))) ∧
    (∀ u, reached 2 u → fromSr2 u port = true → p.isPpa = true → exec (.wrReq port p) s = .next (ownerReq u port (of 2))) ∧
    (∀ u, reached 3 u → fromSr2 u port = true → p.isPpa = true → exec (.atomicReq port p) s = .next (ownerReq u port (of 3))) ∧
    (∀ u, reached 1 u → fromSr2 u port = false → exec (.rdReq port p) s = .next (entryReq u port (ingressData u port (of 1)))) ∧
    (∀ u, reached 2 u → fromSr2 u port = false → exec (.wrReq port p) s = .next (entryReq u port (ingressData u port (of 2)))) ∧
    (∀ u, reached 3 u → fromSr2 u port = false → exec (.atomicReq port p) s = .next (entryReq u port (ingressData u port (of 3)))) ∧
    (∀ u, reached 0x40 u → fromSr2 u port = true → p.isPpa = true → exec (.rdShared port p false) s = .next (ownerReq u port (of 0x40))) ∧
    (∀ u, reached 0x41 u → fromSr2 u port = true → p.isPpa = true → exec (.rdOwn port p false) s = .next (ownerReq u port (of 0x41))) ∧
    (∀ u, reached 0x42 u → fromSr2 u port = true → p.isPpa = true → exec (.upgrade port p false) s = .next (ownerReq u port (of 0x42))) ∧
    (∀ u, reached 0x40 u → fromSr2 u port = false → exec (.rdShared port p false) s = .next (entryReq u port (ingressData u port (of 0x40)))) ∧
    (∀ u, reached 0x41 u → fromSr2 u port = false → exec (.rdOwn port p false) s = .next (entryReq u port (ingressData u port (of 0x41)))) ∧
    (∀ u, reached 0x42 u → fromSr2 u port = false → exec (.upgrade port p false) s = .next (entryReq u port (ingressData u port (of 0x42)))) ∧
    (∀ u q v, reached 4 u → entryChecks u port (of 4) = (.inl q, v) → exec (.doorbellPacket port p) s =
      .next (if fromSr2 s port then doorApply v q else doorFlow v port q)) ∧
    (∀ u, reached 5 u → exec (.tileBatch port p env) s = .next (takeBatch u (of 5) env)) ∧
    (∀ u, reached 6 u → exec (.cmdFwd port p) s = .next (takeFwd u port (of 6))) ∧
    (∀ u, reached 7 u → exec (.setReq port p) s = .next (answerSet u (of 7))) ∧
    (∀ u, arrives s port (of 1) = (false, u) → exec (.rdReq port p) s = .next u) ∧
    (∀ u, arrives s port (of 5) = (false, u) → exec (.tileBatch port p env) s = .next u)

/-- RD_RSP, WR_RSP and ATOMIC_RSP of a forwarded request complete its piece; WR_RSP of this node's own write is its acknowledgement,
ATOMIC_RSP of its own atomic its answer; BATCH_RSP, CMD_RSP and SET_RSP reach the batch, the publish and the set that asked, and ERR_RSP
fails what it matches. A response that matches nothing is discarded and adds one to the late responses. SET_WITHDRAW withdraws the
version and is answered; WITHDRAW_ACK strikes its sender off the publish; CACHE_RELEASE drops the named entries of its sender. -/
def Obligations.FabricResponsesEndTheirRequest : Prop :=
  ∀ (port : Nat) (p : Pkt) (s u : State),
    let of : Nat → Pkt := fun k => { p with ptype := k }
    let ends : Nat → Option Outst → Prop := fun k o => arrives s port (of k) = (true, u) ∧ matchOutst u (of k) = o
    (∀ o id, ends 0x81 (some o) → o.client = some id → exec (.rdRsp port p) s = .next (clientBack u o id (ingressData u port (of 0x81)))) ∧
    (∀ o id, ends 0x82 (some o) → o.client = some id → exec (.wrRsp port p) s = .next (clientBack u o id (of 0x82))) ∧
    (∀ o, ends 0x82 (some o) → o.client = none → exec (.wrRsp port p) s = .next (writeBack u o (rspFin (of 0x82)))) ∧
    (∀ o id env, ends 0x83 (some o) → o.client = some id → exec (.atomicRsp port ⟨p, env⟩) s = .next (clientBack u o id (of 0x83))) ∧
    (∀ o v env, ends 0x83 (some o) → o.client = none → o.uid = some v → exec (.atomicRsp port ⟨p, env⟩) s = .next (atomicBack u o v (of 0x83) env)) ∧
    (∀ o v env, ends 0x85 (some o) → o.uid = some v → exec (.batchRsp port ⟨p, env⟩) s = .next (batchBack u o v (of 0x85) env)) ∧
    (∀ o, ends 0x86 (some o) → exec (.cmdRsp port p) s = .next (publishBack u o (of 0x86))) ∧
    (∀ o, ends 0x87 (some o) → exec (.setRsp port p) s = .next (takeSet u o (of 0x87))) ∧
    (∀ o, ends 0x8F (some o) → exec (.errRsp port p) s = .next (failOutst u o p.fathom (rspFin (of 0x8F)))) ∧
    (ends 0x81 none → exec (.rdRsp port p) s = .next (bump u Reg.nieLateRsp_count)) ∧
    (ends 0x82 none → exec (.wrRsp port p) s = .next (bump u Reg.nieLateRsp_count)) ∧
    (∀ env, ends 0x83 none → exec (.atomicRsp port ⟨p, env⟩) s = .next (bump u Reg.nieLateRsp_count)) ∧
    (∀ env, ends 0x85 none → exec (.batchRsp port ⟨p, env⟩) s = .next (bump u Reg.nieLateRsp_count)) ∧
    (ends 0x86 none → exec (.cmdRsp port p) s = .next (bump u Reg.nieLateRsp_count)) ∧
    (ends 0x87 none → exec (.setRsp port p) s = .next (bump u Reg.nieLateRsp_count)) ∧
    (ends 0x8F none → exec (.errRsp port p) s = .next (bump u Reg.nieLateRsp_count)) ∧
    (arrives s port (of 0xC4) = (true, u) → let v := withdrawSet u (p.body % 2 ^ 32) (bitsOf p.body 32 32)
      exec (.setWithdraw port p) s = .next (inject v { pkt0 v p.src 0xC5 4 with body := p.body })) ∧
    (arrives s port (of 0xC5) = (true, u) → exec (.withdrawAck port p) s =
      .next { u with xtu := { u.xtu with publishes := u.xtu.publishes.map (fun q =>
        if q.region = p.body % 2 ^ 32 ∧ q.replaced = bitsOf p.body 32 32 then { q with waiting := q.waiting.filter (fun n => n ≠ p.src) } else q) } }) ∧
    (arrives s port (of 0xC3) = (true, u) → let ids := (List.range (min (p.body % 16) 9)).map (fun i => bitsOf p.body (8 + 24 * i) 24)
      exec (.cacheRelease port p) s = .next (rcView { u with nie := { u.nie with rc := u.nie.rc.filter (fun e =>
        !(e.tenant == p.tenant && e.src == p.src && ids.contains e.reqId)) } }))

/-- NIE_FLOW_OPEN of a free nonzero flow number under a bound job opens it expecting number 0, result 0; of one in use result 1, under an
unbound job 2. NIE_FLOW_CLOSE of an open flow removes it and answers what it held ACCESS_DENIED, doorbells apart. JOB_BIND of an unbound
job number binds it, and of a bound one changes nothing. FLOW_RELEASE lets a held packet whose turn has come run. REPLAY_CACHE_EXPIRY
moves the clock to the end of the entry's life, no earlier than now, and drops every entry that has outlived it; COMPLETION_TIMEOUT
moves it to the request's deadline and fails the request TIMEOUT. -/
def Obligations.FlowsAndJobsTakeTheirEffect : Prop :=
  (∀ (f j src : Nat) (s : State), f < 65536 → j < 4096 →
    ((f = 0 ∨ nfind s.nie.flows f ≠ none) → exec (.nieFlowOpen f j src) s = .next (flowCmd s f j src 1)) ∧
    (f ≠ 0 → nfind s.nie.flows f = none → getB s Reg.nieJob0_valid j = false → exec (.nieFlowOpen f j src) s = .next (flowCmd s f j src 2)) ∧
    (f ≠ 0 → nfind s.nie.flows f = none → getB s Reg.nieJob0_valid j = true → exec (.nieFlowOpen f j src) s =
      .next (flowCmd { s with nie := { s.nie with flows := nput s.nie.flows f ⟨j, src % 2 ^ 14, 0, 0⟩ } } f j src 0)) ∧
    ((f = 0 ∨ nfind s.nie.flows f = none) → exec (.nieFlowClose f j src) s = .next (flowCmd s f j src 1)) ∧
    (f ≠ 0 → nfind s.nie.flows f ≠ none → ∃ u, u = { s with nie := { s.nie with flows := ndel s.nie.flows f, reorder := s.nie.reorder.filter (fun x => x.2.flow ≠ f) } } ∧
      exec (.nieFlowClose f j src) s = .next (flowCmd ((s.nie.reorder.filter (fun x => x.2.flow == f)).foldl
        (fun s x => if x.2.ptype = 0x04 then s else errRsp s x.2 0 (Fin.of .accessDenied)) u) f j src 0)) ∧
    (∀ tenant ranks ppa, getB s Reg.nieJob0_valid j = false → ∃ t, exec (.jobBind j tenant ranks ppa) s = .next t ∧ getB t Reg.nieJob0_valid j = true ∧
      getF t Reg.nieJob0_tenant j = tenant % 2 ^ Reg.nieJob0_tenant.width ∧ getF t Reg.nieJob4_rank_count j = ranks % 2 ^ Reg.nieJob4_rank_count.width ∧
      getF t Reg.nieJob8_rank_ppa j = ppa % 2 ^ Reg.nieJob8_rank_ppa.width ∧ t = { s with regs := t.regs }) ∧
    (∀ tenant ranks ppa, getB s Reg.nieJob0_valid j = true → exec (.jobBind j tenant ranks ppa) s = .next s)) ∧
  (∀ (f : Nat) (x : Nat × Pkt) (s : State), s.nie.reorder.find? (fun x => x.2.flow == f && (flowCheck s x.2 == .go || flowCheck s x.2 == .again)) = some x →
    exec (.flowRelease f) s = .next (releasePkt { s with nie := { s.nie with reorder := s.nie.reorder.erase x } } x.1 x.2)) ∧
  (∀ (tenant reqId : Nat) (e : RcEnt) (s : State), s.nie.rc.find? (fun e => e.tenant == tenant && e.reqId == reqId) = some e →
    ∃ t, exec (.replayCacheExpiry tenant reqId) s = .next t ∧ t.nowNs = max s.nowNs (e.writtenNs + rcLifeNs) ∧
      t.nie = { s.nie with rc := s.nie.rc.filter (fun e => decide (t.nowNs < e.writtenNs + rcLifeNs)) } ∧ e ∉ t.nie.rc) ∧
  (∀ (dst tenant reqId : Nat) (o : Outst) (s : State), s.nie.outst.find? (fun o => o.dst == dst && o.tenant == tenant && o.reqId == reqId) = some o →
    ∃ u, u = advance s o.deadlineNs ∧ u.nowNs = max s.nowNs o.deadlineNs ∧
      exec (.completionTimeout dst tenant reqId) s = .next (failOutst (noteLate u o) o (fathomNow u) (Fin.atPpa .timeout o.ppa)))

/-- From an agent that is not failed: WB_DATA gives its granule to the transaction or entry of its line; EVICT_CLEAN drops the owner's entry
or the sharer, and waits for nothing; SNP_RSP of an agent that a transaction has asked joins the transaction, and of another answers a
flush of the set; COMP_ACK of the requester that the transaction waits for ends that wait. A message of a failed agent changes nothing
but the count of stale messages. -/
def Obligations.DirectoryMessagesTakeTheirEffect : Prop :=
  ∀ (port : Nat) (p : Pkt) (s u : State),
    let of : Nat → Pkt := fun k => { p with ptype := k }
    let line := lineOf p.addr
    let sent : Nat → Option Nat → State → Prop := fun k a v => arrives s port (of k) = (true, u) ∧ sender u (of k) = (a, v)
    (∀ a v, sent 0x43 (some a) v → exec (.wbData port p) s = .next (takeWb v (ingressData v port (of 0x43)) a)) ∧
    (∀ a v e, sent 0x44 (some a) v → dirEnt v line = some e →
      (e.st ≠ 2 → exec (.evictClean port p) s = .next (settleDir (putEnt v line (dropSharer e a)) [])) ∧
      (e.st = 2 → ownerAgent e = some a → exec (.evictClean port p) s = .next (settleDir (putEnt v line none) []))) ∧
    (∀ a v, sent 0x45 (some a) v → txnOf v line = none → exec (.snpRsp port p) s = .next (flushRsp v (dirSet line) a (bitsOf (cohOf (of 0x45)) 48 16))) ∧
    (∀ a v t, sent 0x45 (some a) v → txnOf v line = some t → t.snp.contains a = true → exec (.snpRsp port p) s =
      .next (takeSnp v t a (cohOf (of 0x45)) ((dataFlit (ingressData v port (of 0x45))).filter (fun _ => bitOf (cohOf (of 0x45)) 3)))) ∧
    (∀ a v t, sent 0x46 (some a) v → txnOf v line = some t → t.comp = true → t.req.agent = a → exec (.compAck port p) s =
      .next (stepTxn (modTxn v line (fun x => { x with comp := false, compNs := v.nowNs })) line)) ∧
    (∀ v, sent 0x44 none v → exec (.evictClean port p) s = .next v) ∧
    (∀ v, sent 0x45 none v → exec (.snpRsp port p) s = .next v) ∧
    (∀ v, sent 0x46 none v → exec (.compAck port p) s = .next v) ∧
    (∀ v, sent 0x43 none v → agentOf u p.src ≠ none → exec (.wbData port p) s = .next v)

/-- HOLD_EXPIRY moves the clock to the hold's end, no earlier than now, and ends it. SNOOP_TIMEOUT of an agent that owes an answer marks it
failed and fails the request where it owned the line; COMP_ACK_TIMEOUT logs the requester and closes its wait. BINV_RANGE of an aligned
range of this node within its memory starts the back-invalidation, of another shows result 2; AGENT_RELEASE of a failed agent removes it
from every entry and shows 0, of another shows 3; while a command runs either changes nothing. DIR_COMMIT brings the pending values into
force. -/
def Obligations.DirectoryTimersAndCommandsTakeTheirEffect : Prop :=
  (∀ (line t : Nat) (s : State), nfind s.dir.holds line = some t → ∃ u, u = advance s t ∧ u.nowNs = max s.nowNs t ∧
    exec (.holdExpiry line) s = .next (settleDir { u with dir := { s.dir with holds := ndel s.dir.holds line } } [])) ∧
  (∀ (line a : Nat) (t : DirTxn) (s : State), txnOf s line = some t →
    (t.snp.contains a || t.wb.contains a) = true → let u := markFailed (advance s (t.startNs + snoopNs s)) line a
      (t.old.bind ownerAgent = some a → exec (.snoopTimeout line a) s = .next (failTxn u t t.old (Fin.atPpa .timeout (linePpa u line)))) ∧
      (t.old.bind ownerAgent ≠ some a → ∃ g, exec (.snoopTimeout line a) s = .next (stepTxn (modTxn
        (putEnt u line ((dirEnt u line).bind (fun e => if e.st = 2 then some e else dropSharer e a))) line g) line) ∧
        ∀ x, (g x).snp = x.snp.filter (fun y => y ≠ a) ∧ (g x).wb = x.wb.filter (fun y => y ≠ a))) ∧
  (∀ (line : Nat) (t : DirTxn) (s : State), txnOf s line = some t → t.comp = true → exec (.compAckTimeout line) s =
    .next (stepTxn (modTxn (logDir (advance s (t.startNs + snoopNs s)) 2 line t.req.agent) line (fun x => { x with comp := false })) line)) ∧
  (∀ (ppa n : Nat) (s : State), getB s Reg.dirCmd_busy = false → ppa < 2 ^ Reg.dirCmdArg0_ppa.width → n < 2 ^ Reg.dirCmdArg1_ells.width →
    let u := setF (setF s Reg.dirCmdArg0_ppa ppa) Reg.dirCmdArg1_ells n
    let bad := ppa % ellBytes ≠ 0 ∨ ownerOf ppa ≠ s.dev.node ∨ n = 0 ∨ 2 ^ 42 < localOf ppa + n * ellBytes
    (bad → exec (.binvRange ppa n) s = .next (setF u Reg.dirCmd_result 2)) ∧
    (¬ bad → let lo := lineOf ppa
      let hi := lo + n * 1024
      let v := setB (setF u Reg.dirCmd_result 0) Reg.dirCmd_busy true
      let w := { v with dir := { v.dir with binv := some (lo, hi) } }
      (∀ e ∈ s.dir.ents, ¬ (lo ≤ e.1 ∧ e.1 < hi)) → exec (.binvRange ppa n) s = .next (settleDir w []))) ∧
  (∀ (a : Nat) (s : State), getB s Reg.dirCmd_busy = false → a < 2 ^ Reg.dirCmd_agent.width → let u := setF s Reg.dirCmd_agent a
    (agentFailed u a = false → exec (.agentRelease a) s = .next (setF u Reg.dirCmd_result 3)) ∧
    (agentFailed u a = true → exec (.agentRelease a) s = .next (settleDir (setF (setB (s.dir.ents.foldl (fun s e =>
      if ownerAgent e.2 = some a then putEnt s e.1 none
      else if e.2.ptrs.contains a then putEnt s e.1 (dropSharer e.2 a) else s) u) Reg.dirAgent_failed false a) Reg.dirCmd_result 0) []))) ∧
  (∀ s : State, exec .dirCommit s = .next (commitTable s Reg.tableDir))

/-- A packet header that arrives on an ACTIVE port with a virtual channel below 5, and is not the header of a packet that waits, enters its
input region and is routed. HEADER_HOLD_TIMEOUT of a packet none of whose flits left drops it after its hold limit. ROUTE_TABLE_WRITE to
an IDLE half writes the entry, to another marks the write refused and leaves the table. EPOCH_FLIP to an IDLE half makes it ACTIVE, the
other RETIRING, starts the drain and acknowledges; to the ACTIVE half acknowledges, to the RETIRING one refuses. EPOCH_RETIRE with no
packet of the old epoch left makes the old half IDLE and acknowledges. ROUTER_COMMIT brings pending values into force. -/
def Obligations.RouterCommandsTakeTheirEffect : Prop :=
  (∀ (port : Nat) (p : Pkt) (r : RtrPkt) (s : State), port < 12 → portState s port = 4 → p.vc < 5 →
    ((s.rtr.inq.filter (fun e => e.1 / 8 == port)).flatMap (·.2)).find? (fun r => r.out.isNone && sameHeader r.pkt p) = none →
    rtrPkt (enterPkt s port p).2 (enterPkt s port p).1 = some r → exec (.packetHeaderArrival port p) s = .next (routePkt (enterPkt s port p).2 r)) ∧
  (∀ (id : Nat) (r : RtrPkt) (s : State), rtrPkt s id = some r → r.sent = 0 → r.out = none → exec (.headerHoldTimeout id) s =
    .next (dropPkt (advance s (r.sinceNs + max 1 (getF s Reg.routerCtl_hold_us) * 1000 + retrainedNs s r + 1)) r)) ∧
  (∀ (half : Bool) (d v : Nat) (s : State), d < 2 ^ Reg.routerTblAddr_dest.width → ∃ u, u.rtr = s.rtr ∧ getF u Reg.routerTblAddr_dest = d ∧
    getB u Reg.routerTblAddr_half = half ∧
    (halfState s half ≠ 0 → exec (.routeTableWrite half d v) s = .next (setB u Reg.routerEpoch_tbl_refused true)) ∧
    (halfState s half = 0 → exec (.routeTableWrite half d v) s = .next (if half
      then { u with rtr := { u.rtr with half1 := nset 0 u.rtr.half1 d (v % 512) } }
      else { u with rtr := { u.rtr with half0 := nset 0 u.rtr.half0 d (v % 512) } }))) ∧
  (∀ (port : Nat) (p : Pkt) (s u : State), arrives s port { p with ptype := 0xC0 } = (true, u) → let new := bitOf p.body 0
    (halfState u new = 1 → exec (.epochFlip port p) s = .next (epochAck u p.src p.reqId false)) ∧
    (halfState u new = 2 → exec (.epochFlip port p) s = .next (epochAck u p.src p.reqId true)) ∧
    (halfState u new = 0 → let v := setHalf (setHalf (setB u Reg.routerEpoch_inject_epoch new) new 1) (!new) 2
        exec (.epochFlip port p) s = .next (epochAck { v with rtr := { v.rtr with
          drain := some (v.nowNs + max 1 (getF v Reg.routerEpoch_drain_us) * 1000, p.src) } } p.src p.reqId false))) ∧
  (∀ (d : Nat × Nat) (s : State), s.rtr.drain = some d → let u := advance s d.1
    (∀ p, p < 14 → oldCount u p = 0) → let v := setHalf u (!getB u Reg.routerEpoch_inject_epoch) 0
      exec .epochRetire s = .next (epochAck { v with rtr := { v.rtr with drain := none } } d.2 0 false)) ∧
  (∀ s : State, exec .routerCommit s = .next (commitRouter s))

/-- On an ACTIVE port: FRAME_TRANSMIT sends up to four waiting control flits in an unsequenced frame, else the next frame of a replay, else
a new frame. FRAME_RECEIVE of a frame with a wrong CRC, a wrong form or an uncorrectable FEC block counts it and asks for a replay; of a
sequenced frame with the expected number, no acknowledgement and no control flit it accepts the frame. REPLAY_REQ acknowledges and
replays; REPLAY_TIMEOUT with frames unacknowledged moves the clock to the time and replays from the oldest; RETRAIN_REQ starts
retraining; RTT_PROBE queues the echo, RTT_ECHO measures, RTT_PROBE_TIMER queues a probe with the time; REPLAY_REQ_RESEND_TIMEOUT lets
the receiver ask again. -/
def Obligations.LinkFramesAndRepliesTakeTheirEffect : Prop :=
  ∀ (p : Nat) (s : State), p < 12 →
    (portState s p = 4 → let u := updXoff s p
      let q := portAt u p
      (q.lctl ≠ [] → exec (.frameTransmit p) s = .next (modPort (putFrame u p (unseqFrame u p ((q.lctl.take 4).map (fun x => lctlFlit x.1 x.2))) (q.vzGap + 4)) p
        (fun q => { q with lctl := q.lctl.drop 4 }))) ∧
      (∀ r, q.lctl = [] → q.rpt = some r → exec (.frameTransmit p) s = .next (sendReplay u p r.1 r.2)) ∧
      (q.lctl = [] → q.rpt = none → exec (.frameTransmit p) s = .next (sendNew u p))) ∧
    (∀ corr f, portState s p = 4 → (crc32 (frameBytes f) ≠ f.crc ∨ frameForm f = false) →
      exec (.frameReceive p corr false f) s = .next (askReplay (bump (bump s Reg.fptFecCorr_count corr p) Reg.fptCrcErr_count 1 p) p)) ∧
    (∀ corr f, portState s p = 4 → exec (.frameReceive p corr true f) s =
      .next (askReplay (bump (bump (bump s Reg.fptFecCorr_count corr p) Reg.fptFecUncorr_count 1 p) Reg.fptCrcErr_count 1 p) p)) ∧
    (∀ corr f, portState s p = 4 → crc32 (frameBytes f) = f.crc → frameForm f = true → f.ackValid = false → f.seqValid = true →
      f.flits.filter (fun x => x.ty == 5) = [] → let u := modPort (bump s Reg.fptFecCorr_count corr p) p (fun q => { q with xoffIn := f.xoff % 32 })
      portState u p = 4 → (portAt u p).exp = f.seq % 4096 → exec (.frameReceive p corr false f) s = .next (acceptFrame u p f)) ∧
    (∀ n, portState s p = 4 → exec (.replayReq p n) s = .next (takeReplayReq s p n)) ∧
    (portState s p = 4 → (portAt s p).replay ≠ [] → let u := advance s ((portAt s p).progressNs + replayNs s p)
      u.nowNs = max s.nowNs ((portAt s p).progressNs + replayNs s p) ∧
      exec (.replayTimeout p) s = .next (beginReplay (modPort u p (fun q => { q with progressNs := u.nowNs })) p (oldestNum (portAt s p)))) ∧
    exec (.retrainReq p) s = .next (startRetrain s p) ∧
    (∀ stamp, portState s p = 4 → exec (.rttProbe p stamp) s = .next (queueLctl s p 4 stamp) ∧
      exec (.rttEcho p stamp) s = .next (noteRtt s p (s.nowNs - stamp)) ∧
      exec (.rttProbeTimer p) s = .next (queueLctl s p 3 s.nowNs)) ∧
    (∀ t, (portAt s p).asked = some t →
      exec (.replayReqResendTimeout p) s = .next (modPort (advance s (t + replayNs s p)) p (fun q => { q with asked := none })))

/-- PORT_ENABLE of a disabled port takes it to DETECT, PORT_DISABLE to DISABLED; PORT_RETRAIN, LOSS_OF_SIGNAL on an active lane and a lane
that reached its error limit start retraining of an ACTIVE port, the last with the lane marked failed. DETECT_SIGNAL takes DETECT to
TRAIN with every lane clean, TRAIN_DONE TRAIN to CONFIG, or back to DETECT where training failed; CONFIG_DONE ends CONFIG. RETRAIN_DONE
by a different peer and RETRAIN_TIMEOUT take the port DOWN, the second at 2 ms after retraining began; one by the same peer whose lanes
run returns it to ACTIVE. AUTO_UP_TIMER takes a DOWN port with auto_up to DETECT 100 ms after it went down. -/
def Obligations.PortsTrainAndGoDown : Prop :=
  ∀ (p : Nat) (s : State), p < 12 →
    (portState s p = 0 → ∃ t, exec (.portEnable p) s = .next t ∧ portState t p = 1 ∧ getB t Reg.fptCtl_enable p = true ∧ t.mem = s.mem ∧ t.rtr = s.rtr) ∧
    (portState s p ≠ 0 → exec (.portEnable p) s = .next (setB s Reg.fptCtl_enable true p) ∧
      (portState (setB s Reg.fptCtl_enable false p) p ≠ 0 → exec (.portDisable p) s = .next (linkDown (setB s Reg.fptCtl_enable false p) p 0))) ∧
    (portState s p = 4 → exec (.portRetrain p) s = .next (startRetrain (setB s Reg.fptCtl_retrain true p) p)) ∧
    (portState s p ≠ 4 → exec (.portRetrain p) s = .next s) ∧
    (∀ lane, laneActive s p lane = true → exec (.lossOfSignal p lane) s = .next (startRetrain s p) ∧
      (portState s p = 4 → getF s Reg.fptLaneCtl_ser_limit p ≠ 0 → exec (.laneErrorLimit p lane) s =
        .next (startRetrain (setF s Reg.fptLane_rx_failed (Nat.lor (getF s Reg.fptLane_rx_failed p) (2 ^ lane)) p) p))) ∧
    (portState s p = 1 → ∃ t, exec (.detectSignal p) s = .next t ∧ portState t p = 2 ∧ getF t Reg.fptLane_rx_failed p = 0 ∧
      getF t Reg.fptLane_tx_failed p = 0 ∧ (portAt t p).sinceNs = s.nowNs) ∧
    (∀ ok, portState s p = 2 → ∃ t, exec (.trainDone p ok) s = .next t ∧ portState t p = (if ok then 3 else 1) ∧ (portAt t p).sinceNs = s.nowNs) ∧
    (∀ c, portState s p = 3 → exec (.configDone p c) s = .next (configEnd s p c)) ∧
    (∀ c, portState s p = 5 →
      (getF s Reg.fptPeer_node p ≠ c.node → exec (.retrainDone p c) s = .next (linkDown (logFpt s 9 p) p 6)) ∧
      (∀ v, getF s Reg.fptPeer_node p = c.node → getF s Reg.fptPeer_port p = c.port → getB s Reg.fptPeer_sr2 p = c.sr2 → regionsOk s p = true →
        let d := (c.expected % 4096 + 4096 - oldestNum (portAt s p)) % 4096
        d ≤ (portAt s p).replay.length → getB s Reg.fptEnc_enc_required p = false → c.encReq = false → runLanes s p c.rxFail c.txFail = some v →
        ∃ w, w = noteRtt (setB (logFpt (modPort (freeFrames (setB (setF (creditRetrain v p) Reg.fptStatus_state 4 p) Reg.fptCtl_retrain false p) p d) p
            (fun q => { q with sinceNs := (creditRetrain v p).nowNs, progressNs := (creditRetrain v p).nowNs, runs := 0, asked := none, rpt := none })) 3 p)
            Reg.fptStatus_replaying false p) p c.rttNs ∧
          exec (.retrainDone p c) s = .next (if (portAt w p).replay.isEmpty then w else beginReplay w p (oldestNum (portAt w p))))) ∧
    (portState s p = 5 → exec (.retrainTimeout p) s = .next (linkDown (creditRetrain (advance s ((portAt s p).sinceNs + 2000000)) p) p 6)) ∧
    (portState s p = 6 → getB s Reg.fptCtl_auto_up p = true → ∃ t, exec (.autoUpTimer p) s = .next t ∧ portState t p = 1 ∧
      t.nowNs = max s.nowNs ((portAt s p).sinceNs + 100000000))

/-- REKEY_TIMER of an encrypted port begins a change of key at once where 2^32 frames were sent under it, else at the end of the period
where one is set. LINK_REKEY of a port below 12 with room for its record begins the change and posts the record, without room shows 1,
of another port 3; PAIR_SET alike takes the staged secret as the port's and clears the stage. KEY_PHASE_SWITCH of an ACTIVE port whose
change is under way, with nothing unacknowledged and no segment open, turns the phase, steps the key's generation and starts its count
and time anew. -/
def Obligations.LinkKeysAreChanged : Prop :=
  ∀ (p : Nat) (s : State), p < 12 →
    (getB s Reg.fptStatus_enc_active p = true → 2 ^ 32 ≤ (portAt s p).txCnt → exec (.rekeyTimer p) s = .next (beginRekey s p)) ∧
    (getB s Reg.fptStatus_enc_active p = true → (portAt s p).txCnt < 2 ^ 32 → getF s Reg.secLinkCtl_rekey_ms ≠ 0 → exec (.rekeyTimer p) s =
      .next (beginRekey (advance s ((portAt s p).keyNs + getF s Reg.secLinkCtl_rekey_ms * 1000000)) p)) ∧
    (∀ tag, sccqRoom s = true → exec (.linkRekey p tag) s = .next (secDone (beginRekey (kcmd s (getF s Reg.secKcmd_tenant) p tag 0) p) 2 tag 0)) ∧
    (∀ tag, sccqRoom s = false → exec (.linkRekey p tag) s = .next (kcmd s (getF s Reg.secKcmd_tenant) p tag 1) ∧
      exec (.pairSet p tag) s = .next (kcmd s (getF s Reg.secKcmd_tenant) p tag 1)) ∧
    (∀ tag q, 12 ≤ q → q < 16 → exec (.linkRekey q tag) s = .next (kcmd s (getF s Reg.secKcmd_tenant) q tag 3) ∧
      exec (.pairSet q tag) s = .next (kcmd s (getF s Reg.secKcmd_tenant) q tag 3)) ∧
    (∀ tag, sccqRoom s = true → let u := kcmd s (getF s Reg.secKcmd_tenant) p tag 0
      let v := (List.range 4).foldl (fun s i => setF s Reg.secPair_secret 0 i) u
      let secret := ((List.range 4).map (fun i => getF u Reg.secPair_secret i * 2 ^ (64 * i))).sum
      exec (.pairSet p tag) s = .next (secDone (linkView { v with sec := { v.sec with pair := nput s.sec.pair p secret } } p) 3 tag 0)) ∧
    (∀ k, nfind s.sec.txKey p = some k → portState s p = 4 → (portAt s p).rekey = true → (portAt s p).replay = [] → segOpen (portAt s p) = false →
      let ph := !getB s Reg.fptEnc_key_phase p
      let u := setB (setB s Reg.fptEnc_key_phase ph p) Reg.secLink_key_phase ph p
      exec (.keyPhaseSwitch p) s = .next (linkView (modPort { u with sec := { u.sec with txKey := nput s.sec.txKey p { k with gen := (k.gen + 1) % 65536 } } } p
        (fun q => { q with rekey := false, txCnt := 0, keyNs := s.nowNs })) p))

/-- ADM_RELEASE moves the clock to the earliest release of the holding queue, no earlier than now, and lets the work the arbiter picks among
those due go. ADM_REDECIDE takes the earliest work that waits for a new decision, at its time, and decides it again. ADM_BKT_READ and
ADM_BKT_WRITE of a bucket below 5120 move its parameters to or from the staged registers, a write leaving it full, or empty in reset
mode; of another they show result 1. FATHOM_UPDATE keeps the newest samples and changes only the load registers, memory, engine, fabric
and admission each as the maximum of its members over the window. -/
def Obligations.AdmissionCommandsTakeTheirEffect : Prop :=
  (∀ (h e : HoldEnt) (hs : List HoldEnt) (pos : Nat) (s : State), s.adm.hold = h :: hs →
    let t := hs.foldl (fun a e => min a e.atNs) h.atNs
    let due := (h :: hs).filter (fun e => e.atNs == t)
    let r := arbPick 8192 (arbN s Reg.xbarArbCtl_n_adm) s.adm.arb (due.map (fun e => (e.pos, 0)))
    r.1 = some pos → due.find? (fun e => e.pos == pos) = some e →
    exec .admRelease s = .next (letGo (holdView { advance s t with adm := { s.adm with hold := s.adm.hold.erase e, arb := arbStay r.2 ((due.erase e).map (fun x => x.pos)) } }) e.item)) ∧
  (∀ (h : HoldEnt) (hs : List HoldEnt) (s : State), s.adm.redo = h :: hs →
    let e := hs.foldl (fun a x => if x.atNs < a.atNs then x else a) h
    exec .admRedecide s = .next (decideAgain { advance s e.atNs with adm := { s.adm with redo := s.adm.redo.erase e } } e)) ∧
  (∀ (k : Nat) (s : State), k < 5120 → let b := bktAt s k
    ∃ t, exec (.admBktRead k) s = .next t ∧ t = { s with regs := t.regs } ∧ getF t Reg.admBktRate_rate = b.rate % 2 ^ Reg.admBktRate_rate.width ∧
      getF t Reg.admBktGust_gust = b.gust % 2 ^ Reg.admBktGust_gust.width ∧
      getF t Reg.admBktLevel_level = ((bktLevel b s.nowNs / (lvlUnit : Int)) % (2 ^ 48 : Int)).toNat) ∧
  (∀ (k : Nat) (s : State), 5120 ≤ k → k < 8192 → exec (.admBktRead k) s = .next (bktResult s k 1)) ∧
  (∀ (k rate gust ovh target limit : Nat) (mode : Bool) (s : State), k < 5120 → rate < 2 ^ Reg.admBktRate_rate.width → gust < 2 ^ Reg.admBktGust_gust.width →
    ovh < 2 ^ Reg.admBktCfg_overhead.width → target < 2 ^ Reg.admBktCfg_target_us.width → limit < 2 ^ Reg.admBktCfg_limit_us.width →
    let b : Bkt := ⟨rate, gust, ovh, target, limit, mode, 0, s.nowNs⟩
    ∃ u, exec (.admBktWrite k rate gust ovh target limit mode) s = .next (setBkt u k { b with level := if mode then 0 else bktCap b }) ∧
      u = { s with regs := u.regs }) ∧
  (∀ (u : UtilSample) (s : State), let v := { u with held := s.adm.hold.length }
    let w := min 10 (getF s Reg.admFathomCtl_window_log2)
    let win := ((v :: s.adm.samples).take 1024).take (2 ^ w)
    ∃ t, exec (.fathomUpdate u) s = .next t ∧ t = { s with regs := t.regs, adm := { s.adm with samples := (v :: s.adm.samples).take 1024 } } ∧
      getF t Reg.admFathom_eng = fathomLevel ((win.map (fun x => x.eng)).sum) w ∧
      getF t Reg.admFathom_adm = min 15 (16 * (win.map (fun x => x.held)).sum / (8192 * 2 ^ w)))

/-- CHANNEL_GRANT on an online channel carries out the request the arbiter picks. PARITY_DELTA takes the delta of a granule away and
acknowledges its write. REFRESH at the end of the interval closes the bank's row and notes the time, with nothing owed where no request
waits; where a U2 or U3 request for the bank waits and one more may be owed, it is postponed and adds one to what is owed.
OPEN_MAX_EXPIRY closes the open row at its time. CHANNEL_RETRAIN sets the temperature and retrains the channel, at once where the
temperature moved or a pass failed, else when its period ends; SMC_RETRAIN_NOW retrains every channel of the stack. SMC_LOCK locks the
layout, ZMAP_READY after it zeroes memory and resumes what waited; the commits bring pending values into force. -/
def Obligations.MemoryControllerCommandsTakeTheirEffect : Prop :=
  (∀ (st c : Nat) (reqs : List MemReq) (errs : SymErr) (r : MemReq) (s : State), st < 12 → c < 32 → chanOnline s st c = true →
    let ch := st * 32 + c
    let here := reqs.filter (fun r => posPresents r.pos)
    let b := bridge s st ((List.range 64).filterMap (fun i => offer s ch (here.filter (fun r => r.pos == i))))
    let ranked := b.1.map (fun r => (r.pos, max (posRank b.2 r.pos) (urgency r.ageNs (posTarget b.2 r.pos))))
    let a := arbPick 64 (arbN b.2 Reg.xbarArbCtl_n_smc) (ngetD arb0 b.2.smc.arbs ch) ranked
    b.1.find? (fun r => a.1 == some r.pos) = some r →
      exec (.channelGrant st c reqs ⟨errs, false⟩) s = .next (grantReq { b.2 with smc := { b.2.smc with arbs := nset arb0 b.2.smc.arbs ch a.2 } } ch r errs)) ∧
  (∀ (g : Nat) (d : Delta) (s : State), s.mem.deltas.find? (fun d => d.gran == g) = some d → exec (.parityDelta g) s =
    .next { s with mem := { s.mem with deltas := s.mem.deltas.erase d },
                   smc := { s.smc with out := nput s.smc.out (chanOf (g * 64)) ⟨d.ackId, [], .done⟩ } }) ∧
  (∀ (st c ps b : Nat) (s : State), st < 12 → c < 32 → ps < 2 → b < 64 → let k := (st * 32 + c) * 128 + ps * 64 + b
    (∃ u, u = (match nfind s.smc.lastRefresh k with | some t => advance s (t + refreshNs s st) | none => s) ∧ s.nowNs ≤ u.nowNs ∧
      exec (.refresh st c ps b []) s = .next { u with smc := { u.smc with
        openRow := ndel u.smc.openRow k, lastRefresh := nput u.smc.lastRefresh k u.nowNs, owed := nset 0 u.smc.owed k 0 } } ∧
      (∀ reqs r, r ∈ reqs → posPresents r.pos = true → bankKey ((st * 32 + c) * chanBytes + r.z % chanBytes) = k →
        2 ≤ urgency r.ageNs (posTarget s r.pos) → ngetD 0 s.smc.owed k < min 8 (getF s Reg.smcCtl_postpone_max st) →
        exec (.refresh st c ps b reqs) s = .next (telEvent { u with smc := { u.smc with
          lastRefresh := nput u.smc.lastRefresh k u.nowNs, owed := nset 0 u.smc.owed k (ngetD 0 s.smc.owed k + 1) } } 0x15 st 1))) ∧
    (∀ r, nfind s.smc.openRow k = some r → exec (.openMaxExpiry st c ps b) s =
      .next { advance s (r.2 + 10 * max 1 (getF s Reg.smcCtl_open_max st)) with smc := { s.smc with openRow := ndel s.smc.openRow k } })) ∧
  (∀ (st c temp : Nat) (ok : Bool) (s : State), st < 12 → c < 32 →
    let u := setF s Reg.smcTemp_temp temp st
    let due := ngetD u.dev.t0 u.smc.trainAt (st * 32 + c) + clamp 10 1000 (getF u Reg.smcTrain_period_ms st) * 1000000
    ((tempMoved u st c = true ∨ ngetD 0 u.smc.trainFails (st * 32 + c) ≠ 0) → exec (.channelRetrain st c temp ok) s = .next (retrainChannel u st c ok)) ∧
    (tempMoved u st c = false → ngetD 0 u.smc.trainFails (st * 32 + c) = 0 →
      exec (.channelRetrain st c temp ok) s = .next (retrainChannel (advance u due) st c ok)) ∧
    ∀ failed, exec (.smcRetrainNow st failed) s = .next (setB ((List.range 32).foldl (fun s c => retrainChannel s st c (!bitOf failed c))
      (setB s Reg.smcTrain_retrain_now true st)) Reg.smcTrain_retrain_now false st)) ∧
  (∀ s : State, getB s Reg.smcLock_locked = false → ∃ t, exec .smcLock s = .next t ∧ getB t Reg.smcLock_locked = true ∧
    getF t Reg.smcRsv_frames = clamp 96 4096 (getF s Reg.smcRsv_frames) ∧ t = { s with regs := t.regs }) ∧
  (∀ s : State, getB s Reg.smcLock_locked = true → getB s Reg.smcLock_zmap_ready = false →
    exec .zmapReady s = .next (resumeHeld (setB (zeroMemory s) Reg.smcLock_zmap_ready true) (fun w => w == .zmap))) ∧
  (∀ s : State, exec .smcCommit s = .next (commitTable s Reg.tableSmc) ∧ exec .xbarCommit s = .next (commitXbar s))

/-- STACK_NO_RESPONSE of a stack not FAILED makes it FAILED and its memory lost, or its member FAILED in protected mode. UE_LIMIT_EXCEEDED
beyond the limit, where retirement is enabled, and PAR_RETIRE of a member with no rebuild running, declare the member FAILED; PAR_RETIRE
shows 3 outside protected mode, 1 of no member, 2 while rebuilding. REBUILD_UNIT of a promoted rebuild settles the deltas of the next
codeword, rebuilds or loses it and advances. MISTRAL_READ once the zero map is ready writes the repairs of its channel and reads the
codeword of the repair queue, or else of the walk. ROW_REPAIR of a row that is due, with no spare, logs cause 5 and repairs nothing;
with one it copies the row, notes it and logs cause 4. -/
def Obligations.RasCommandsTakeTheirEffect : Prop :=
  (∀ (st : Nat) (s : State), st < 12 →
    (s.mem.prot = true → exec (.stackNoResponse st) s = .next (declareFailed s st)) ∧
    (s.mem.prot = false → getF s Reg.smcStatus_state st ≠ 2 → exec (.stackNoResponse st) s =
      .next (stackGone (logRasStack (setF s Reg.smcStatus_state 2 st) 7 st) st (List.range 32))) ∧
    (getB s Reg.parCtl_ue_retire_en = true → max 1 (getF s Reg.rasCtl_ue_limit) < (ngetD (0, 0) s.ras.ueWindow st).2 →
      exec (.ueLimitExceeded st) s = .next (declareFailed s st))) ∧
  (∀ (st : Nat) (s : State), st < 16 → let u := setF s Reg.parCmd_stack st
    (s.mem.prot = false → exec (.parRetire st) s = .next (setF u Reg.parCmd_result 3)) ∧
    (s.mem.prot = true → (members u).contains st = false → exec (.parRetire st) s = .next (setF u Reg.parCmd_result 1)) ∧
    (s.mem.prot = true → (members u).contains st = true → rebuilding u = true → exec (.parRetire st) s = .next (setF u Reg.parCmd_result 2)) ∧
    (s.mem.prot = true → (members u).contains st = true → rebuilding u = false →
      exec (.parRetire st) s = .next (declareFailed (setF u Reg.parCmd_result 0) st))) ∧
  (∀ (st c : Nat) (s : State), c < 32 → s.ras.failedMember = some st → s.ras.promoted = true → rebuilding s = true → rebuildPtr s c < chanBytes →
    let p := (st * 32 + c) * chanBytes + rebuildPtr s c
    let u := settleDeltas s p
    let v := if canReconstruct u p then putMeta (bump u Reg.parRecon_count) (p / 64) { metaAt u (p / 64) with errs := [] }
      else logRas (poisonInPlace (bump u Reg.parUnrecov_count) (p / 64)) 0x0C p
    let w0 := { v with ras := { v.ras with rebuilt := nput v.ras.rebuilt c (rebuildPtr s c + 64) } }
    let w := setF w0 Reg.parRebuild_frames_done (framesDone w0)
    (List.range 32).all (fun k => decide (chanBytes ≤ rebuildPtr w k)) = false → exec (.rebuildUnit c) s = .next w) ∧
  (∀ (st c g : Nat) (rest : List Nat) (errs : SymErr) (s : State), st < 12 → c < 32 → let u := writeRepairs (attribOwn s 6) (st * 32 + c)
    getB (attribOwn s 6) Reg.smcLock_zmap_ready = true →
    (ngetD [] u.ras.repairQ st = g :: rest → exec (.mistralRead st c errs) s =
      .next (mistralCodeword { u with ras := { u.ras with repairQ := nset [] u.ras.repairQ st rest } } (g * 64) errs)) ∧
    (ngetD [] u.ras.repairQ st = [] → getB u Reg.mslCtl_bg_en = true → chanOnline u st c = true → let z := ngetD 0 u.ras.walk (st * 32 + c)
      z < chanBytes → let v := mistralCodeword u ((st * 32 + c) * chanBytes + z) errs
      exec (.mistralRead st c errs) s = .next (endPass { v with ras := { v.ras with walk := nput v.ras.walk (st * 32 + c) (z + 64) } } st))) ∧
  (∀ (st c ps b row : Nat) (s : State), st < 12 → c < 32 → ps < 2 → b < 64 → row < 24576 → let gs := rowGrans (st * 32 + c) ps b row
    let p := gs.headD 0 * 64
    gs.any (fun g => (metaAt s g).poison || rsDecode (metaAt s g).errs == .uncorrectable) = true → getB s Reg.rasCtl_repair_en = true →
    isLost s p = false → isFailedAt s p = false →
    exec (.rowRepair st c ps b row false) s = .next (logRas s 5 p) ∧
    (s.ras.repairList.length < 1024 → let u := gs.foldl copyCodeword s
      rowLog u p = none → exec (.rowRepair st c ps b row true) s =
        .next (logRas { u with ras := { u.ras with repairList := u.ras.repairList ++ [bankKey p * 32768 + row] } } 4 p)))

/-- ERASE_RANGE of a range outside what it may name shows 3, of a tenant not removed 2, with no room 1, else it is accepted with result 0
and its erase begins; ERASE_COMPLETE zeroes the ells of the erase and posts its record. TRNG_HEALTH_FAIL makes random numbers
unavailable and logs cause 1, TRNG_HEALTH_PASS after start makes them available. IDENTITY_READY after start makes the identity ready.
DEBUG_GRANT is refused and logged on a locked part, and on an open one with random numbers when the answer is not signed or a
confidential tenant exists; else it is granted. The SPDM requests are answered with the version, the capabilities, the algorithms, and
without an identity GET_MEASUREMENTS with BUSY. -/
def Obligations.SecurityCommandsTakeTheirEffect : Prop :=
  (∀ (t tag off n : Nat) (pl : Place) (s : State), t < 4096 → off < 2 ^ 42 → n < 2 ^ 32 →
    let u : Nat → State := fun res => kcmd (setF (setF s Reg.secKcmdArg0_offset off) Reg.secKcmdArg1_ells n) t (getF s Reg.secKcmd_port) tag res
    let bad := off % ellBytes ≠ 0 ∨ n = 0 ∨ rsvBase s < off + n * ellBytes
    (bad → exec (.eraseRange t tag off n pl) s = .next (u 3)) ∧
    (¬ bad → removed s t = false → exec (.eraseRange t tag off n pl) s = .next (u 2)) ∧
    (¬ bad → removed s t = true → sccqRoom s = false → exec (.eraseRange t tag off n pl) s = .next (u 1)) ∧
    (¬ bad → removed s t = true → sccqRoom s = true → exec (.eraseRange t tag off n pl) s =
      .next { u 0 with sec := { s.sec with erases := s.sec.erases ++ [⟨tag % 2 ^ 24, off, n, pl⟩], cmds := s.sec.cmds + 1 } })) ∧
  (∀ (tag : Nat) (e : Erase) (s : State), s.sec.erases.find? (fun e => e.tag == tag) = some e →
    let u := (List.range e.ells).foldl (fun s i => eraseEll s e.place (e.offset / ellBytes + i)) s
    exec (.eraseComplete tag) s =
      .next (secDone { u with sec := { u.sec with erases := u.sec.erases.erase e, cmds := u.sec.cmds - 1 } } 1 e.tag (e.ells * ellBytes))) ∧
  (∀ s : State, exec .trngHealthFail s = .next (secView (logSec (setB s Reg.secStatus_trng_ok false) 1 none none)) ∧
    (getF s Reg.secStatus_rot_state ≠ 0 → exec .identityReady s = .next (setB s Reg.secStatus_identity_ready true) ∧
      ((∀ p, p < 12 → (portAt (secView (setB s Reg.secStatus_trng_ok true)) p).cfgWait = none) →
        exec .trngHealthPass s = .next (secView (setB s Reg.secStatus_trng_ok true))))) ∧
  (∀ (signed : Bool) (s : State),
    (s.fuse.lock = true → exec (.debugGrant signed) s = .next (logSec s 4 none none)) ∧
    (s.fuse.lock = false → getB s Reg.secStatus_trng_ok = true → (signed = false ∨ anyConfidential s = true) →
      exec (.debugGrant signed) s = .next (logSec s 4 none none)) ∧
    (s.fuse.lock = false → getB s Reg.secStatus_trng_ok = true → anyConfidential s = false →
      exec (.debugGrant true) s = .next (secView (setB s Reg.secStatus_debug_granted true)))) ∧
  (∀ s : State, doeOpen s = true → exec .spdmGetVersion s = .next (emit s (.spdmVersion 0x12)) ∧
    exec .spdmGetCapabilities s = .next (emit s (.spdmCapabilities true false)) ∧
    exec .spdmNegotiateAlgorithms s = .next (emit s (.spdmAlgorithms 384)) ∧
    (∀ b nonce f, getB s Reg.secStatus_identity_ready = false → exec (.spdmGetMeasurements b nonce f) s = .next (emit s .spdmBusy)) ∧
    (∀ nonce f, getB s Reg.secStatus_identity_ready = true → exec (.spdmGetMeasurements 1 nonce f) s =
      .next (emit s (.spdmMeasurements [(1, fixLen 48 (Config.sha3 (rotImage s)))]))))

/-- CFG_FEAT_COMMIT takes what the host has enabled and, in phase 4 with features that can be accepted, makes them committed with result 1,
with others shows 2; before the phase it shows 3; once committed it changes no feature. CFG_RPT_READ while BAR2 answers gives the
addressed word of the report and advances the address. DEVICE_RESET and THERMTRIP put the device into its reset state, keeping what a
reset keeps: the fuses, the flash, the repair list and the records of the SEC keys; THERMTRIP leaves the trip and the alert raised.
DEVICE_START from phase 0 with no trip and no sensor below 0 degrees starts the device; with one below it stops. -/
def Obligations.ConfigurationAndStartTakeTheirEffect : Prop :=
  ∀ s : State,
    (∀ host, let v := setHostCfg s host
      (getB s Reg.cfgStatus_committed = true → exec (.cfgFeatCommit host) s = .next v) ∧
      (getB s Reg.cfgStatus_committed = false → getF s Reg.cfgStatus_phase ≠ 4 →
        exec (.cfgFeatCommit host) s = .next (setF v Reg.cfgFeatCtl_result 3)) ∧
      (getB s Reg.cfgStatus_committed = false → getF s Reg.cfgStatus_phase = 4 →
        (acceptOk v = false → exec (.cfgFeatCommit host) s = .next (setF (showOffer v) Reg.cfgFeatCtl_result 2)) ∧
        (acceptOk v = true → let u := setB (setF (showOffer v) Reg.cfgFeatCtl_result 1) Reg.cfgStatus_committed true
          exec (.cfgFeatCommit host) s = .next (if feature u 2 then requireEnc u else u)))) ∧
    (bar2Open s 0 = true → exec .cfgRptRead s = .next (emit (setF s Reg.cfgRptAddr_word (getF s Reg.cfgRptAddr_word + 1))
      (.readData 0x100088 (reportWord s (getF s Reg.cfgRptAddr_word))))) ∧
    (∃ t, exec .deviceReset s = .next t ∧ t.regs = State.reset.regs ∧ t.mem = State.reset.mem ∧ t.qmg = State.reset.qmg ∧ t.nie = State.reset.nie ∧
      t.fuse = s.fuse ∧ t.cfg.flash = s.cfg.flash ∧ t.ras.repairList = s.ras.repairList ∧ t.sec.recA = s.sec.recA ∧ t.sec.recB = s.sec.recB ∧
      exec .thermtrip s = .next { t with pwr := { t.pwr with trip := true, alert := true } }) ∧
    (∀ env : StartEnv, getF s Reg.cfgStatus_phase = 0 → s.pwr.trip = false →
      (env.cold = false → exec (.deviceStart env) s = .next (startUp env s)) ∧
      (env.cold = true → exec (.deviceStart env) s = .fault .startBelowZero)) ∧
    (∀ env : StartEnv, getF s Reg.cfgStatus_phase ≠ 0 ∨ s.pwr.trip = true → exec (.deviceStart env) s = .next s)

/-- CLAIM_RAISE and CLAIM_DROP of a pair that runs set its present bit and settle the claims. HEARTBEAT of a core of a running pair marks
it. WATCHDOG_EXPIRY of a claiming pair whose cores both beat starts the next period and changes nothing else; else it boots the pair
with cause 7. A periodic self diagnosis that fails boots the winner; one that passes changes nothing. STANDBY_TAKEOVER of a standby pair
with no winner takes over where its diagnosis passes. PAIR_BOOT_DONE makes a booting pair STANDBY with no failures counted and raises
its claim where it is the higher, or counts its failure and boots it again, up to the eighth. MGT_PAIR_RESET by the winner boots the
other pair. DOLDRUMS_ALERT raises the alert that is due. -/
def Obligations.ClaimsAndPairsTakeTheirEffect : Prop :=
  ∀ (b : Bool) (s : State),
    (pairRuns s b = true → exec (.claimRaise b none) s = .next (settleClaims (setPresent s b true)) ∧
      exec (.claimDrop b none) s = .next (settleClaims (setPresent s b false))) ∧
    (∀ core, core < 4 → pairRuns s (decide (2 ≤ core)) = true →
      exec (.heartbeat core) s = .next { s with pwr := { s.pwr with hb := putBits s.pwr.hb core 1 1 } }) ∧
    (claimOf s b ≠ 0 → let lo := if b then 2 else 0
      let u := { s with pwr := { s.pwr with hb := putBits s.pwr.hb lo 2 0 } }
      exec (.watchdogExpiry b) s = .next (if bitsOf s.pwr.hb lo 2 = 3 then u
        else startBoot (logMgt (setDiag (settleClaims (setPresent u b false)) b 7) 2 (b2n b) 7) b)) ∧
    (winner s = some b → exec (.selfDiagPeriodic 0) s = .next s ∧
      ∀ cause, cause % 256 ≠ 0 → exec (.selfDiagPeriodic cause) s = .next (diagFail s b cause)) ∧
    (winner s = none → pairState s b = 3 → exec (.standbyTakeover b 0) s = .next (takeOver s b) ∧
      ∀ cause, cause % 256 ≠ 0 → exec (.standbyTakeover b cause) s = .next (diagFail s b cause)) ∧
    (pairState s b = 1 →
      (let v := updateDone (setFails s b 0) b
       let lvl := (if b then getF v Reg.pwrClaimCfg_level_b else getF v Reg.pwrClaimCfg_level_a) * 2 + b2n b
       let u := setPairState v b 3
       exec (.pairBootDone b 0) s = .next (if claimOf u (!b) < lvl then settleClaims (setPresent u b true) else u)) ∧
      (∀ cause, cause % 256 ≠ 0 → let n := min 8 (pairFails s b + 1)
        let u := logMgt (setFails (setDiag s b cause) b n) 1 (b2n b) cause
        exec (.pairBootDone b cause) s = .next (if n = 8 then logMgt (setPairState u b 5) 0x0A (b2n b) 0 else startBoot u b))) ∧
    (∀ staged, winner s = some (!b) → pdOn s (if b then 66 else 65) = true → ∃ u, u = (if b
        then setB (setB s Reg.mgtBCtl_reset true) Reg.mgtBCtl_boot_staged staged
        else setB (setB s Reg.mgtACtl_reset true) Reg.mgtACtl_boot_staged staged) ∧
      exec (.mgtPairReset b staged) s = .next (startBoot (setFails u b 0) b)) ∧
    (∀ t, s.pwr.dolSince = some t →
      exec .doldrumsAlert s = .next (alertView (advance s (t + max 1 (getF s Reg.pwrWdogCtl_alert_ms) * 1000000))))

/-- DVFS_TARGET and PD_SWITCH from the winning pair write the target or start the switch; from the other pair the gate counts and discards
them. DVFS_STEP_DONE makes the step's point current and begins the next step; an AVS timeout that fails abandons the step and holds the
point. POWER_LOOP and THERMAL_LOOP show the measured values and, where the loops run, act on them, else change nothing more.
FAST_CURRENT_LIMIT asks for one point slower, HW_THERMAL_THROTTLE for the slowest, until its release. PD_SWITCH_DONE turns the domain on
or off and logs it. -/
def Obligations.PowerLoopsAndDomainsTakeTheirEffect : Prop :=
  ∀ (b : Bool) (s : State),
    (winner s = some b → (∀ p, exec (.dvfsTarget b p) s = .next (writeTarget s p)) ∧
      ∀ d on, d < 128 → exec (.pdSwitch b d on) s = .next (pdSwitch s d on (askingSource s b d))) ∧
    (winner s ≠ some b → (∀ p, exec (.dvfsTarget b p) s = .next (gateWrite s b)) ∧ ∀ d on, exec (.pdSwitch b d on) s = .next (gateWrite s b)) ∧
    (∀ p, s.pwr.step = some p →
      (let u := setF s Reg.pwrDvfs_current p
       exec .dvfsStepDone s = .next (startStep { u with pwr := { u.pwr with step := none, hwPoint := if (winner u).isSome then u.pwr.hwPoint else 0 } })) ∧
      exec (.avsTimeout true) s = .next (startStep { s with pwr := { s.pwr with step := none, avsHold := some (getF s Reg.pwrDvfs_current) } }) ∧
      exec (.avsTimeout false) s = .next s) ∧
    (∀ power icc, power < 2 ^ Reg.pwrPkg_power.width → let u := setF (setF s Reg.pwrPkg_power power) Reg.pwrPkg_icc icc
      exec (.powerLoop power icc) s = .next (if loopsRun u then powerLoop u power else u)) ∧
    (∀ temp east, temp < 2 ^ Reg.pwrTemp_temp.width → let u := setB (setF s Reg.pwrTemp_temp temp) Reg.pwrTemp_die east
      exec (.thermalLoop temp east) s = .next (if loopsRun u then thermalLoop u temp else u)) ∧
    exec .fastCurrentLimit s = .next (startStep { s with pwr := { s.pwr with hwPoint := min 5 (s.pwr.step.getD (getF s Reg.pwrDvfs_current) + 1) } }) ∧
    exec .hwThermalThrottle s = .next (startStep { s with pwr := { s.pwr with thermalHold := true } }) ∧
    exec .hwThermalThrottleRelease s = .next (startStep { s with pwr := { s.pwr with thermalHold := false } }) ∧
    (∀ d on, s.pwr.pd = some (d, on) → let u := setB { s with pwr := { s.pwr with pd := none } } Reg.pwrPdCmd_busy false
      exec .pdSwitchDone s = .next (logMgt (if pdOn u d = on then u else if on then domainOn u d else domainOff u d) 9 d 0))

/-- TEL_COMMIT brings the pending selections into force. TEL_CNT_CLEAR of a counter makes its value and overflow mark 0 and changes no other
counter. TEL_DUMP_ENABLE of a dump that is off turns it on with its pointers, sequence number and skip count 0; TEL_DUMP_PERIOD of one
that is on writes a record, or counts a skip while the last one is being written. TEL_SAMP_CTL_WRITE sets the enable, the rate clamped
to 4 to 24, the filter and the size, and zeroes the pointers as sampling turns on. -/
def Obligations.TelemetryCommandsTakeTheirEffect : Prop :=
  (∀ s : State, exec .telCommit s = .next (telCommit s)) ∧
  (∀ (n : Nat) (s : State), n < 4096 → ∃ t, exec (.telCntClear n) s = .next t ∧ getF t Reg.telCnt_value n = 0 ∧ getF t Reg.telCnt_overflow n = 0 ∧
    t = { s with regs := t.regs } ∧ ∀ m, m < 4096 → m ≠ n → getF t Reg.telCnt_value m = getF s Reg.telCnt_value m) ∧
  (∀ s : State, getB s Reg.telDumpCtl_en = false → ∃ t, exec .telDumpEnable s = .next t ∧ getB t Reg.telDumpCtl_en = true ∧
    ringCnt t ringDump = ⟨0, 0⟩ ∧ t.tel = { s.tel with seq := 0, skipped := 0 } ∧ t.mem = s.mem) ∧
  (∀ (busy : Bool) (s : State), getB s Reg.telDumpCtl_en = true →
    ((busy = true ∨ s.dma.mgts.any (·.dump) = true) →
      exec (.telDumpPeriod busy ()) s = .next { s with tel := { s.tel with skipped := (s.tel.skipped + 1) % 2 ^ 32 } }) ∧
    (busy = false → s.dma.mgts.any (·.dump) = false → exec (.telDumpPeriod busy ()) s = .next (dumpWrite s))) ∧
  (∀ (en : Bool) (k filter log2 : Nat) (s : State), k < 32 → ∃ t, exec (.telSampCtlWrite en k filter log2) s = .next t ∧
    getB t Reg.telSampCtl_en = en ∧ getF t Reg.telSampCtl_k = clamp 4 24 k ∧
    getF t Reg.telSampCtl_log2_entries = log2 % 2 ^ Reg.telSampCtl_log2_entries.width ∧
    (en = true → getB s Reg.telSampCtl_en = false → ringCnt t ringSamp = ⟨0, 0⟩) ∧ t.mem = s.mem ∧ t.tel = s.tel)

/-- A write of PF0 while BAR2 answers, to an offset inside it: with a size other than 4 or 8 bytes, or unaligned, it is recorded with cause
1 and writes nothing; of 4 aligned bytes it is one access of the low 32 bits of the value, of 8 one access of a 64-bit register or two
of 32-bit registers, the lower first. While BAR2 does not answer PF0 but the link is up, the write is answered as unsupported and noted
among PF0's PCIe errors. A running pair that holds the claim writes alike; one that does not, at an offset the gate keeps for the
winner, has the write counted and discarded, and a pair that does not run writes nothing. -/
def Obligations.RegisterWritesReachTheirRegister : Prop :=
  (∀ (env : RegEnv) (off size v : Nat) (s : State), bar2Open s 0 = true → off < 2 ^ 28 →
    (¬ (size = 4 ∨ size = 8) ∨ off % size ≠ 0 → exec (.registerWrite .pf0 env off size v) s = .next (noteAccess s .pf0 1 off)) ∧
    (size = 4 → off % 4 = 0 → exec (.registerWrite .pf0 env off size v) s = .next (writeOne s .pf0 env off 4 (v % 2 ^ 32))) ∧
    (∀ r n, size = 8 → off % 8 = 0 → regAt off = some (r, n) → r.width = 64 →
      exec (.registerWrite .pf0 env off size v) s = .next (writeOne s .pf0 env off 8 (v % 2 ^ 64))) ∧
    (∀ r n, size = 8 → off % 8 = 0 → regAt off = some (r, n) → r.width ≠ 64 → exec (.registerWrite .pf0 env off size v) s =
      .next (writeOne (writeOne s .pf0 env off 4 (v % 2 ^ 32)) .pf0 env (off + 4) 4 (v / 2 ^ 32 % 2 ^ 32)))) ∧
  (∀ (env : RegEnv) (off size v : Nat) (s : State), bar2Open s 0 = false → s.hif.linkUp = true → 0 ∉ s.hif.d3 →
    exec (.registerWrite .pf0 env off size v) s = .next (emit (aerNote s 0 .unsupportedRequest) (.unsupported off))) ∧
  (∀ (b : Bool) (env : RegEnv) (off size v : Nat) (s : State), off < 2 ^ 28 → let src := if b then Src.pairB else Src.pairA
    (pairRuns s b = false → exec (.registerWrite src env off size v) s = .next s) ∧
    (pairRuns s b = true → winner s = some b → size = 4 → off % 4 = 0 →
      exec (.registerWrite src env off size v) s = .next (writeOne s src env off 4 (v % 2 ^ 32))) ∧
    (pairRuns s b = true → winner s ≠ some b → passesGate b off = false → exec (.registerWrite src env off size v) s = .next (gateWrite s b)))

/-- For one copy of a register field and every value v of its width: a write to an RO or WO field changes nothing here; RW stores the value,
clamped where the field has a range; RWC leaves the value in force and holds the value pending; W1C is cleared by a write of ones in all
its bits and unchanged by any other; W1S takes the ones of v. RW fields that are ring head pointers are left out: their write moves the
read count. Every field at another bit address reads as before, and nothing but registers and pending values changes. -/
def Obligations.FieldsAreWrittenByTheirType : Prop :=
  ∀ (s : State) (f : Fld) (n v : Nat), v < 2 ^ f.width →
    writeFld s .ro f n v = s ∧ writeFld s .wo f n v = s ∧
    (headRing f = none → getF (writeFld s .rw f n v) f n = clampFld f v % 2 ^ f.width) ∧
    getF (writeFld s .rwc f n v) f n = getF s f n ∧ nfind (writeFld s .rwc f n v).shadow (fldKey f n) = some (clampFld f v % 2 ^ f.width) ∧
    (v = 2 ^ f.width - 1 → getF (writeFld s .w1c f n v) f n = 0) ∧ (v ≠ 2 ^ f.width - 1 → writeFld s .w1c f n v = s) ∧
    getF (writeFld s .w1s f n v) f n = Nat.lor (getF s f n) v % 2 ^ f.width ∧
    (∀ (t : FTy) (g : Fld) (m : Nat), headRing f = none → fldKey g m ≠ fldKey f n → getF (writeFld s t f n v) g m = getF s g m) ∧
    (∀ t : FTy, headRing f = none →
      writeFld s t f n v = { s with regs := (writeFld s t f n v).regs, shadow := (writeFld s t f n v).shadow })

/-- A commit of a block's table with no pending value leaves the state as it was. In a well-formed state, every pending value of a field of
the table is in force after the commit and no longer pending, and every field with no pending value in the table reads as before. -/
def Obligations.CommitsApplyWhatIsPending : Prop :=
  ∀ (s : State) (tbl : List RegDesc), (s.shadow = [] → commitTable s tbl = s) ∧
    (NMap.sorted s.shadow → (∀ (f : Fld) (n v : Nat), rwcAt tbl (fldKey f n) = some (f, n) → nfind s.shadow (fldKey f n) = some v →
        getF (commitTable s tbl) f n = v % 2 ^ f.width ∧ nfind (commitTable s tbl).shadow (fldKey f n) = none) ∧
      (∀ (f : Fld) (n : Nat), nfind s.shadow (fldKey f n) = none → getF (commitTable s tbl) f n = getF s f n))

/-- The n-byte form of a number has n bytes, its byte at offset i holds bits 8i to 8i+7 of the number, and the number it reads back as is
the number modulo 2 to the power 8n; conversely every byte list reads as a number below that bound whose byte form is the list again. -/
def Obligations.BytesAreLittleEndian : Prop :=
  (∀ n v : Nat, (natToLe n v).length = n ∧ leToNat (natToLe n v) = v % 2 ^ (8 * n) ∧
    ∀ i, i < n → (natToLe n v)[i]? = some (BitVec.ofNat 8 (v / 2 ^ (8 * i)))) ∧
  (∀ bs : List Byte, leToNat bs < 2 ^ (8 * bs.length) ∧ natToLe bs.length (leToNat bs) = bs)

/-- The guard of the nine ASCII bytes 123456789 is 0xD0DB, of 64 zero bytes 0, of the single byte 1 the polynomial 0x8BB7; appending a byte
folds that byte into the guard of what came before. -/
def Obligations.GuardsHaveTheCheckValues : Prop :=
  crc16 [0x31, 0x32, 0x33, 0x34, 0x35, 0x36, 0x37, 0x38, 0x39] = 0xD0DB ∧ crc16 (List.replicate 64 0) = 0 ∧ crc16 [1] = 0x8BB7 ∧
  (∀ (bs : List Byte) (b : Byte), crc16 (bs ++ [b]) = crc16Byte (crc16 bs) b)

/-- Writing a list of bytes at a physical address makes each of those addresses read as its byte and leaves every byte outside the range as
it was, keeps the memory's canonical form, and changes nothing of the state but pool memory. -/
def Obligations.PoolBytesReadBack : Prop :=
  ∀ (s : State) (p : Nat) (bs : List Byte), (∀ i b, bs[i]? = some b → byteAt (putBytes s p bs) (p + i) = b) ∧
    (∀ q, (q < p ∨ p + bs.length ≤ q) → byteAt (putBytes s p bs) q = byteAt s q) ∧
    (Memory.wf s.mem = true → Memory.wf (putBytes s p bs).mem = true) ∧
    putBytes s p bs = { s with mem := (putBytes s p bs).mem }

/-- With any request at a position of the instance a decision serves one of the requesting positions; in a decision that is not a reserved
grant no requester outranks a winner's, and the pointer moves past the winner; a reserved grant leaves the pointer. With no request
nothing is served and the grant count stands. -/
def Obligations.ArbitersPickARequester : Prop :=
  ∀ (r n : Nat) (a : ArbState) (reqs : List (Nat × Nat)), (∀ q ∈ reqs, q.1 < r) →
    (reqs = [] → arbPick r n a reqs = (none, { a with waits := [] })) ∧
    (reqs ≠ [] → ∃ w, (arbPick r n a reqs).1 = some w ∧ w ∈ reqs.map (fun q => q.1) ∧ (arbPick r n a reqs).2.cnt = (a.cnt + 1) % n ∧
      (a.cnt % n ≠ n - 1 → (∃ k, (w, k) ∈ reqs ∧ ∀ q ∈ reqs, q.2 ≤ k) ∧ (arbPick r n a reqs).2.ptr = (w + 1) % r) ∧
      (a.cnt % n = n - 1 → (arbPick r n a reqs).2.ptr = a.ptr))

/-- The NaN that is written is 0x7FC00000 in FP32, 0x7FC0 in BF16, 0x7E00 in FP16, 0x7F in E4M3 and 0x7E in E5M2. In FP32, BF16, FP16 and
E5M2 every encoding with an exponent of all ones and a mantissa that is not zero decodes as NaN, in E4M3 every one with all ones but the
sign. Every other E4M3 or E5M2 encoding decodes to a value that encodes to it again. -/
def Obligations.NaNsAreCanonical : Prop :=
  fpBits ffFp32 .nan = 0x7FC00000 ∧ fpBits ffBf16 .nan = 0x7FC0 ∧ fpBits ffFp16 .nan = 0x7E00 ∧ fpBits ffE4m3 .nan = 0x7F ∧
  fpBits ffE5m2 .nan = 0x7E ∧
  (∀ f ∈ [ffFp32, ffBf16, ffFp16, ffE5m2], ∀ b, bitsOf b f.mbits f.ebits = 2 ^ f.ebits - 1 → bitsOf b 0 f.mbits ≠ 0 → fpDecode f b = .nan) ∧
  (∀ b, b % 128 = 127 → fpDecode ffE4m3 b = .nan) ∧
  (∀ b, b < 256 → (b % 128 ≠ 127 → fpDecode ffE4m3 b ≠ .nan ∧ fpBits ffE4m3 (fpDecode ffE4m3 b) = b) ∧
    (b % 128 ≤ 0x7C → fpDecode ffE5m2 b ≠ .nan ∧ fpBits ffE5m2 (fpDecode ffE5m2 b) = b))

/-- For every row of the field table that is a plain range, and every value: the checked value lies in the range; a value in the range is OK
and applied as written, one below takes the lower end and one above the upper end, both CLAMPED. For an enumerated row a value of its
list is OK and applied as written, another is DEFAULTED to the field's default. -/
def Obligations.FieldChecksStayInRange : Prop :=
  ∀ r ∈ fieldTable, ∀ inst v : Nat, r.id ≠ 0x11 → r.id ≠ 0x23 →
    (r.enumerated = false → r.lo ≤ (fieldCheck r inst v).2 ∧ (fieldCheck r inst v).2 ≤ r.hi ∧
      (r.lo ≤ v → v ≤ r.hi → fieldCheck r inst v = (0, v)) ∧ (v < r.lo → fieldCheck r inst v = (1, r.lo)) ∧
      (r.hi < v → fieldCheck r inst v = (1, r.hi))) ∧
    (r.enumerated = true → (v ≤ r.hi → fieldCheck r inst v = (0, v)) ∧
      (r.hi < v → r.id ≠ 0x13 → fieldCheck r inst v = (2, fieldDefault r.id inst)))

/-- In every state, in full capacity as in protected mode: two different local offsets of an extent without affinity, under one interleave
profile, never lie at the same byte of a stack's channel; under affinity to a stack the same holds for two offsets in the same pass over
the stack's frames. So a write through a layout never changes another byte of that layout. -/
def Obligations.LayoutsKeepBytesApart : Prop :=
  ∀ (s : State) (pl : Place) (a b p : Nat), locate s pl a = some p → locate s pl b = some p →
    (pl.affEn = true → a / ellBytes / framesOf s pl.affStack = b / ellBytes / framesOf s pl.affStack) → a = b

/-- In every state, whatever the placement attributes and the local offset of an extent's byte, it never lies at a place that reserved
memory lays out: the frames that layouts reach end below the frames that reserved memory takes on every stack. -/
def Obligations.ReservedMemoryIsApart : Prop :=
  ∀ (s : State) (pl : Place) (a b p : Nat), locate s pl a = some p → locateRsv s b ≠ some p

/-- For each command that the table of storesNothing names (links, routing tables, flows, jobs, buckets, commits, range and tenant
invalidations, mailbox requests that read or set a limit, telemetry settings and the like), every state and all operands: when it
answers a next state, pool memory is the same, every byte, codeword, zero-map bit and lost channel. -/
def Obligations.CommandsThatStoreNothingKeepThePool : Prop :=
  ∀ (c : Instr) (s t : State), storesNothing c = true → exec c s = .next t → SameMem s t ∧ ∀ p, byteAt t p = byteAt s p

/-- For each command of the link layer and the router that linkCommand names: when it answers a next state, only registers, rings with their
entries in pool memory and its error records, key material, the router's packets, the ports, the telemetry attribution, the clock and
the place of free values may differ; queues, translation, engines, DMA, the directory, open requests, the host interface, the mailbox,
firmware, fuses, power and management are as before. -/
def Obligations.LinkAndRouterCommandsKeepTheRest : Prop :=
  ∀ (c : Instr) (s t : State), linkCommand c = true → exec c s = .next t →
    t = { s with regs := t.regs, rings := t.rings, mem := t.mem, ras := t.ras, sec := t.sec, rtr := t.rtr, ports := t.ports, tel := t.tel,
                 nowNs := t.nowNs, free := t.free }

/-- For each queue command or doorbell that queueCommand names: when it answers a next state, only registers, rings, pool memory with its
error records, the queue manager, the telemetry attribution, the place of free values and the muted interrupts of the host interface may
differ; translation, engines, DMA, the directory, fabric requests, ports, keys, mailbox, firmware, fuses, power, management and the
clock are as before. -/
def Obligations.QueueCommandsKeepTheRest : Prop :=
  ∀ (c : Instr) (s t : State), queueCommand c = true → exec c s = .next t →
    t = { s with regs := t.regs, rings := t.rings, mem := t.mem, ras := t.ras, qmg := t.qmg, tel := t.tel, free := t.free,
                 hif := { s.hif with mute := t.hif.mute } }

/-- In the ordinary case each of these commands answers a next state with its own effect. DEVICE_RESET and THERMTRIP: the registers read
their reset values, the fuses and the queue stand. A warm DEVICE_START starts. CFG_FEAT_COMMIT in phase 4 of features that can be
accepted commits. CFG_RPT_READ advances its address. For a queue: READ_CTX; WRITE_CTX, ENABLE and CLEAR_PRED when DISABLED, the disables
when ENABLED, all with result 0. For an engine: a data completion counts, an idle DMA engine starts its channel's descriptor, a piece
with its tokens goes on, a flush read and an acknowledgement end, a suspended transfer resumes, a timed-out read fails its piece. A
waiting descriptor starts, a ready one dispatches, a tile goes from step 2 to 3, 3 to 5, and out; one with a leftover partial state
combines it. Engine fault, watchdog, spare activation, retirement, commit; a tenant's range and whole invalidation, table swap,
residence clear, miss, migration command, its end, its pop and its acknowledgement; a tenant is created, loaded, retired. -/
def Obligations.TheOrdinaryCaseCompletes : Prop :=
  ∀ s : State,
    ((∃ t, exec .deviceReset s = .next t ∧ t.regs = State.reset.regs ∧ t.fuse = s.fuse ∧ t.pending = s.pending) ∧
      (∃ t, exec .thermtrip s = .next t ∧ t.regs = State.reset.regs ∧ t.fuse = s.fuse ∧ t.pending = s.pending ∧ t.pwr.trip = true) ∧
      (∀ env : StartEnv, getF s Reg.cfgStatus_phase = 0 → s.pwr.trip = false → env.cold = false → exec (.deviceStart env) s = .next (startUp env s)) ∧
      (∀ host, getB s Reg.cfgStatus_committed = false → getF s Reg.cfgStatus_phase = 4 → acceptOk (setHostCfg s host) = true →
        let u := setB (setF (showOffer (setHostCfg s host)) Reg.cfgFeatCtl_result 1) Reg.cfgStatus_committed true
        exec (.cfgFeatCommit host) s = .next (if feature u 2 then requireEnc u else u)) ∧
      (bar2Open s 0 = true → ∃ t, exec .cfgRptRead s = .next t ∧
        getF t Reg.cfgRptAddr_word = (getF s Reg.cfgRptAddr_word + 1) % 2 ^ Reg.cfgRptAddr_word.width)) ∧
    (∀ q, q < 65536 → let c := ctxOf (noticeCtx s q) q
      (∃ t, exec (.readCtx q) s = .next t ∧ getF t Reg.qmgQcmd_result = 0) ∧
      (c.state = 0 → ctxOk (noticeCtx s q) q (stagedCtx (noticeCtx s q)) = true → ∃ t, exec (.writeCtx q) s = .next t ∧ getF t Reg.qmgQcmd_result = 0) ∧
      (c.state = 0 → ctxOk (noticeCtx s q) q c = true → tenantActive (noticeCtx s q) c.tenant = true →
        ∃ t, exec (.enable q) s = .next t ∧ getF t Reg.qmgQcmd_result = 0) ∧
      (c.state = 0 → exec (.clearPred q) s = .next (qcmdResult (clearPreds (noticeCtx s q) c) q 0)) ∧
      (c.state = 1 → exec (.disableDrain q) s = .next (qcmdResult (disabling (noticeCtx s q) q) q 0) ∧
        exec (.disableAbort q) s = .next (qcmdResult (abortQueue (noticeCtx s q) q) q 0))) ∧
    ((∀ tag q bytes env, s.dma.reads.find? (fun q => q.tag == tag) = some q → q.flush = false →
        exec (.hostCompletion tag (.data bytes false) env) s = .next (hostData s q bytes false env) ∧
        exec (.hostCompletionTimeout tag) s = .next (hostFail s q 2 .timeout)) ∧
      (∀ tag q, s.dma.reads.find? (fun q => q.tag == tag && q.flush) = some q → exec (.flushReadComplete tag) s = .next (flushDone s q)) ∧
      (∀ e c, e < 32 → nfind s.dma.run e = none → nfind s.dma.run (32 + e) = none → sevenWaits s e = false →
        (∀ k, k < 7 → (ngetD [] s.dma.chans (e * 8 + k) ≠ [] ↔ k = c)) → c < 7 → ∃ a,
        exec (.dmaChannelSelect e) s = .next (chanRest (startChannel { s with dma := { s.dma with arbs := nput s.dma.arbs e a } } e c) e)) ∧
      (∀ e env r d, nfind s.dma.run e = some r → descOf s r.uid = some d → r.mig = none → r.suspended = false → r.fail = none → d.phase = .running →
        r.ahead < pieces d.raw → c2SrcHost d.raw = false → (pieceCharge s e r d (pieceOf d.raw r.ahead).2).1 = true →
        let u := modDesc (pieceCharge s e r d (pieceOf d.raw r.ahead).2).2 d.uid (fun x => { x with phase := .running })
        let x := pieceXlate (attrib u 4 4 d.tenant) e r.ch r.ahead d
        exec (.dmaPiece e env) s = .next (pieceGo x.2 e r d x.1 env)) ∧
      (∀ e r, nfind s.dma.run e = some r → r.suspended = true → s.xtu.held = [] → nfind s.dma.run (32 + e) = none →
        ∃ t, exec (.dmaSuspendResume e) s = .next t ∧ nfind t.dma.run e = some { r with suspended := false }) ∧
      (∀ uid reqId o, s.nie.outst.find? (fun o => o.uid == some uid && o.reqId == reqId && o.isWrite) = some o →
        exec (.writeAcknowledge uid reqId) s = .next (ackDone { s with nie := { s.nie with outst := s.nie.outst.erase o } } uid))) ∧
    ((∀ u rest, s.nme.rr = 0 → waitFirst s 0 = some u → rest = s.nme.waitQ.filter (fun x => x ≠ u) →
        exec .waitListService s = .next (startDesc { s with nme := { s.nme with waitQ := rest, rr := 1 } } u)) ∧
      (∀ uid env d, descOf s uid = some d → d.phase = .ready → (opOpen s d env).1 = true → ∃ t, exec (.tileDispatch uid env) s = .next t ∧
        t = (let p := openPhase (opOpen s d env).2 uid
             descCheck (sendBatches 256 (p.1.foldl (fun s t => chargeTile s uid t) p.2) uid) uid)) ∧
      (∀ uid tile env tr d, tileRec s uid tile = some tr → descOf s uid = some d →
        (tr.step = 2 → exec (.tileLoadData uid tile env) s = .next (loadStep s tr d env)) ∧
        (∀ n k bad, tr.step = 3 → exec (.tileComputeDone uid tile ⟨n, k, bad⟩ env) s = .next (slotRetry (computeStep s tr d n k bad env))) ∧
        (tr.step = 5 → tr.parts = [] → tr.engine < farEngine → exec (.tileRetire uid tile env) s = .next (slotRetry (retireStep s tr env))) ∧
        (∀ p rest, tr.parts = p :: rest → exec (.partialStateCombine uid tile env) s =
          .next (combinePart (modTile s uid tile (fun t => { t with parts := rest })) uid tr.engine tr.xl env p))) ∧
      (∀ e pos uid env tr d, let u := giveCtxs s e
        let cands := u.nme.ctxs.filter (fun c => c.1 / 16 == e && (nextOf u e c.2).isSome && !((descOf u c.2).map (·.stopping)).getD true)
        let r := arbPick 64 (arbN u Reg.xbarArbCtl_n_nme) (ngetD arb0 u.nme.arbs e) (cands.map (fun c => (c.1 % 16, rankOf u c.2)))
        let v := { u with nme := { u.nme with arbs := nput u.nme.arbs e r.2 } }
        engReady u e = true → r.1 = some pos → nfind u.nme.ctxs (e * 16 + pos) = some uid → nextOf v e uid = some tr → descOf v uid = some d →
        exec (.tileStart ⟨e, env⟩) s = .next (ctxRest (startTile v tr d env) e)) ∧
      (∀ e, e < 96 → getF s Reg.nmeStatus_state e = 0 → exec (.engineFault e) s = .next (faultEngine s e)) ∧
      (∀ uid tile tr d, tileRec s uid tile = some tr → descOf s uid = some d → tr.step = 3 →
        exec (.tileWatchdogExpiry uid tile) s = .next (faultEngine (advance s (tr.since + 1000000)) tr.engine)) ∧
      (∀ e slot, e < 96 → nfind s.nme.activating e = some slot → getB s Reg.secStatus_trng_ok = true → ∃ t, exec (.spareActivated e) s = .next t ∧
        t.nme = { s.nme with activating := ndel s.nme.activating e, seeded := ndel s.nme.seeded e }) ∧
      (∀ e env, e ≤ 95 → getB s Reg.nmeRetire_busy = false → getF s Reg.nmeStatus_state e ≠ 2 → let u := setF (setF s Reg.nmeRetire_engine e) Reg.nmeRetire_result 0
        exec (.nmeRetire ⟨e, env⟩) s = .next (ackInvals (engView (moveTiles (leaveSlot (finishPending (logNme u 3 e (slotOf u e) none 0) e env) e) e) e) e)) ∧
      exec .nmeCommit s = .next (commitTable s Reg.tableNme)) ∧
    ((∀ t tag addr count, t < 4096 → addr < 2 ^ 52 → 0 < count → count < 2 ^ 32 → addr / ellBytes + count ≤ 2 ^ 36 → tenantActive s t = true → xccqRoom s = true →
        let go : State → State := fun u => { u with xtu := { u.xtu with ccqResv := u.xtu.ccqResv + 1 } }
        exec (.invalidateRange t tag addr count) s = .next (startInval (go (rcmd s t tag addr count 0)) (tag % 2 ^ 24) t (addr / ellBytes) count) ∧
        exec (.invalidateTenant t tag) s = .next (startInval (go (rcmd s t tag (getF s Reg.xtuRcmdArg0_addr) (getF s Reg.xtuRcmdArg1_count) 0))
          (tag % 2 ^ 24) t 0 (2 ^ 36)) ∧
        (tableOk s addr count = true → exec (.tableSwap t tag addr count) s = .next (xtuDone (cacheDropTenant
          (setF (setF (go (rcmd s t tag addr count 0)) Reg.xtuTenant8_ext_table_ppa addr t) Reg.xtuTenant4_ext_capacity count t) t) 4 (tag % 2 ^ 24) Fin.ok)) ∧
        (addr / ellBytes + count ≤ 18874368 → exec (.resmapClear tag addr count) s = .next (xtuDone ((List.range count).foldl
          (fun u i => setResident u (addr / ellBytes + i) false) (go (rcmd s (getF s Reg.xtuRcmd_tenant) tag addr count 0))) 5 (tag % 2 ^ 24) Fin.ok))) ∧
      (∀ v rest n, s.xtu.invals = v :: rest →
        (v.toNotify.contains (.engine n) = true → exec (.leaseNotice v.epoch false n) s = .next (notice s v (.engine n))) ∧
        (v.toNotify.contains (.dma n) = true → exec (.leaseNotice v.epoch true n) s = .next (notice s v (.dma n)))) ∧
      (∀ t pva, t < 4096 → tenantActive s t = true → pva < 2 ^ 52 → s.xtu.cache.any (entHits t (pva / ellBytes)) = false →
        exec (.translationMiss t pva) s = .next (findRec s t (pva / ellBytes) pva).2) ∧
      (∀ i m, i < 4096 → nfind s.xtu.migEnts i = some m → exec (.xtuMigDone i 0) s = .next (resumeHeld (setResident
        { s with xtu := { s.xtu with migEnts := ndel s.xtu.migEnts i } } m.ell true) (waitsEll m.ell))) ∧
      (∀ ppa iova pasid index,
        let u := setF (setF (setF (setF s Reg.dmaMigCmd0_ppa ppa) Reg.dmaMigCmd1_iova iova) Reg.dmaMigCmd2_pasid pasid) Reg.dmaMigCmd2_index index
        let best := (List.range 16).foldl (fun b e => if migsOf u e < migsOf u b then e else b) 0
        getB u Reg.xtuCtl_mig_en = true → getF u Reg.dmaMigCmd0_ppa % ellBytes = 0 → getF u Reg.dmaMigCmd1_iova % ellBytes = 0 →
        ownerOf (getF u Reg.dmaMigCmd0_ppa) = s.dev.node → migsOf u best < 4 → ∃ t, exec (.dmaMigCmd ppa iova pasid index) s = .next t ∧
          t.dma.migs = s.dma.migs ++ [⟨best, getF u Reg.dmaMigCmd2_index, getF u Reg.dmaMigCmd0_ppa, getF u Reg.dmaMigCmd1_iova, getF u Reg.dmaMigCmd2_pasid⟩]) ∧
      (∀ e r m, nfind s.dma.run (32 + e) = some r → r.mig = some m → s.dma.results.length < 64 → r.fail = none → r.piece = migPieces →
        ∃ t, exec (.migrationDone e () ()) s = .next t ∧ t.dma.results = s.dma.results ++ [(m.index, 0)] ∧ t.dma.run = ndel s.dma.run (32 + e)) ∧
      (∃ t, exec .dmaMigPop s = .next t ∧ t.dma.results = s.dma.results.drop 1) ∧
      (getB s Reg.xtuCtl_mig_en = true → s.xtu.held = [] → ∃ t, exec .migEnClear s = .next t ∧ getB t Reg.xtuCtl_mig_en = false) ∧
      (∀ t, t < 4096 → getF s Reg.xtuTenant0_state t = 0 → getB s Reg.cfgStatus_committed = true → tableOk s (tableOf s t).1 (tableOf s t).2 = true →
        needsRandom s t false = false → ∃ u, exec (.tenantCreate t false false) s = .next u ∧ getF u Reg.xtuTenant0_state t = 1) ∧
      (∀ t, t < 4096 → getF s Reg.xtuTenant0_state t = 1 → ∃ u, exec (.tenantRetire t) s = .next u ∧ ∃ r ∈ u.sec.removals, r.tenant = t) ∧
      (∀ t, t < 4096 → s.sec.pendingLoad.contains t = true → needsRandom s t (getB s Reg.xtuTenant0_confidential t) = false →
        let u := loadSlot s t false
        exec (.keySlotLoaded t) s =
          .next (resumeHeld { u with sec := { u.sec with pendingLoad := u.sec.pendingLoad.filter (fun x => x ≠ t) } } (fun w => w == .key t))))
end

