-- ==== Sys2Proof/Laws/Maps.lean ====
section
/-!
SUPPORT. Laws/Maps.lean: reading and writing a map, and its canonical form.
-/
namespace Sys2Proof.Machine
open Sys2Proof

variable {β : Type}

@[simp] theorem nfind_nil (k : Nat) : nfind ([] : NMap β) k = none := rfl

/-- Reading the key just written. -/
@[simp] theorem nfind_nput_self (m : NMap β) (k : Nat) (v : β) : nfind (nput m k v) k = some v := by
  induction m with
  | nil => simp [nput, nfind]
  | cons e m ih =>
    obtain ⟨a, b⟩ := e
    unfold nput
    split
    · simp [nfind]
    · split
      · simp [nfind]
      · rename_i h1 h2
        have : a ≠ k := fun h => h2 h.symm
        simp [nfind, this, ih]

/-- Writing one key leaves every other key alone. -/
theorem nfind_nput_ne (m : NMap β) {j k : Nat} (v : β) (h : j ≠ k) : nfind (nput m k v) j = nfind m j := by
  induction m with
  | nil => simp [nput, nfind, Ne.symm h]
  | cons e m ih =>
    obtain ⟨a, b⟩ := e
    unfold nput
    split
    · simp [nfind, Ne.symm h]
    · split
      · rename_i h1 h2
        subst h2
        simp [nfind, Ne.symm h]
      · simp [nfind, ih]

/-- Every key of the rest of a sorted map is above its first. -/
theorem sorted_head {a : Nat} {b : β} {m : NMap β} (h : NMap.sorted ((a, b) :: m)) : ∀ p ∈ m, a < p.1 :=
  (List.pairwise_cons.mp h).1

/-- A key not above the first one is nowhere in the rest. -/
theorem nfind_none_of_lt {m : NMap β} {k : Nat} (h : ∀ p ∈ m, k < p.1) : nfind m k = none := by
  induction m with
  | nil => rfl
  | cons e m ih =>
    obtain ⟨a, b⟩ := e
    have h1 : k < a := h (a, b) (by simp)
    have h2 : a ≠ k := by omega
    simp only [nfind, h2, if_false]
    exact ih (fun p hp => h p (by simp [hp]))

/-- Deleting a key. -/
@[simp] theorem nfind_ndel_self (m : NMap β) (k : Nat) : nfind (ndel m k) k = none := by
  induction m with
  | nil => rfl
  | cons e m ih =>
    obtain ⟨a, b⟩ := e
    unfold ndel
    split
    · exact ih
    · rename_i h1
      simp [nfind, h1, ih]

/-- Deleting one key leaves every other key alone. -/
theorem nfind_ndel_ne (m : NMap β) {j k : Nat} (h : j ≠ k) : nfind (ndel m k) j = nfind m j := by
  induction m with
  | nil => rfl
  | cons e m ih =>
    obtain ⟨a, b⟩ := e
    unfold ndel
    split
    · rename_i h1
      subst h1
      simp [nfind, Ne.symm h, ih]
    · simp [nfind, ih]

/-- A key of a map after one key was written. -/
theorem mem_nput {m : NMap β} {k : Nat} {v : β} {p : Nat × β} (h : p ∈ nput m k v) : p = (k, v) ∨ p ∈ m := by
  induction m with
  | nil => simp [nput] at h; exact .inl h
  | cons e m ih =>
    obtain ⟨a, b⟩ := e
    unfold nput at h
    split at h
    · simp at h; rcases h with h | h | h <;> simp [h]
    · split at h
      · simp at h; rcases h with h | h <;> simp [h]
      · simp at h
        rcases h with h | h
        · simp [h]
        · rcases ih h with h | h <;> simp [h]

/-- Deleting takes nothing new in. -/
theorem mem_ndel {m : NMap β} {k : Nat} {p : Nat × β} (h : p ∈ ndel m k) : p ∈ m := by
  induction m with
  | nil => simp [ndel] at h
  | cons e m ih =>
    obtain ⟨a, b⟩ := e
    unfold ndel at h
    split at h
    · simp [ih h]
    · simp at h; rcases h with h | h
      · simp [h]
      · simp [ih h]

/-- Writing keeps the keys rising. -/
theorem sorted_nput {m : NMap β} (h : NMap.sorted m) (k : Nat) (v : β) : NMap.sorted (nput m k v) := by
  induction m with
  | nil => simp [nput, NMap.sorted]
  | cons e m ih =>
    obtain ⟨a, b⟩ := e
    have ha := sorted_head h
    have hm : NMap.sorted m := (List.pairwise_cons.mp h).2
    unfold nput
    split
    · rename_i h1
      refine List.pairwise_cons.mpr ⟨?_, h⟩
      intro p hp
      simp at hp
      rcases hp with hp | hp
      · subst hp; exact h1
      · have := ha p hp; show k < p.1; omega
    · split
      · rename_i h1 h2
        subst h2
        exact List.pairwise_cons.mpr ⟨ha, hm⟩
      · rename_i h1 h2
        refine List.pairwise_cons.mpr ⟨?_, ih hm⟩
        intro p hp
        rcases mem_nput hp with hp | hp
        · subst hp; show a < k; omega
        · exact ha p hp

/-- Deleting keeps the keys rising. -/
theorem sorted_ndel {m : NMap β} (h : NMap.sorted m) (k : Nat) : NMap.sorted (ndel m k) := by
  induction m with
  | nil => exact h
  | cons e m ih =>
    obtain ⟨a, b⟩ := e
    have hm : NMap.sorted m := (List.pairwise_cons.mp h).2
    unfold ndel
    split
    · exact ih hm
    · exact List.pairwise_cons.mpr ⟨fun p hp => sorted_head h p (mem_ndel hp), ih hm⟩

variable [DecidableEq β]

/-- Writing keeps the keys rising, listed or not. -/
theorem sorted_nset {m : NMap β} (h : NMap.sorted m) (d : β) (k : Nat) (v : β) : NMap.sorted (nset d m k v) := by
  unfold nset
  split
  · exact sorted_ndel h k
  · exact sorted_nput h k v

/-- Reading the key just set. -/
@[simp] theorem ngetD_nset_self (m : NMap β) (d : β) (k : Nat) (v : β) : ngetD d (nset d m k v) k = v := by
  unfold nset ngetD
  split
  · rename_i h1
    simp [h1]
  · simp

/-- Setting one key leaves every other key alone, whatever each reads as when unlisted. -/
theorem ngetD_nset_ne (m : NMap β) (d e : β) {j k : Nat} (v : β) (h : j ≠ k) : ngetD e (nset d m k v) j = ngetD e m j := by
  unfold nset ngetD
  split
  · rw [nfind_ndel_ne m h]
  · rw [nfind_nput_ne m v h]

/-- The canonical form says that keys rise and no listed value is the unlisted one. -/
theorem nwfBy_iff {d : Nat → β} {m : NMap β} : nwfBy d m = true ↔ NMap.sorted m ∧ ∀ p ∈ m, p.2 ≠ d p.1 := by
  induction m with
  | nil => simp [nwfBy, NMap.sorted]
  | cons e m ih =>
    obtain ⟨a, b⟩ := e
    simp only [nwfBy, Bool.and_eq_true, decide_eq_true_eq, List.all_eq_true, ih, NMap.sorted, List.pairwise_cons, List.mem_cons,
      forall_eq_or_imp]
    constructor
    · rintro ⟨⟨h1, h2⟩, h3, h4⟩; exact ⟨⟨h2, h3⟩, h1, h4⟩
    · rintro ⟨⟨h2, h3⟩, h1, h4⟩; exact ⟨⟨h1, h2⟩, h3, h4⟩

/-- The two canonical forms agree where the unlisted value is one. -/
theorem nwf_eq_nwfBy (d : β) (m : NMap β) : nwf d m = nwfBy (fun _ => d) m := by
  induction m with
  | nil => rfl
  | cons e m ih => obtain ⟨a, b⟩ := e; simp [nwf, nwfBy, ih]

/-- Setting a key keeps the canonical form. -/
theorem nwfBy_nset {d : Nat → β} {m : NMap β} (h : nwfBy d m = true) (k : Nat) (v : β) : nwfBy d (nset (d k) m k v) = true := by
  rw [nwfBy_iff] at h ⊢
  refine ⟨sorted_nset h.1 _ k v, ?_⟩
  intro p hp
  unfold nset at hp
  split at hp
  · exact h.2 p (mem_ndel hp)
  · rename_i hv
    rcases mem_nput hp with hp | hp
    · subst hp; exact hv
    · exact h.2 p hp

/-- Setting a key keeps the canonical form with one unlisted value. -/
theorem nwf_nset {d : β} {m : NMap β} (h : nwf d m = true) (k : Nat) (v : β) : nwf d (nset d m k v) = true := by
  rw [nwf_eq_nwfBy] at h ⊢
  exact nwfBy_nset h k v

/-- Taking entries away keeps the canonical form. -/
theorem nwfBy_filter {d : Nat → β} {m : NMap β} (h : nwfBy d m = true) (q : Nat × β → Bool) : nwfBy d (m.filter q) = true := by
  rw [nwfBy_iff] at h ⊢
  exact ⟨h.1.filter q, fun p hp => h.2 p (List.mem_filter.mp hp).1⟩

/-- Taking entries away keeps the canonical form with one unlisted value. -/
theorem nwf_filter {d : β} {m : NMap β} (h : nwf d m = true) (q : Nat × β → Bool) : nwf d (m.filter q) = true := by
  rw [nwf_eq_nwfBy] at h ⊢
  exact nwfBy_filter h q

end Sys2Proof.Machine
end

