-- ==== Sys2Proof/Laws/State.lean ====
section
/-!
SUPPORT. Laws/State.lean: what each named update of the state leaves alone, one lemma for each field, true by unfolding.
-/
namespace Sys2Proof.Machine
open Sys2Proof

@[simp] theorem setF_pending (s : State) (f : Fld) (v n : Nat) : (setF s f v n).pending = s.pending := rfl
@[simp] theorem setF_nowNs (s : State) (f : Fld) (v n : Nat) : (setF s f v n).nowNs = s.nowNs := rfl
@[simp] theorem setF_free (s : State) (f : Fld) (v n : Nat) : (setF s f v n).free = s.free := rfl
@[simp] theorem setF_shadow (s : State) (f : Fld) (v n : Nat) : (setF s f v n).shadow = s.shadow := rfl
@[simp] theorem setF_rings (s : State) (f : Fld) (v n : Nat) : (setF s f v n).rings = s.rings := rfl
@[simp] theorem setF_dev (s : State) (f : Fld) (v n : Nat) : (setF s f v n).dev = s.dev := rfl
@[simp] theorem setF_mem (s : State) (f : Fld) (v n : Nat) : (setF s f v n).mem = s.mem := rfl
@[simp] theorem setF_smc (s : State) (f : Fld) (v n : Nat) : (setF s f v n).smc = s.smc := rfl
@[simp] theorem setF_ras (s : State) (f : Fld) (v n : Nat) : (setF s f v n).ras = s.ras := rfl
@[simp] theorem setF_xtu (s : State) (f : Fld) (v n : Nat) : (setF s f v n).xtu = s.xtu := rfl
@[simp] theorem setF_qmg (s : State) (f : Fld) (v n : Nat) : (setF s f v n).qmg = s.qmg := rfl
@[simp] theorem setF_adm (s : State) (f : Fld) (v n : Nat) : (setF s f v n).adm = s.adm := rfl
@[simp] theorem setF_nme (s : State) (f : Fld) (v n : Nat) : (setF s f v n).nme = s.nme := rfl
@[simp] theorem setF_dma (s : State) (f : Fld) (v n : Nat) : (setF s f v n).dma = s.dma := rfl
@[simp] theorem setF_hif (s : State) (f : Fld) (v n : Nat) : (setF s f v n).hif = s.hif := rfl
@[simp] theorem setF_dir (s : State) (f : Fld) (v n : Nat) : (setF s f v n).dir = s.dir := rfl
@[simp] theorem setF_sec (s : State) (f : Fld) (v n : Nat) : (setF s f v n).sec = s.sec := rfl
@[simp] theorem setF_nie (s : State) (f : Fld) (v n : Nat) : (setF s f v n).nie = s.nie := rfl
@[simp] theorem setF_rtr (s : State) (f : Fld) (v n : Nat) : (setF s f v n).rtr = s.rtr := rfl
@[simp] theorem setF_ports (s : State) (f : Fld) (v n : Nat) : (setF s f v n).ports = s.ports := rfl
@[simp] theorem setF_mbx (s : State) (f : Fld) (v n : Nat) : (setF s f v n).mbx = s.mbx := rfl
@[simp] theorem setF_cfg (s : State) (f : Fld) (v n : Nat) : (setF s f v n).cfg = s.cfg := rfl
@[simp] theorem setF_fuse (s : State) (f : Fld) (v n : Nat) : (setF s f v n).fuse = s.fuse := rfl
@[simp] theorem setF_pwr (s : State) (f : Fld) (v n : Nat) : (setF s f v n).pwr = s.pwr := rfl
@[simp] theorem setF_mgt (s : State) (f : Fld) (v n : Nat) : (setF s f v n).mgt = s.mgt := rfl
@[simp] theorem setF_tel (s : State) (f : Fld) (v n : Nat) : (setF s f v n).tel = s.tel := rfl
@[simp] theorem setF_toHost (s : State) (f : Fld) (v n : Nat) : (setF s f v n).toHost = s.toHost := rfl

@[simp] theorem setB_pending (s : State) (f : Fld) (b : Bool) (n : Nat) : (setB s f b n).pending = s.pending := rfl
@[simp] theorem setB_nowNs (s : State) (f : Fld) (b : Bool) (n : Nat) : (setB s f b n).nowNs = s.nowNs := rfl
@[simp] theorem setB_free (s : State) (f : Fld) (b : Bool) (n : Nat) : (setB s f b n).free = s.free := rfl
@[simp] theorem setB_shadow (s : State) (f : Fld) (b : Bool) (n : Nat) : (setB s f b n).shadow = s.shadow := rfl
@[simp] theorem setB_rings (s : State) (f : Fld) (b : Bool) (n : Nat) : (setB s f b n).rings = s.rings := rfl
@[simp] theorem setB_dev (s : State) (f : Fld) (b : Bool) (n : Nat) : (setB s f b n).dev = s.dev := rfl
@[simp] theorem setB_mem (s : State) (f : Fld) (b : Bool) (n : Nat) : (setB s f b n).mem = s.mem := rfl
@[simp] theorem setB_smc (s : State) (f : Fld) (b : Bool) (n : Nat) : (setB s f b n).smc = s.smc := rfl
@[simp] theorem setB_ras (s : State) (f : Fld) (b : Bool) (n : Nat) : (setB s f b n).ras = s.ras := rfl
@[simp] theorem setB_xtu (s : State) (f : Fld) (b : Bool) (n : Nat) : (setB s f b n).xtu = s.xtu := rfl
@[simp] theorem setB_qmg (s : State) (f : Fld) (b : Bool) (n : Nat) : (setB s f b n).qmg = s.qmg := rfl
@[simp] theorem setB_adm (s : State) (f : Fld) (b : Bool) (n : Nat) : (setB s f b n).adm = s.adm := rfl
@[simp] theorem setB_nme (s : State) (f : Fld) (b : Bool) (n : Nat) : (setB s f b n).nme = s.nme := rfl
@[simp] theorem setB_dma (s : State) (f : Fld) (b : Bool) (n : Nat) : (setB s f b n).dma = s.dma := rfl
@[simp] theorem setB_hif (s : State) (f : Fld) (b : Bool) (n : Nat) : (setB s f b n).hif = s.hif := rfl
@[simp] theorem setB_dir (s : State) (f : Fld) (b : Bool) (n : Nat) : (setB s f b n).dir = s.dir := rfl
@[simp] theorem setB_sec (s : State) (f : Fld) (b : Bool) (n : Nat) : (setB s f b n).sec = s.sec := rfl
@[simp] theorem setB_nie (s : State) (f : Fld) (b : Bool) (n : Nat) : (setB s f b n).nie = s.nie := rfl
@[simp] theorem setB_rtr (s : State) (f : Fld) (b : Bool) (n : Nat) : (setB s f b n).rtr = s.rtr := rfl
@[simp] theorem setB_ports (s : State) (f : Fld) (b : Bool) (n : Nat) : (setB s f b n).ports = s.ports := rfl
@[simp] theorem setB_mbx (s : State) (f : Fld) (b : Bool) (n : Nat) : (setB s f b n).mbx = s.mbx := rfl
@[simp] theorem setB_cfg (s : State) (f : Fld) (b : Bool) (n : Nat) : (setB s f b n).cfg = s.cfg := rfl
@[simp] theorem setB_fuse (s : State) (f : Fld) (b : Bool) (n : Nat) : (setB s f b n).fuse = s.fuse := rfl
@[simp] theorem setB_pwr (s : State) (f : Fld) (b : Bool) (n : Nat) : (setB s f b n).pwr = s.pwr := rfl
@[simp] theorem setB_mgt (s : State) (f : Fld) (b : Bool) (n : Nat) : (setB s f b n).mgt = s.mgt := rfl
@[simp] theorem setB_tel (s : State) (f : Fld) (b : Bool) (n : Nat) : (setB s f b n).tel = s.tel := rfl
@[simp] theorem setB_toHost (s : State) (f : Fld) (b : Bool) (n : Nat) : (setB s f b n).toHost = s.toHost := rfl

@[simp] theorem setShadow_pending (s : State) (f : Fld) (v n : Nat) : (setShadow s f v n).pending = s.pending := rfl
@[simp] theorem setShadow_nowNs (s : State) (f : Fld) (v n : Nat) : (setShadow s f v n).nowNs = s.nowNs := rfl
@[simp] theorem setShadow_free (s : State) (f : Fld) (v n : Nat) : (setShadow s f v n).free = s.free := rfl
@[simp] theorem setShadow_regs (s : State) (f : Fld) (v n : Nat) : (setShadow s f v n).regs = s.regs := rfl
@[simp] theorem setShadow_rings (s : State) (f : Fld) (v n : Nat) : (setShadow s f v n).rings = s.rings := rfl
@[simp] theorem setShadow_dev (s : State) (f : Fld) (v n : Nat) : (setShadow s f v n).dev = s.dev := rfl
@[simp] theorem setShadow_mem (s : State) (f : Fld) (v n : Nat) : (setShadow s f v n).mem = s.mem := rfl
@[simp] theorem setShadow_smc (s : State) (f : Fld) (v n : Nat) : (setShadow s f v n).smc = s.smc := rfl
@[simp] theorem setShadow_ras (s : State) (f : Fld) (v n : Nat) : (setShadow s f v n).ras = s.ras := rfl
@[simp] theorem setShadow_xtu (s : State) (f : Fld) (v n : Nat) : (setShadow s f v n).xtu = s.xtu := rfl
@[simp] theorem setShadow_qmg (s : State) (f : Fld) (v n : Nat) : (setShadow s f v n).qmg = s.qmg := rfl
@[simp] theorem setShadow_adm (s : State) (f : Fld) (v n : Nat) : (setShadow s f v n).adm = s.adm := rfl
@[simp] theorem setShadow_nme (s : State) (f : Fld) (v n : Nat) : (setShadow s f v n).nme = s.nme := rfl
@[simp] theorem setShadow_dma (s : State) (f : Fld) (v n : Nat) : (setShadow s f v n).dma = s.dma := rfl
@[simp] theorem setShadow_hif (s : State) (f : Fld) (v n : Nat) : (setShadow s f v n).hif = s.hif := rfl
@[simp] theorem setShadow_dir (s : State) (f : Fld) (v n : Nat) : (setShadow s f v n).dir = s.dir := rfl
@[simp] theorem setShadow_sec (s : State) (f : Fld) (v n : Nat) : (setShadow s f v n).sec = s.sec := rfl
@[simp] theorem setShadow_nie (s : State) (f : Fld) (v n : Nat) : (setShadow s f v n).nie = s.nie := rfl
@[simp] theorem setShadow_rtr (s : State) (f : Fld) (v n : Nat) : (setShadow s f v n).rtr = s.rtr := rfl
@[simp] theorem setShadow_ports (s : State) (f : Fld) (v n : Nat) : (setShadow s f v n).ports = s.ports := rfl
@[simp] theorem setShadow_mbx (s : State) (f : Fld) (v n : Nat) : (setShadow s f v n).mbx = s.mbx := rfl
@[simp] theorem setShadow_cfg (s : State) (f : Fld) (v n : Nat) : (setShadow s f v n).cfg = s.cfg := rfl
@[simp] theorem setShadow_fuse (s : State) (f : Fld) (v n : Nat) : (setShadow s f v n).fuse = s.fuse := rfl
@[simp] theorem setShadow_pwr (s : State) (f : Fld) (v n : Nat) : (setShadow s f v n).pwr = s.pwr := rfl
@[simp] theorem setShadow_mgt (s : State) (f : Fld) (v n : Nat) : (setShadow s f v n).mgt = s.mgt := rfl
@[simp] theorem setShadow_tel (s : State) (f : Fld) (v n : Nat) : (setShadow s f v n).tel = s.tel := rfl
@[simp] theorem setShadow_toHost (s : State) (f : Fld) (v n : Nat) : (setShadow s f v n).toHost = s.toHost := rfl

@[simp] theorem setRing_pending (s : State) (r : Ring) (c : RingCnt) : (setRing s r c).pending = s.pending := rfl
@[simp] theorem setRing_nowNs (s : State) (r : Ring) (c : RingCnt) : (setRing s r c).nowNs = s.nowNs := rfl
@[simp] theorem setRing_free (s : State) (r : Ring) (c : RingCnt) : (setRing s r c).free = s.free := rfl
@[simp] theorem setRing_regs (s : State) (r : Ring) (c : RingCnt) : (setRing s r c).regs = s.regs := rfl
@[simp] theorem setRing_shadow (s : State) (r : Ring) (c : RingCnt) : (setRing s r c).shadow = s.shadow := rfl
@[simp] theorem setRing_dev (s : State) (r : Ring) (c : RingCnt) : (setRing s r c).dev = s.dev := rfl
@[simp] theorem setRing_mem (s : State) (r : Ring) (c : RingCnt) : (setRing s r c).mem = s.mem := rfl
@[simp] theorem setRing_smc (s : State) (r : Ring) (c : RingCnt) : (setRing s r c).smc = s.smc := rfl
@[simp] theorem setRing_ras (s : State) (r : Ring) (c : RingCnt) : (setRing s r c).ras = s.ras := rfl
@[simp] theorem setRing_xtu (s : State) (r : Ring) (c : RingCnt) : (setRing s r c).xtu = s.xtu := rfl
@[simp] theorem setRing_qmg (s : State) (r : Ring) (c : RingCnt) : (setRing s r c).qmg = s.qmg := rfl
@[simp] theorem setRing_adm (s : State) (r : Ring) (c : RingCnt) : (setRing s r c).adm = s.adm := rfl
@[simp] theorem setRing_nme (s : State) (r : Ring) (c : RingCnt) : (setRing s r c).nme = s.nme := rfl
@[simp] theorem setRing_dma (s : State) (r : Ring) (c : RingCnt) : (setRing s r c).dma = s.dma := rfl
@[simp] theorem setRing_hif (s : State) (r : Ring) (c : RingCnt) : (setRing s r c).hif = s.hif := rfl
@[simp] theorem setRing_dir (s : State) (r : Ring) (c : RingCnt) : (setRing s r c).dir = s.dir := rfl
@[simp] theorem setRing_sec (s : State) (r : Ring) (c : RingCnt) : (setRing s r c).sec = s.sec := rfl
@[simp] theorem setRing_nie (s : State) (r : Ring) (c : RingCnt) : (setRing s r c).nie = s.nie := rfl
@[simp] theorem setRing_rtr (s : State) (r : Ring) (c : RingCnt) : (setRing s r c).rtr = s.rtr := rfl
@[simp] theorem setRing_ports (s : State) (r : Ring) (c : RingCnt) : (setRing s r c).ports = s.ports := rfl
@[simp] theorem setRing_mbx (s : State) (r : Ring) (c : RingCnt) : (setRing s r c).mbx = s.mbx := rfl
@[simp] theorem setRing_cfg (s : State) (r : Ring) (c : RingCnt) : (setRing s r c).cfg = s.cfg := rfl
@[simp] theorem setRing_fuse (s : State) (r : Ring) (c : RingCnt) : (setRing s r c).fuse = s.fuse := rfl
@[simp] theorem setRing_pwr (s : State) (r : Ring) (c : RingCnt) : (setRing s r c).pwr = s.pwr := rfl
@[simp] theorem setRing_mgt (s : State) (r : Ring) (c : RingCnt) : (setRing s r c).mgt = s.mgt := rfl
@[simp] theorem setRing_tel (s : State) (r : Ring) (c : RingCnt) : (setRing s r c).tel = s.tel := rfl
@[simp] theorem setRing_toHost (s : State) (r : Ring) (c : RingCnt) : (setRing s r c).toHost = s.toHost := rfl

@[simp] theorem emit_pending (s : State) (m : HostMsg) : (emit s m).pending = s.pending := rfl
@[simp] theorem emit_nowNs (s : State) (m : HostMsg) : (emit s m).nowNs = s.nowNs := rfl
@[simp] theorem emit_free (s : State) (m : HostMsg) : (emit s m).free = s.free := rfl
@[simp] theorem emit_regs (s : State) (m : HostMsg) : (emit s m).regs = s.regs := rfl
@[simp] theorem emit_shadow (s : State) (m : HostMsg) : (emit s m).shadow = s.shadow := rfl
@[simp] theorem emit_rings (s : State) (m : HostMsg) : (emit s m).rings = s.rings := rfl
@[simp] theorem emit_dev (s : State) (m : HostMsg) : (emit s m).dev = s.dev := rfl
@[simp] theorem emit_mem (s : State) (m : HostMsg) : (emit s m).mem = s.mem := rfl
@[simp] theorem emit_smc (s : State) (m : HostMsg) : (emit s m).smc = s.smc := rfl
@[simp] theorem emit_ras (s : State) (m : HostMsg) : (emit s m).ras = s.ras := rfl
@[simp] theorem emit_xtu (s : State) (m : HostMsg) : (emit s m).xtu = s.xtu := rfl
@[simp] theorem emit_qmg (s : State) (m : HostMsg) : (emit s m).qmg = s.qmg := rfl
@[simp] theorem emit_adm (s : State) (m : HostMsg) : (emit s m).adm = s.adm := rfl
@[simp] theorem emit_nme (s : State) (m : HostMsg) : (emit s m).nme = s.nme := rfl
@[simp] theorem emit_dma (s : State) (m : HostMsg) : (emit s m).dma = s.dma := rfl
@[simp] theorem emit_hif (s : State) (m : HostMsg) : (emit s m).hif = s.hif := rfl
@[simp] theorem emit_dir (s : State) (m : HostMsg) : (emit s m).dir = s.dir := rfl
@[simp] theorem emit_sec (s : State) (m : HostMsg) : (emit s m).sec = s.sec := rfl
@[simp] theorem emit_nie (s : State) (m : HostMsg) : (emit s m).nie = s.nie := rfl
@[simp] theorem emit_rtr (s : State) (m : HostMsg) : (emit s m).rtr = s.rtr := rfl
@[simp] theorem emit_ports (s : State) (m : HostMsg) : (emit s m).ports = s.ports := rfl
@[simp] theorem emit_mbx (s : State) (m : HostMsg) : (emit s m).mbx = s.mbx := rfl
@[simp] theorem emit_cfg (s : State) (m : HostMsg) : (emit s m).cfg = s.cfg := rfl
@[simp] theorem emit_fuse (s : State) (m : HostMsg) : (emit s m).fuse = s.fuse := rfl
@[simp] theorem emit_pwr (s : State) (m : HostMsg) : (emit s m).pwr = s.pwr := rfl
@[simp] theorem emit_mgt (s : State) (m : HostMsg) : (emit s m).mgt = s.mgt := rfl
@[simp] theorem emit_tel (s : State) (m : HostMsg) : (emit s m).tel = s.tel := rfl

@[simp] theorem putByte_pending (s : State) (p : Nat) (b : Byte) : (putByte s p b).pending = s.pending := rfl
@[simp] theorem putByte_nowNs (s : State) (p : Nat) (b : Byte) : (putByte s p b).nowNs = s.nowNs := rfl
@[simp] theorem putByte_free (s : State) (p : Nat) (b : Byte) : (putByte s p b).free = s.free := rfl
@[simp] theorem putByte_regs (s : State) (p : Nat) (b : Byte) : (putByte s p b).regs = s.regs := rfl
@[simp] theorem putByte_shadow (s : State) (p : Nat) (b : Byte) : (putByte s p b).shadow = s.shadow := rfl
@[simp] theorem putByte_rings (s : State) (p : Nat) (b : Byte) : (putByte s p b).rings = s.rings := rfl
@[simp] theorem putByte_dev (s : State) (p : Nat) (b : Byte) : (putByte s p b).dev = s.dev := rfl
@[simp] theorem putByte_smc (s : State) (p : Nat) (b : Byte) : (putByte s p b).smc = s.smc := rfl
@[simp] theorem putByte_ras (s : State) (p : Nat) (b : Byte) : (putByte s p b).ras = s.ras := rfl
@[simp] theorem putByte_xtu (s : State) (p : Nat) (b : Byte) : (putByte s p b).xtu = s.xtu := rfl
@[simp] theorem putByte_qmg (s : State) (p : Nat) (b : Byte) : (putByte s p b).qmg = s.qmg := rfl
@[simp] theorem putByte_adm (s : State) (p : Nat) (b : Byte) : (putByte s p b).adm = s.adm := rfl
@[simp] theorem putByte_nme (s : State) (p : Nat) (b : Byte) : (putByte s p b).nme = s.nme := rfl
@[simp] theorem putByte_dma (s : State) (p : Nat) (b : Byte) : (putByte s p b).dma = s.dma := rfl
@[simp] theorem putByte_hif (s : State) (p : Nat) (b : Byte) : (putByte s p b).hif = s.hif := rfl
@[simp] theorem putByte_dir (s : State) (p : Nat) (b : Byte) : (putByte s p b).dir = s.dir := rfl
@[simp] theorem putByte_sec (s : State) (p : Nat) (b : Byte) : (putByte s p b).sec = s.sec := rfl
@[simp] theorem putByte_nie (s : State) (p : Nat) (b : Byte) : (putByte s p b).nie = s.nie := rfl
@[simp] theorem putByte_rtr (s : State) (p : Nat) (b : Byte) : (putByte s p b).rtr = s.rtr := rfl
@[simp] theorem putByte_ports (s : State) (p : Nat) (b : Byte) : (putByte s p b).ports = s.ports := rfl
@[simp] theorem putByte_mbx (s : State) (p : Nat) (b : Byte) : (putByte s p b).mbx = s.mbx := rfl
@[simp] theorem putByte_cfg (s : State) (p : Nat) (b : Byte) : (putByte s p b).cfg = s.cfg := rfl
@[simp] theorem putByte_fuse (s : State) (p : Nat) (b : Byte) : (putByte s p b).fuse = s.fuse := rfl
@[simp] theorem putByte_pwr (s : State) (p : Nat) (b : Byte) : (putByte s p b).pwr = s.pwr := rfl
@[simp] theorem putByte_mgt (s : State) (p : Nat) (b : Byte) : (putByte s p b).mgt = s.mgt := rfl
@[simp] theorem putByte_tel (s : State) (p : Nat) (b : Byte) : (putByte s p b).tel = s.tel := rfl
@[simp] theorem putByte_toHost (s : State) (p : Nat) (b : Byte) : (putByte s p b).toHost = s.toHost := rfl

@[simp] theorem putMeta_pending (s : State) (g : Nat) (m : GranMeta) : (putMeta s g m).pending = s.pending := rfl
@[simp] theorem putMeta_nowNs (s : State) (g : Nat) (m : GranMeta) : (putMeta s g m).nowNs = s.nowNs := rfl
@[simp] theorem putMeta_free (s : State) (g : Nat) (m : GranMeta) : (putMeta s g m).free = s.free := rfl
@[simp] theorem putMeta_regs (s : State) (g : Nat) (m : GranMeta) : (putMeta s g m).regs = s.regs := rfl
@[simp] theorem putMeta_shadow (s : State) (g : Nat) (m : GranMeta) : (putMeta s g m).shadow = s.shadow := rfl
@[simp] theorem putMeta_rings (s : State) (g : Nat) (m : GranMeta) : (putMeta s g m).rings = s.rings := rfl
@[simp] theorem putMeta_dev (s : State) (g : Nat) (m : GranMeta) : (putMeta s g m).dev = s.dev := rfl
@[simp] theorem putMeta_smc (s : State) (g : Nat) (m : GranMeta) : (putMeta s g m).smc = s.smc := rfl
@[simp] theorem putMeta_ras (s : State) (g : Nat) (m : GranMeta) : (putMeta s g m).ras = s.ras := rfl
@[simp] theorem putMeta_xtu (s : State) (g : Nat) (m : GranMeta) : (putMeta s g m).xtu = s.xtu := rfl
@[simp] theorem putMeta_qmg (s : State) (g : Nat) (m : GranMeta) : (putMeta s g m).qmg = s.qmg := rfl
@[simp] theorem putMeta_adm (s : State) (g : Nat) (m : GranMeta) : (putMeta s g m).adm = s.adm := rfl
@[simp] theorem putMeta_nme (s : State) (g : Nat) (m : GranMeta) : (putMeta s g m).nme = s.nme := rfl
@[simp] theorem putMeta_dma (s : State) (g : Nat) (m : GranMeta) : (putMeta s g m).dma = s.dma := rfl
@[simp] theorem putMeta_hif (s : State) (g : Nat) (m : GranMeta) : (putMeta s g m).hif = s.hif := rfl
@[simp] theorem putMeta_dir (s : State) (g : Nat) (m : GranMeta) : (putMeta s g m).dir = s.dir := rfl
@[simp] theorem putMeta_sec (s : State) (g : Nat) (m : GranMeta) : (putMeta s g m).sec = s.sec := rfl
@[simp] theorem putMeta_nie (s : State) (g : Nat) (m : GranMeta) : (putMeta s g m).nie = s.nie := rfl
@[simp] theorem putMeta_rtr (s : State) (g : Nat) (m : GranMeta) : (putMeta s g m).rtr = s.rtr := rfl
@[simp] theorem putMeta_ports (s : State) (g : Nat) (m : GranMeta) : (putMeta s g m).ports = s.ports := rfl
@[simp] theorem putMeta_mbx (s : State) (g : Nat) (m : GranMeta) : (putMeta s g m).mbx = s.mbx := rfl
@[simp] theorem putMeta_cfg (s : State) (g : Nat) (m : GranMeta) : (putMeta s g m).cfg = s.cfg := rfl
@[simp] theorem putMeta_fuse (s : State) (g : Nat) (m : GranMeta) : (putMeta s g m).fuse = s.fuse := rfl
@[simp] theorem putMeta_pwr (s : State) (g : Nat) (m : GranMeta) : (putMeta s g m).pwr = s.pwr := rfl
@[simp] theorem putMeta_mgt (s : State) (g : Nat) (m : GranMeta) : (putMeta s g m).mgt = s.mgt := rfl
@[simp] theorem putMeta_tel (s : State) (g : Nat) (m : GranMeta) : (putMeta s g m).tel = s.tel := rfl
@[simp] theorem putMeta_toHost (s : State) (g : Nat) (m : GranMeta) : (putMeta s g m).toHost = s.toHost := rfl

@[simp] theorem cancelRepair_pending (s : State) (g : Nat) : (cancelRepair s g).pending = s.pending := rfl
@[simp] theorem cancelRepair_nowNs (s : State) (g : Nat) : (cancelRepair s g).nowNs = s.nowNs := rfl
@[simp] theorem cancelRepair_free (s : State) (g : Nat) : (cancelRepair s g).free = s.free := rfl
@[simp] theorem cancelRepair_regs (s : State) (g : Nat) : (cancelRepair s g).regs = s.regs := rfl
@[simp] theorem cancelRepair_shadow (s : State) (g : Nat) : (cancelRepair s g).shadow = s.shadow := rfl
@[simp] theorem cancelRepair_rings (s : State) (g : Nat) : (cancelRepair s g).rings = s.rings := rfl
@[simp] theorem cancelRepair_dev (s : State) (g : Nat) : (cancelRepair s g).dev = s.dev := rfl
@[simp] theorem cancelRepair_mem (s : State) (g : Nat) : (cancelRepair s g).mem = s.mem := rfl
@[simp] theorem cancelRepair_smc (s : State) (g : Nat) : (cancelRepair s g).smc = s.smc := rfl
@[simp] theorem cancelRepair_xtu (s : State) (g : Nat) : (cancelRepair s g).xtu = s.xtu := rfl
@[simp] theorem cancelRepair_qmg (s : State) (g : Nat) : (cancelRepair s g).qmg = s.qmg := rfl
@[simp] theorem cancelRepair_adm (s : State) (g : Nat) : (cancelRepair s g).adm = s.adm := rfl
@[simp] theorem cancelRepair_nme (s : State) (g : Nat) : (cancelRepair s g).nme = s.nme := rfl
@[simp] theorem cancelRepair_dma (s : State) (g : Nat) : (cancelRepair s g).dma = s.dma := rfl
@[simp] theorem cancelRepair_hif (s : State) (g : Nat) : (cancelRepair s g).hif = s.hif := rfl
@[simp] theorem cancelRepair_dir (s : State) (g : Nat) : (cancelRepair s g).dir = s.dir := rfl
@[simp] theorem cancelRepair_sec (s : State) (g : Nat) : (cancelRepair s g).sec = s.sec := rfl
@[simp] theorem cancelRepair_nie (s : State) (g : Nat) : (cancelRepair s g).nie = s.nie := rfl
@[simp] theorem cancelRepair_rtr (s : State) (g : Nat) : (cancelRepair s g).rtr = s.rtr := rfl
@[simp] theorem cancelRepair_ports (s : State) (g : Nat) : (cancelRepair s g).ports = s.ports := rfl
@[simp] theorem cancelRepair_mbx (s : State) (g : Nat) : (cancelRepair s g).mbx = s.mbx := rfl
@[simp] theorem cancelRepair_cfg (s : State) (g : Nat) : (cancelRepair s g).cfg = s.cfg := rfl
@[simp] theorem cancelRepair_fuse (s : State) (g : Nat) : (cancelRepair s g).fuse = s.fuse := rfl
@[simp] theorem cancelRepair_pwr (s : State) (g : Nat) : (cancelRepair s g).pwr = s.pwr := rfl
@[simp] theorem cancelRepair_mgt (s : State) (g : Nat) : (cancelRepair s g).mgt = s.mgt := rfl
@[simp] theorem cancelRepair_tel (s : State) (g : Nat) : (cancelRepair s g).tel = s.tel := rfl
@[simp] theorem cancelRepair_toHost (s : State) (g : Nat) : (cancelRepair s g).toHost = s.toHost := rfl

@[simp] theorem modPort_pending (s : State) (p : Nat) (f : PortState → PortState) : (modPort s p f).pending = s.pending := rfl
@[simp] theorem modPort_nowNs (s : State) (p : Nat) (f : PortState → PortState) : (modPort s p f).nowNs = s.nowNs := rfl
@[simp] theorem modPort_free (s : State) (p : Nat) (f : PortState → PortState) : (modPort s p f).free = s.free := rfl
@[simp] theorem modPort_regs (s : State) (p : Nat) (f : PortState → PortState) : (modPort s p f).regs = s.regs := rfl
@[simp] theorem modPort_shadow (s : State) (p : Nat) (f : PortState → PortState) : (modPort s p f).shadow = s.shadow := rfl
@[simp] theorem modPort_rings (s : State) (p : Nat) (f : PortState → PortState) : (modPort s p f).rings = s.rings := rfl
@[simp] theorem modPort_dev (s : State) (p : Nat) (f : PortState → PortState) : (modPort s p f).dev = s.dev := rfl
@[simp] theorem modPort_mem (s : State) (p : Nat) (f : PortState → PortState) : (modPort s p f).mem = s.mem := rfl
@[simp] theorem modPort_smc (s : State) (p : Nat) (f : PortState → PortState) : (modPort s p f).smc = s.smc := rfl
@[simp] theorem modPort_ras (s : State) (p : Nat) (f : PortState → PortState) : (modPort s p f).ras = s.ras := rfl
@[simp] theorem modPort_xtu (s : State) (p : Nat) (f : PortState → PortState) : (modPort s p f).xtu = s.xtu := rfl
@[simp] theorem modPort_qmg (s : State) (p : Nat) (f : PortState → PortState) : (modPort s p f).qmg = s.qmg := rfl
@[simp] theorem modPort_adm (s : State) (p : Nat) (f : PortState → PortState) : (modPort s p f).adm = s.adm := rfl
@[simp] theorem modPort_nme (s : State) (p : Nat) (f : PortState → PortState) : (modPort s p f).nme = s.nme := rfl
@[simp] theorem modPort_dma (s : State) (p : Nat) (f : PortState → PortState) : (modPort s p f).dma = s.dma := rfl
@[simp] theorem modPort_hif (s : State) (p : Nat) (f : PortState → PortState) : (modPort s p f).hif = s.hif := rfl
@[simp] theorem modPort_dir (s : State) (p : Nat) (f : PortState → PortState) : (modPort s p f).dir = s.dir := rfl
@[simp] theorem modPort_sec (s : State) (p : Nat) (f : PortState → PortState) : (modPort s p f).sec = s.sec := rfl
@[simp] theorem modPort_nie (s : State) (p : Nat) (f : PortState → PortState) : (modPort s p f).nie = s.nie := rfl
@[simp] theorem modPort_rtr (s : State) (p : Nat) (f : PortState → PortState) : (modPort s p f).rtr = s.rtr := rfl
@[simp] theorem modPort_mbx (s : State) (p : Nat) (f : PortState → PortState) : (modPort s p f).mbx = s.mbx := rfl
@[simp] theorem modPort_cfg (s : State) (p : Nat) (f : PortState → PortState) : (modPort s p f).cfg = s.cfg := rfl
@[simp] theorem modPort_fuse (s : State) (p : Nat) (f : PortState → PortState) : (modPort s p f).fuse = s.fuse := rfl
@[simp] theorem modPort_pwr (s : State) (p : Nat) (f : PortState → PortState) : (modPort s p f).pwr = s.pwr := rfl
@[simp] theorem modPort_mgt (s : State) (p : Nat) (f : PortState → PortState) : (modPort s p f).mgt = s.mgt := rfl
@[simp] theorem modPort_tel (s : State) (p : Nat) (f : PortState → PortState) : (modPort s p f).tel = s.tel := rfl
@[simp] theorem modPort_toHost (s : State) (p : Nat) (f : PortState → PortState) : (modPort s p f).toHost = s.toHost := rfl

@[simp] theorem setIn_pending (s : State) (k : Nat) (l : List RtrPkt) : (setIn s k l).pending = s.pending := rfl
@[simp] theorem setIn_nowNs (s : State) (k : Nat) (l : List RtrPkt) : (setIn s k l).nowNs = s.nowNs := rfl
@[simp] theorem setIn_free (s : State) (k : Nat) (l : List RtrPkt) : (setIn s k l).free = s.free := rfl
@[simp] theorem setIn_regs (s : State) (k : Nat) (l : List RtrPkt) : (setIn s k l).regs = s.regs := rfl
@[simp] theorem setIn_shadow (s : State) (k : Nat) (l : List RtrPkt) : (setIn s k l).shadow = s.shadow := rfl
@[simp] theorem setIn_rings (s : State) (k : Nat) (l : List RtrPkt) : (setIn s k l).rings = s.rings := rfl
@[simp] theorem setIn_dev (s : State) (k : Nat) (l : List RtrPkt) : (setIn s k l).dev = s.dev := rfl
@[simp] theorem setIn_mem (s : State) (k : Nat) (l : List RtrPkt) : (setIn s k l).mem = s.mem := rfl
@[simp] theorem setIn_smc (s : State) (k : Nat) (l : List RtrPkt) : (setIn s k l).smc = s.smc := rfl
@[simp] theorem setIn_ras (s : State) (k : Nat) (l : List RtrPkt) : (setIn s k l).ras = s.ras := rfl
@[simp] theorem setIn_xtu (s : State) (k : Nat) (l : List RtrPkt) : (setIn s k l).xtu = s.xtu := rfl
@[simp] theorem setIn_qmg (s : State) (k : Nat) (l : List RtrPkt) : (setIn s k l).qmg = s.qmg := rfl
@[simp] theorem setIn_adm (s : State) (k : Nat) (l : List RtrPkt) : (setIn s k l).adm = s.adm := rfl
@[simp] theorem setIn_nme (s : State) (k : Nat) (l : List RtrPkt) : (setIn s k l).nme = s.nme := rfl
@[simp] theorem setIn_dma (s : State) (k : Nat) (l : List RtrPkt) : (setIn s k l).dma = s.dma := rfl
@[simp] theorem setIn_hif (s : State) (k : Nat) (l : List RtrPkt) : (setIn s k l).hif = s.hif := rfl
@[simp] theorem setIn_dir (s : State) (k : Nat) (l : List RtrPkt) : (setIn s k l).dir = s.dir := rfl
@[simp] theorem setIn_sec (s : State) (k : Nat) (l : List RtrPkt) : (setIn s k l).sec = s.sec := rfl
@[simp] theorem setIn_nie (s : State) (k : Nat) (l : List RtrPkt) : (setIn s k l).nie = s.nie := rfl
@[simp] theorem setIn_ports (s : State) (k : Nat) (l : List RtrPkt) : (setIn s k l).ports = s.ports := rfl
@[simp] theorem setIn_mbx (s : State) (k : Nat) (l : List RtrPkt) : (setIn s k l).mbx = s.mbx := rfl
@[simp] theorem setIn_cfg (s : State) (k : Nat) (l : List RtrPkt) : (setIn s k l).cfg = s.cfg := rfl
@[simp] theorem setIn_fuse (s : State) (k : Nat) (l : List RtrPkt) : (setIn s k l).fuse = s.fuse := rfl
@[simp] theorem setIn_pwr (s : State) (k : Nat) (l : List RtrPkt) : (setIn s k l).pwr = s.pwr := rfl
@[simp] theorem setIn_mgt (s : State) (k : Nat) (l : List RtrPkt) : (setIn s k l).mgt = s.mgt := rfl
@[simp] theorem setIn_tel (s : State) (k : Nat) (l : List RtrPkt) : (setIn s k l).tel = s.tel := rfl
@[simp] theorem setIn_toHost (s : State) (k : Nat) (l : List RtrPkt) : (setIn s k l).toHost = s.toHost := rfl

@[simp] theorem setOut_pending (s : State) (k : Nat) (l : List RtrPkt) : (setOut s k l).pending = s.pending := rfl
@[simp] theorem setOut_nowNs (s : State) (k : Nat) (l : List RtrPkt) : (setOut s k l).nowNs = s.nowNs := rfl
@[simp] theorem setOut_free (s : State) (k : Nat) (l : List RtrPkt) : (setOut s k l).free = s.free := rfl
@[simp] theorem setOut_regs (s : State) (k : Nat) (l : List RtrPkt) : (setOut s k l).regs = s.regs := rfl
@[simp] theorem setOut_shadow (s : State) (k : Nat) (l : List RtrPkt) : (setOut s k l).shadow = s.shadow := rfl
@[simp] theorem setOut_rings (s : State) (k : Nat) (l : List RtrPkt) : (setOut s k l).rings = s.rings := rfl
@[simp] theorem setOut_dev (s : State) (k : Nat) (l : List RtrPkt) : (setOut s k l).dev = s.dev := rfl
@[simp] theorem setOut_mem (s : State) (k : Nat) (l : List RtrPkt) : (setOut s k l).mem = s.mem := rfl
@[simp] theorem setOut_smc (s : State) (k : Nat) (l : List RtrPkt) : (setOut s k l).smc = s.smc := rfl
@[simp] theorem setOut_ras (s : State) (k : Nat) (l : List RtrPkt) : (setOut s k l).ras = s.ras := rfl
@[simp] theorem setOut_xtu (s : State) (k : Nat) (l : List RtrPkt) : (setOut s k l).xtu = s.xtu := rfl
@[simp] theorem setOut_qmg (s : State) (k : Nat) (l : List RtrPkt) : (setOut s k l).qmg = s.qmg := rfl
@[simp] theorem setOut_adm (s : State) (k : Nat) (l : List RtrPkt) : (setOut s k l).adm = s.adm := rfl
@[simp] theorem setOut_nme (s : State) (k : Nat) (l : List RtrPkt) : (setOut s k l).nme = s.nme := rfl
@[simp] theorem setOut_dma (s : State) (k : Nat) (l : List RtrPkt) : (setOut s k l).dma = s.dma := rfl
@[simp] theorem setOut_hif (s : State) (k : Nat) (l : List RtrPkt) : (setOut s k l).hif = s.hif := rfl
@[simp] theorem setOut_dir (s : State) (k : Nat) (l : List RtrPkt) : (setOut s k l).dir = s.dir := rfl
@[simp] theorem setOut_sec (s : State) (k : Nat) (l : List RtrPkt) : (setOut s k l).sec = s.sec := rfl
@[simp] theorem setOut_nie (s : State) (k : Nat) (l : List RtrPkt) : (setOut s k l).nie = s.nie := rfl
@[simp] theorem setOut_ports (s : State) (k : Nat) (l : List RtrPkt) : (setOut s k l).ports = s.ports := rfl
@[simp] theorem setOut_mbx (s : State) (k : Nat) (l : List RtrPkt) : (setOut s k l).mbx = s.mbx := rfl
@[simp] theorem setOut_cfg (s : State) (k : Nat) (l : List RtrPkt) : (setOut s k l).cfg = s.cfg := rfl
@[simp] theorem setOut_fuse (s : State) (k : Nat) (l : List RtrPkt) : (setOut s k l).fuse = s.fuse := rfl
@[simp] theorem setOut_pwr (s : State) (k : Nat) (l : List RtrPkt) : (setOut s k l).pwr = s.pwr := rfl
@[simp] theorem setOut_mgt (s : State) (k : Nat) (l : List RtrPkt) : (setOut s k l).mgt = s.mgt := rfl
@[simp] theorem setOut_tel (s : State) (k : Nat) (l : List RtrPkt) : (setOut s k l).tel = s.tel := rfl
@[simp] theorem setOut_toHost (s : State) (k : Nat) (l : List RtrPkt) : (setOut s k l).toHost = s.toHost := rfl

@[simp] theorem attrib_pending (s : State) (m c t : Nat) : (attrib s m c t).pending = s.pending := rfl
@[simp] theorem attrib_nowNs (s : State) (m c t : Nat) : (attrib s m c t).nowNs = s.nowNs := rfl
@[simp] theorem attrib_free (s : State) (m c t : Nat) : (attrib s m c t).free = s.free := rfl
@[simp] theorem attrib_regs (s : State) (m c t : Nat) : (attrib s m c t).regs = s.regs := rfl
@[simp] theorem attrib_shadow (s : State) (m c t : Nat) : (attrib s m c t).shadow = s.shadow := rfl
@[simp] theorem attrib_rings (s : State) (m c t : Nat) : (attrib s m c t).rings = s.rings := rfl
@[simp] theorem attrib_dev (s : State) (m c t : Nat) : (attrib s m c t).dev = s.dev := rfl
@[simp] theorem attrib_mem (s : State) (m c t : Nat) : (attrib s m c t).mem = s.mem := rfl
@[simp] theorem attrib_smc (s : State) (m c t : Nat) : (attrib s m c t).smc = s.smc := rfl
@[simp] theorem attrib_ras (s : State) (m c t : Nat) : (attrib s m c t).ras = s.ras := rfl
@[simp] theorem attrib_xtu (s : State) (m c t : Nat) : (attrib s m c t).xtu = s.xtu := rfl
@[simp] theorem attrib_qmg (s : State) (m c t : Nat) : (attrib s m c t).qmg = s.qmg := rfl
@[simp] theorem attrib_adm (s : State) (m c t : Nat) : (attrib s m c t).adm = s.adm := rfl
@[simp] theorem attrib_nme (s : State) (m c t : Nat) : (attrib s m c t).nme = s.nme := rfl
@[simp] theorem attrib_dma (s : State) (m c t : Nat) : (attrib s m c t).dma = s.dma := rfl
@[simp] theorem attrib_hif (s : State) (m c t : Nat) : (attrib s m c t).hif = s.hif := rfl
@[simp] theorem attrib_dir (s : State) (m c t : Nat) : (attrib s m c t).dir = s.dir := rfl
@[simp] theorem attrib_sec (s : State) (m c t : Nat) : (attrib s m c t).sec = s.sec := rfl
@[simp] theorem attrib_nie (s : State) (m c t : Nat) : (attrib s m c t).nie = s.nie := rfl
@[simp] theorem attrib_rtr (s : State) (m c t : Nat) : (attrib s m c t).rtr = s.rtr := rfl
@[simp] theorem attrib_ports (s : State) (m c t : Nat) : (attrib s m c t).ports = s.ports := rfl
@[simp] theorem attrib_mbx (s : State) (m c t : Nat) : (attrib s m c t).mbx = s.mbx := rfl
@[simp] theorem attrib_cfg (s : State) (m c t : Nat) : (attrib s m c t).cfg = s.cfg := rfl
@[simp] theorem attrib_fuse (s : State) (m c t : Nat) : (attrib s m c t).fuse = s.fuse := rfl
@[simp] theorem attrib_pwr (s : State) (m c t : Nat) : (attrib s m c t).pwr = s.pwr := rfl
@[simp] theorem attrib_mgt (s : State) (m c t : Nat) : (attrib s m c t).mgt = s.mgt := rfl
@[simp] theorem attrib_toHost (s : State) (m c t : Nat) : (attrib s m c t).toHost = s.toHost := rfl

end Sys2Proof.Machine
end

