-- ==== Sys2Proof/Laws/Regs.lean ====
section
/-!
SUPPORT. Laws/Regs.lean: reading a register field after a write.
-/
namespace Sys2Proof.Machine
open Sys2Proof

/-- A field reads as what was written, cut to its width. -/
@[simp] theorem getF_setF_self (s : State) (f : Fld) (v n : Nat) : getF (setF s f v n) f n = v % 2 ^ f.width := by
  simp [getF, setF]

/-- A write leaves every field at another place alone. -/
theorem getF_setF_ne (s : State) {f g : Fld} (v : Nat) {n m : Nat} (h : fldKey g m ≠ fldKey f n) :
    getF (setF s f v n) g m = getF s g m := by
  simp only [getF, setF]
  exact ngetD_nset_ne _ _ _ _ h

/-- A one-bit field reads as what was written. -/
@[simp] theorem getB_setB_self (s : State) (f : Fld) (b : Bool) (n : Nat) (h : f.width ≠ 0) : getB (setB s f b n) f n = b := by
  have h2 : 1 < 2 ^ f.width := Nat.one_lt_two_pow h
  cases b <;> simp [getB, setB, b2n, Nat.mod_eq_of_lt h2]

/-- Setting a one-bit field is setting the field. -/
theorem setB_eq (s : State) (f : Fld) (b : Bool) (n : Nat) : setB s f b n = setF s f (b2n b) n := rfl

/-- Two machines with the same registers read alike. -/
theorem getF_congr {s t : State} (h : t.regs = s.regs) (f : Fld) (n : Nat) : getF t f n = getF s f n := by
  simp only [getF, h]

/-- Two machines with the same registers read alike, bit by bit. -/
theorem getB_congr {s t : State} (h : t.regs = s.regs) (f : Fld) (n : Nat) : getB t f n = getB s f n := by
  simp only [getB, getF_congr h]

/-- Nothing in a field's register is read from a pending value, a ring, memory or a message. -/
@[simp] theorem getF_setShadow (s : State) (f g : Fld) (v n m : Nat) : getF (setShadow s f v n) g m = getF s g m := rfl

@[simp] theorem getF_setRing (s : State) (r : Ring) (c : RingCnt) (g : Fld) (m : Nat) : getF (setRing s r c) g m = getF s g m := rfl

@[simp] theorem getF_emit (s : State) (x : HostMsg) (g : Fld) (m : Nat) : getF (emit s x) g m = getF s g m := rfl

@[simp] theorem getF_putByte (s : State) (p : Nat) (b : Byte) (g : Fld) (m : Nat) : getF (putByte s p b) g m = getF s g m := rfl

@[simp] theorem getF_putMeta (s : State) (p : Nat) (b : GranMeta) (g : Fld) (m : Nat) : getF (putMeta s p b) g m = getF s g m := rfl

/-- A ring's counts read as set. -/
@[simp] theorem ringCnt_setRing_self (s : State) (r : Ring) (c : RingCnt) : ringCnt (setRing s r c) r = c := by
  simp [ringCnt, setRing]

/-- Every field of the state after reset reads as its reset value. -/
theorem getF_reset (f : Fld) (n : Nat) : getF State.reset f n = fldReset f n := rfl

/-- Writing a field keeps the registers' canonical form. -/
theorem sorted_setF {s : State} (h : NMap.sorted s.regs) (f : Fld) (v n : Nat) : NMap.sorted (setF s f v n).regs :=
  sorted_nset h _ _ _

end Sys2Proof.Machine
end

