-- ==== Sys2Proof/Laws/Memory.lean ====
section
/-!
SUPPORT. Laws/Memory.lean: reading memory after a write, and that each operation on memory keeps its canonical form.
-/
namespace Sys2Proof.Machine
open Sys2Proof

/-- A byte reads as what was stored. -/
@[simp] theorem byteAt_putByte_self (s : State) (p : Nat) (b : Byte) : byteAt (putByte s p b) p = b := by
  simp [byteAt, putByte]

/-- Storing a byte leaves every other byte alone. -/
theorem byteAt_putByte_ne (s : State) {p q : Nat} (b : Byte) (h : q ≠ p) : byteAt (putByte s p b) q = byteAt s q := by
  simp only [byteAt, putByte]
  exact ngetD_nset_ne _ _ _ _ h

/-- Storing bytes from p on leaves bytes below p alone. -/
theorem byteAt_putBytes_below (bs : List Byte) : ∀ (s : State) {p q : Nat}, q < p → byteAt (putBytes s p bs) q = byteAt s q := by
  induction bs with
  | nil => intro s p q _; rfl
  | cons b bs ih =>
    intro s p q h
    rw [putBytes, ih _ (by omega), byteAt_putByte_ne _ _ (by omega)]

/-- Storing bytes from p on leaves bytes at and above their end alone. -/
theorem byteAt_putBytes_above (bs : List Byte) :
    ∀ (s : State) {p q : Nat}, p + bs.length ≤ q → byteAt (putBytes s p bs) q = byteAt s q := by
  induction bs with
  | nil => intro s p q _; rfl
  | cons b bs ih =>
    intro s p q h
    simp only [List.length_cons] at h
    rw [putBytes, ih _ (by omega), byteAt_putByte_ne _ _ (by omega)]

/-- Byte i of what was stored from p on. -/
theorem byteAt_putBytes (bs : List Byte) : ∀ (s : State) (p i : Nat) (h : i < bs.length), byteAt (putBytes s p bs) (p + i) = bs[i] := by
  induction bs with
  | nil => intro s p i h; simp at h
  | cons b bs ih =>
    intro s p i h
    rw [putBytes]
    cases i with
    | zero => rw [byteAt_putBytes_below _ _ (by omega)]; simp
    | succ i =>
      have h2 : i < bs.length := by simpa using h
      have h3 : p + (i + 1) = p + 1 + i := by omega
      rw [h3, ih _ _ _ h2]; simp

/-- What memory's canonical form says of each of its maps. -/
theorem memwf_iff {m : MemState} : Memory.wf m = true ↔ nwf 0 m.bytes = true ∧ nwfBy (granDef m) m.gran = true
    ∧ nwfBy (zbitDef m) m.zmap = true ∧ nwf false m.zlost = true ∧ nwf false m.pdef = true ∧ nwf false m.lostCh = true := by
  simp [Memory.wf, Bool.and_eq_true, and_assoc]

/-- Memory after reset is in canonical form. -/
theorem memwf_reset : Memory.wf State.reset.mem = true := rfl

theorem memwf_putByte {s : State} (h : Memory.wf s.mem = true) (p : Nat) (b : Byte) : Memory.wf (putByte s p b).mem = true := by
  rw [memwf_iff] at h ⊢
  exact ⟨nwf_nset h.1 p b, h.2⟩

theorem memwf_putBytes (bs : List Byte) : ∀ {s : State} (_ : Memory.wf s.mem = true) (p : Nat),
    Memory.wf (putBytes s p bs).mem = true := by
  induction bs with
  | nil => intro s h _; exact h
  | cons b bs ih => intro s h p; exact ih (memwf_putByte h p b) (p + 1)

theorem memwf_putMeta {s : State} (h : Memory.wf s.mem = true) (g : Nat) (m : GranMeta) : Memory.wf (putMeta s g m).mem = true := by
  rw [memwf_iff] at h ⊢
  exact ⟨h.1, nwfBy_nset (d := granDef s.mem) h.2.1 g m, h.2.2⟩

theorem memwf_setZbit {s : State} (h : Memory.wf s.mem = true) (n : Nat) (b : Bool) : Memory.wf (setZbit s n b).mem = true := by
  unfold setZbit
  split
  · exact h
  · rw [memwf_iff] at h ⊢
    exact ⟨h.1, h.2.1, nwfBy_nset (d := zbitDef s.mem) h.2.2.1 n b, h.2.2.2⟩

theorem memwf_foldl {α : Type} (f : State → α → State) (hf : ∀ s a, Memory.wf s.mem = true → Memory.wf (f s a).mem = true) :
    ∀ (l : List α) {s : State}, Memory.wf s.mem = true → Memory.wf (l.foldl f s).mem = true := by
  intro l
  induction l with
  | nil => intro s h; exact h
  | cons a l ih => intro s h; exact ih (hf s a h)

theorem memwf_zeroBlock {s : State} (h : Memory.wf s.mem = true) (n : Nat) : Memory.wf (zeroBlock s n).mem = true := by
  unfold zeroBlock
  rw [memwf_iff] at h
  have h2 : Memory.wf ({ s with mem := { s.mem with
      bytes := s.mem.bytes.filter (fun p => p.1 / 4096 ≠ n)
      gran := s.mem.gran.filter (fun p => p.1 / 64 ≠ n) } } : State).mem = true := by
    rw [memwf_iff]
    exact ⟨nwf_filter h.1 _, nwfBy_filter (d := granDef s.mem) h.2.1 _, h.2.2⟩
  simp only
  split
  · exact memwf_foldl _ (fun s i hs => memwf_putMeta hs _ _) _ h2
  · exact h2

theorem memwf_materialise {s : State} (h : Memory.wf s.mem = true) (n : Nat) : Memory.wf (materialise s n).mem = true := by
  unfold materialise
  split
  · exact memwf_setZbit (memwf_zeroBlock h n) n false
  · exact h

theorem memwf_zeroMemory {s : State} (h : Memory.wf s.mem = true) : Memory.wf (zeroMemory s).mem = true := by
  rw [memwf_iff] at h ⊢
  exact ⟨rfl, rfl, rfl, rfl, rfl, h.2.2.2.2.2⟩

theorem memwf_settleDeltas {s : State} (h : Memory.wf s.mem = true) (p : Nat) : Memory.wf (settleDeltas s p).mem = true := by
  rw [memwf_iff] at h ⊢
  exact h

/-- A map granule is given up: the entries of its blocks are taken away, so that each reads as unlisted. -/
theorem memwf_loseMapGran {s : State} (h : Memory.wf s.mem = true) (n : Nat) (lost : Bool) :
    Memory.wf (loseMapGran s n lost).mem = true := by
  rw [memwf_iff] at h ⊢
  obtain ⟨h1, h2, h3, h4, h5, h6⟩ := h
  have hpd : ∀ k, k ≠ n → ngetD false (nset false s.mem.pdef n true) k = ngetD false s.mem.pdef k :=
    fun k hk => ngetD_nset_ne _ _ _ _ hk
  refine ⟨nwf_filter h1 _, ?_, ?_, ?_, nwf_nset h5 n true, h6⟩
  · have hf := nwfBy_filter h2 (fun p => decide (p.1 / 32768 ≠ n))
    rw [nwfBy_iff] at hf ⊢
    refine ⟨hf.1, fun p hp => ?_⟩
    have hk : p.1 / 32768 ≠ n := by simpa using (List.mem_filter.mp hp).2
    have := hf.2 p hp
    simpa only [loseMapGran, granDef, hpd _ hk] using this
  · have hf := nwfBy_filter h3 (fun p => decide (p.1 / 512 ≠ n))
    rw [nwfBy_iff] at hf ⊢
    refine ⟨hf.1, fun p hp => ?_⟩
    have hk : p.1 / 512 ≠ n := by simpa using (List.mem_filter.mp hp).2
    have := hf.2 p hp
    simpa only [loseMapGran, zbitDef, hpd _ hk] using this
  · show nwf false (if lost then nset false s.mem.zlost n true else s.mem.zlost) = true
    split
    · exact nwf_nset h4 n true
    · exact h4

end Sys2Proof.Machine
end

