-- ==== Sys2Proof/Laws/Evolve.lean ====
section
/-!
SUPPORT. Laws/Evolve.lean: what no operation of the machine undoes, as one relation between a machine and a later one: the queue of
waiting commands is untouched, the clock and the count of free values never go back, a fuse once burnt stays, what the host was told
stays told, and every map keeps its canonical form. The files Laws/Evolve….lean hold one lemma for each operation.
-/
namespace Sys2Proof.Machine
open Sys2Proof

/-- Evolves on the parts of the later machine that it speaks of. -/
structure EvolvesTo (s : State) (p : List Instr) (n fr : Nat) (rg sh : NMap Nat) (m : MemState) (fu : FuseState) (h : List HostMsg) : Prop where
  pending : p = s.pending
  time : s.nowNs ≤ n
  free : s.free ≤ fr
  slots : fu.slots = s.fuse.slots
  lock : fu.lock = s.fuse.lock
  fleet : fu.fleet = s.fuse.fleet
  svn : fu.svn = s.fuse.svn
  floor : s.fuse.floor ≤ fu.floor
  host : s.toHost <+: h
  mem : Memory.wf s.mem = true → Memory.wf m = true
  regs : NMap.sorted s.regs → NMap.sorted rg
  shadow : NMap.sorted s.shadow → NMap.sorted sh

/-- The machine t may follow the machine s by operations alone. -/
@[reducible] def Evolves (s t : State) : Prop := EvolvesTo s t.pending t.nowNs t.free t.regs t.shadow t.mem t.fuse t.toHost

theorem evolves_refl (s : State) : Evolves s s :=
  ⟨rfl, Nat.le_refl _, Nat.le_refl _, rfl, rfl, rfl, rfl, Nat.le_refl _, List.prefix_refl _, id, id, id⟩

theorem evolves_trans {a b c : State} (h : Evolves a b) (k : Evolves b c) : Evolves a c :=
  ⟨k.pending.trans h.pending, Nat.le_trans h.time k.time, Nat.le_trans h.free k.free, k.slots.trans h.slots, k.lock.trans h.lock,
   k.fleet.trans h.fleet, k.svn.trans h.svn, Nat.le_trans h.floor k.floor, List.IsPrefix.trans h.host k.host,
   fun x => k.mem (h.mem x), fun x => k.regs (h.regs x), fun x => k.shadow (h.shadow x)⟩

/-- Parts that Evolves does not speak of may change freely. -/
theorem evolves_keep {s0 x : State} {vrings : NMap RingCnt} {vdev : DevState} {vsmc : SmcState} {vras : RasState} {vxtu : XtuState} {vqmg : QmgState} {vadm : AdmState} {vnme : NmeState} {vdma : DmaState} {vhif : HifState} {vdir : DirState} {vsec : SecState} {vnie : NieState} {vrtr : RtrState} {vports : NMap PortState} {vmbx : MbxState} {vcfg : CfgState} {vpwr : PwrState} {vmgt : MgtState} {vtel : TelState} (h : Evolves s0 x) :
    Evolves s0 ⟨x.pending, x.nowNs, x.free, x.regs, x.shadow, vrings, vdev, x.mem, vsmc, vras, vxtu, vqmg, vadm, vnme, vdma, vhif, vdir, vsec, vnie, vrtr, vports, vmbx, vcfg, x.fuse, vpwr, vmgt, vtel, x.toHost⟩ := h
theorem evolves_keep_free {s0 x : State} {k : Nat} {vrings : NMap RingCnt} {vdev : DevState} {vsmc : SmcState} {vras : RasState} {vxtu : XtuState} {vqmg : QmgState} {vadm : AdmState} {vnme : NmeState} {vdma : DmaState} {vhif : HifState} {vdir : DirState} {vsec : SecState} {vnie : NieState} {vrtr : RtrState} {vports : NMap PortState} {vmbx : MbxState} {vcfg : CfgState} {vpwr : PwrState} {vmgt : MgtState} {vtel : TelState} (h : Evolves s0 x) :
    Evolves s0 ⟨x.pending, x.nowNs, x.free + k, x.regs, x.shadow, vrings, vdev, x.mem, vsmc, vras, vxtu, vqmg, vadm, vnme, vdma, vhif, vdir, vsec, vnie, vrtr, vports, vmbx, vcfg, x.fuse, vpwr, vmgt, vtel, x.toHost⟩ := { h with free := Nat.le_trans h.free (Nat.le_add_right _ _) }
theorem evolves_keep_shadow {s0 x : State} {k : Nat} {vrings : NMap RingCnt} {vdev : DevState} {vsmc : SmcState} {vras : RasState} {vxtu : XtuState} {vqmg : QmgState} {vadm : AdmState} {vnme : NmeState} {vdma : DmaState} {vhif : HifState} {vdir : DirState} {vsec : SecState} {vnie : NieState} {vrtr : RtrState} {vports : NMap PortState} {vmbx : MbxState} {vcfg : CfgState} {vpwr : PwrState} {vmgt : MgtState} {vtel : TelState} (h : Evolves s0 x) :
    Evolves s0 ⟨x.pending, x.nowNs, x.free, x.regs, ndel x.shadow k, vrings, vdev, x.mem, vsmc, vras, vxtu, vqmg, vadm, vnme, vdma, vhif, vdir, vsec, vnie, vrtr, vports, vmbx, vcfg, x.fuse, vpwr, vmgt, vtel, x.toHost⟩ := { h with shadow := fun k => sorted_ndel (h.shadow k) _ }
/-- A command that answers a next state evolves the machine. -/
def OutEvolves (s : State) : Out → Prop
  | .next t => Evolves s t
  | _ => True
theorem outEvolves_next {s t : State} (h : Evolves s t) : OutEvolves s (.next t) := h
theorem foldl_evolves {α : Type} {s0 : State} (f : State → α → State) (l : List α) (s : State) (h : ∀ s a, Evolves s0 s → Evolves s0 (f s a)) :
    Evolves s0 s → Evolves s0 (l.foldl f s) := by
  induction l generalizing s with
  | nil => exact id
  | cons a l ih => exact fun k => ih (f s a) (h s a k)
theorem foldl2_evolves {α β : Type} {s0 : State} (f : β × State → α → β × State) (l : List α) (s : β × State)
    (h : ∀ s a, Evolves s0 s.2 → Evolves s0 (f s a).2) : Evolves s0 s.2 → Evolves s0 (l.foldl f s).2 := by
  induction l generalizing s with
  | nil => exact id
  | cons a l ih => exact fun k => ih (f s a) (h s a k)
theorem foldl3_evolves {α β γ : Type} {s0 : State} (f : β × γ × State → α → β × γ × State) (l : List α) (s : β × γ × State)
    (h : ∀ s a, Evolves s0 s.2.2 → Evolves s0 (f s a).2.2) : Evolves s0 s.2.2 → Evolves s0 (l.foldl f s).2.2 := by
  induction l generalizing s with
  | nil => exact id
  | cons a l ih => exact fun k => ih (f s a) (h s a k)

theorem setF_evolves {s0 : State} (s : State) (f : Fld) (v n : Nat) (h : Evolves s0 s) : Evolves s0 (setF s f v n) :=
  evolves_trans h ⟨rfl, Nat.le_refl _, Nat.le_refl _, rfl, rfl, rfl, rfl, Nat.le_refl _, List.prefix_refl _, id, fun h => sorted_nset h _ _ _, id⟩
theorem evolves_mem {s0 : State} {p n fr rg sh m fu h} (k : EvolvesTo s0 p n fr rg sh m fu h) {m' : MemState} (hm : Memory.wf m = true → Memory.wf m' = true) :
    EvolvesTo s0 p n fr rg sh m' fu h :=
  ⟨k.pending, k.time, k.free, k.slots, k.lock, k.fleet, k.svn, k.floor, k.host, fun x => hm (k.mem x), k.regs, k.shadow⟩
theorem emit_evolves {s0 : State} (s : State) (m : HostMsg) (h : Evolves s0 s) : Evolves s0 (emit s m) :=
  evolves_trans h ⟨rfl, Nat.le_refl _, Nat.le_refl _, rfl, rfl, rfl, rfl, Nat.le_refl _, List.prefix_append _ _, id, id, id⟩
theorem fresh_evolves {s0 : State} (s : State) (h : Evolves s0 s) : Evolves s0 (fresh s).2 :=
  evolves_trans h ⟨rfl, Nat.le_refl _, Nat.le_succ _, rfl, rfl, rfl, rfl, Nat.le_refl _, List.prefix_refl _, id, id, id⟩
theorem freshBytes_evolves {s0 : State} (n : Nat) (s : State) (h : Evolves s0 s) : Evolves s0 (freshBytes n s).2 := by
  induction n generalizing s with
  | zero => exact h
  | succ n ih =>
    refine ih _ (evolves_trans h ⟨rfl, Nat.le_refl _, Nat.le_succ _, rfl, rfl, rfl, rfl, Nat.le_refl _, List.prefix_refl _, id, id, id⟩)
theorem putByte_evolves {s0 : State} (s : State) (p : Nat) (b : Byte) (h : Evolves s0 s) : Evolves s0 (putByte s p b) :=
  evolves_mem h (fun h => memwf_putByte h p b)
theorem putBytes_evolves {s0 : State} (s : State) (p : Nat) (bs : List Byte) (h : Evolves s0 s) : Evolves s0 (putBytes s p bs) := by
  induction bs generalizing s p with
  | nil => exact h
  | cons b bs ih => exact ih _ _ (putByte_evolves s p b h)
theorem putMeta_evolves {s0 : State} (s : State) (g : Nat) (m : GranMeta) (h : Evolves s0 s) : Evolves s0 (putMeta s g m) :=
  evolves_mem h (fun h => memwf_putMeta h g m)
theorem setZbit_evolves {s0 : State} (s : State) (n : Nat) (b : Bool) (h : Evolves s0 s) : Evolves s0 (setZbit s n b) := by
  have k := fun h => memwf_setZbit (s := s) h n b
  unfold setZbit at k ⊢
  split
  · exact h
  · rename_i h1; simp only [h1] at k; exact evolves_mem h k
theorem settleDeltas_evolves {s0 : State} (s : State) (p : Nat) (h : Evolves s0 s) : Evolves s0 (settleDeltas s p) :=
  evolves_mem h (fun h => memwf_settleDeltas h p)
theorem zeroMemory_evolves {s0 : State} (s : State) (h : Evolves s0 s) : Evolves s0 (zeroMemory s) :=
  evolves_mem h (fun h => memwf_zeroMemory h)
theorem loseMapGran_evolves {s0 : State} (s : State) (n : Nat) (b : Bool) (h : Evolves s0 s) : Evolves s0 (loseMapGran s n b) :=
  evolves_mem h (fun h => memwf_loseMapGran h n b)
theorem zeroBlock_evolves {s0 : State} (s : State) (n : Nat) (h : Evolves s0 s) : Evolves s0 (zeroBlock s n) := by
  have h2 : Evolves s0 ({ s with mem := { s.mem with
      bytes := s.mem.bytes.filter (fun p => p.1 / 4096 ≠ n)
      gran := s.mem.gran.filter (fun p => p.1 / 64 ≠ n) } } : State) := by
    refine evolves_mem h (fun h => ?_)
    rw [memwf_iff] at h ⊢
    exact ⟨nwf_filter h.1 _, nwfBy_filter (d := granDef s.mem) h.2.1 _, h.2.2⟩
  unfold zeroBlock
  dsimp only
  split
  · exact foldl_evolves _ _ _ (fun s i h => putMeta_evolves s _ _ h) h2
  · exact h2
theorem setShadow_evolves {s0 : State} (s : State) (f : Fld) (v n : Nat) (h : Evolves s0 s) : Evolves s0 (setShadow s f v n) :=
  evolves_trans h ⟨rfl, Nat.le_refl _, Nat.le_refl _, rfl, rfl, rfl, rfl, Nat.le_refl _, List.prefix_refl _, id, id, fun h => sorted_nput h _ _⟩
theorem foldl4_evolves {α β γ δ : Type} {s0 : State} (f : β × γ × δ × State → α → β × γ × δ × State) (l : List α) (s : β × γ × δ × State)
    (h : ∀ s a, Evolves s0 s.2.2.2 → Evolves s0 (f s a).2.2.2) : Evolves s0 s.2.2.2 → Evolves s0 (l.foldl f s).2.2.2 := by
  induction l generalizing s with
  | nil => exact id
  | cons a l ih => exact fun k => ih (f s a) (h s a k)
theorem evolves_shadow_del {s0 : State} {p n fr rg sh m fu h} {k : Nat} (e : EvolvesTo s0 p n fr rg sh m fu h) : EvolvesTo s0 p n fr rg (ndel sh k) m fu h :=
  { e with shadow := fun x => sorted_ndel (e.shadow x) _ }
theorem evolves_free {s0 : State} {p n fr rg sh m fu h k} (e : EvolvesTo s0 p n fr rg sh m fu h) : EvolvesTo s0 p n (fr + k) rg sh m fu h :=
  { e with free := Nat.le_trans e.free (Nat.le_add_right _ _) }
theorem nwf_foldl {α β : Type} [DecidableEq β] {d : β} (f : NMap β → α → NMap β) (hf : ∀ m a, nwf d m = true → nwf d (f m a) = true)
    (l : List α) {m : NMap β} (h : nwf d m = true) : nwf d (l.foldl f m) = true := by
  induction l generalizing m with
  | nil => exact h
  | cons a l ih => exact ih (hf m a h)
theorem evolves_lostCh {s0 s : State} (h : Evolves s0 s) (c : NMap Bool) (hc : nwf false s.mem.lostCh = true → nwf false c = true) :
    Evolves s0 { s with mem := { s.mem with lostCh := c } } := by
  refine { h with mem := fun k => ?_ }
  have k := memwf_iff.1 (h.mem k)
  exact memwf_iff.2 ⟨k.1, k.2.1, k.2.2.1, k.2.2.2.1, k.2.2.2.2.1, hc k.2.2.2.2.2⟩
theorem evolves_mem_keep {s0 s : State} (h : Evolves s0 s) (d : List Delta) (p : Bool) (sp : Nat) :
    Evolves s0 { s with mem := { s.mem with deltas := d, prot := p, spare := sp } } := { h with mem := h.mem }
theorem evolves_floor {s0 s : State} (h : Evolves s0 s) (k : Nat) : Evolves s0 { s with fuse := { s.fuse with floor := max s.fuse.floor k } } :=
  { h with floor := Nat.le_trans h.floor (Nat.le_max_left _ _) }
theorem evolves_at2 {s0 : State} {α : Type} {v r : α × State} (h : Evolves s0 v.2) (e : r = v) : Evolves s0 r.2 := e ▸ h
theorem evolves_at3 {s0 : State} {α β : Type} {v r : α × β × State} (h : Evolves s0 v.2.2) (e : r = v) : Evolves s0 r.2.2 := e ▸ h
theorem evolves_at4 {s0 : State} {α β γ : Type} {v r : α × β × γ × State} (h : Evolves s0 v.2.2.2) (e : r = v) : Evolves s0 r.2.2.2 := e ▸ h
theorem evolves_ite {s0 : State} {α : Type} {c : Prop} [Decidable c] {a b : α × State} (h : Evolves s0 a.2) (k : Evolves s0 b.2) :
    Evolves s0 (if c then a else b).2 := by
  split
  · exact h
  · exact k
theorem evolves_triple {s0 : State} {α β γ δ : Type} (f : α → γ) (g : α → β → δ) (r : α × β × State) (k : Evolves s0 r.2.2) :
    Evolves s0 (f r.1, g r.1 r.2.1, r.2.2).2.2 := k

end Sys2Proof.Machine
end

