-- ==== Sys2Proof/Laws/EvolveMemory.lean ====
section
/-!
SUPPORT. Laws/EvolveMemory.lean: one lemma for each operation that answers a state, over memory, sampling, translation caches, packets, admission and queue operations:
what Evolves says of a machine holds after it too.
-/
namespace Sys2Proof.Machine
open Sys2Proof

theorem telAdd_evolves {s0} (x0 x1 x2) (h : Evolves s0 x0) : Evolves s0 (telAdd x0 x1 x2) := by
  unfold telAdd
  repeat' first
    | with_reducible assumption
    | with_reducible apply setF_evolves
    | split
    | dsimp only
    | unfold Evolves; dsimp only
    | unfold Evolves

theorem telEvent_evolves {s0} (x0 x1 x2 x3) (h : Evolves s0 x0) : Evolves s0 (telEvent x0 x1 x2 x3) := by
  unfold telEvent
  repeat' first
    | with_reducible assumption
    | with_reducible apply telAdd_evolves
    | with_reducible refine foldl_evolves _ _ _ (fun _ _ _ => ?_) ?_
    | with_reducible refine foldl2_evolves _ _ _ (fun _ _ _ => ?_) ?_
    | with_reducible refine foldl3_evolves _ _ _ (fun _ _ _ => ?_) ?_
    | with_reducible refine foldl4_evolves _ _ _ (fun _ _ _ => ?_) ?_
    | split
    | dsimp only
    | unfold Evolves; dsimp only
    | unfold Evolves

theorem countTime_evolves {s0} (x0 x1) (h : Evolves s0 x0) : Evolves s0 (countTime x0 x1) := by
  unfold countTime
  repeat' first
    | with_reducible assumption
    | with_reducible apply telEvent_evolves
    | with_reducible refine foldl_evolves _ _ _ (fun _ _ _ => ?_) ?_
    | with_reducible refine foldl2_evolves _ _ _ (fun _ _ _ => ?_) ?_
    | with_reducible refine foldl3_evolves _ _ _ (fun _ _ _ => ?_) ?_
    | with_reducible refine foldl4_evolves _ _ _ (fun _ _ _ => ?_) ?_
    | split
    | dsimp only
    | unfold Evolves; dsimp only
    | unfold Evolves

theorem advance_evolves {s0 : State} (s : State) (t : Nat) (h : Evolves s0 s) : Evolves s0 (advance s t) := by
  unfold advance
  split
  · exact id h
  · rename_i hl
    have k := countTime_evolves s (t - s.nowNs) h
    have hl' : s.nowNs ≤ t := by omega
    exact { k with time := Nat.le_trans h.time hl' }

theorem attrib_evolves {s0} (x0 x1 x2 x3) (h : Evolves s0 x0) : Evolves s0 (attrib x0 x1 x2 x3) := by
  unfold attrib
  repeat' first
    | with_reducible assumption
    | split
    | dsimp only
    | unfold Evolves; dsimp only
    | unfold Evolves

theorem attribOwn_evolves {s0} (x0 x1) (h : Evolves s0 x0) : Evolves s0 (attribOwn x0 x1) := by
  unfold attribOwn
  repeat' first
    | with_reducible assumption
    | split
    | dsimp only
    | unfold Evolves; dsimp only
    | unfold Evolves

theorem attribPpa_evolves {s0} (x0 x1) (h : Evolves s0 x0) : Evolves s0 (attribPpa x0 x1) := by
  unfold attribPpa
  repeat' first
    | with_reducible assumption
    | split
    | dsimp only
    | unfold Evolves; dsimp only
    | unfold Evolves

theorem bump_evolves {s0} (x0 x1 x2 x3) (h : Evolves s0 x0) : Evolves s0 (bump x0 x1 x2 x3) := by
  unfold bump
  repeat' first
    | with_reducible assumption
    | with_reducible apply telEvent_evolves
    | with_reducible apply setF_evolves
    | split
    | dsimp only
    | unfold Evolves; dsimp only
    | unfold Evolves

theorem bumpSat_evolves {s0} (x0 x1 x2 x3) (h : Evolves s0 x0) : Evolves s0 (bumpSat x0 x1 x2 x3) := by
  unfold bumpSat
  repeat' first
    | with_reducible assumption
    | with_reducible apply setF_evolves
    | split
    | dsimp only
    | unfold Evolves; dsimp only
    | unfold Evolves

theorem commitTable_evolves {s0} (x0 x1) (h : Evolves s0 x0) : Evolves s0 (commitTable x0 x1) := by
  unfold commitTable
  refine foldl_evolves _ _ _ (fun s e h => ?_) h
  dsimp only
  split
  · rename_i f n _
    have k := setF_evolves s f e.2 n h
    exact { k with shadow := fun x => sorted_ndel (h.shadow x) _ }
  · exact id h

theorem setB_evolves {s0} (x0 x1 x2 x3) (h : Evolves s0 x0) : Evolves s0 (setB x0 x1 x2 x3) := by
  unfold setB
  repeat' first
    | with_reducible assumption
    | with_reducible apply setF_evolves
    | split
    | dsimp only
    | unfold Evolves; dsimp only
    | unfold Evolves

theorem cancelRepair_evolves {s0} (x0 x1) (h : Evolves s0 x0) : Evolves s0 (cancelRepair x0 x1) := by
  unfold cancelRepair
  repeat' first
    | with_reducible assumption
    | split
    | dsimp only
    | unfold Evolves; dsimp only
    | unfold Evolves

theorem materialise_evolves {s0} (x0 x1) (h : Evolves s0 x0) : Evolves s0 (materialise x0 x1) := by
  unfold materialise
  repeat' first
    | with_reducible assumption
    | with_reducible apply setZbit_evolves
    | with_reducible apply zeroBlock_evolves
    | split
    | dsimp only
    | unfold Evolves; dsimp only
    | unfold Evolves

theorem hwPutByte_evolves {s0} (x0 x1 x2 x3) (h : Evolves s0 x0) : Evolves s0 (hwPutByte x0 x1 x2 x3) := by
  unfold hwPutByte
  split
  · exact id h
  extract_lets s m
  have k : Evolves s0 s := cancelRepair_evolves _ _ (materialise_evolves _ _ h)
  clear_value s
  split
  · exact id h
  · exact putMeta_evolves _ _ _ (putByte_evolves _ _ _ k)

theorem zWriteBack_evolves {s0} (x0 x1) (h : Evolves s0 x0) : Evolves s0 (zWriteBack x0 x1) := by
  unfold zWriteBack
  repeat' first
    | with_reducible assumption
    | with_reducible apply putMeta_evolves
    | with_reducible apply cancelRepair_evolves
    | split
    | dsimp only
    | unfold Evolves; dsimp only
    | unfold Evolves

theorem unpoisonWhole_evolves {s0} (x0 x1 x2) (h : Evolves s0 x0) : Evolves s0 (unpoisonWhole x0 x1 x2) := by
  unfold unpoisonWhole
  refine foldl_evolves _ _ _ (fun s i h => ?_) h
  extract_lets a
  split
  · split
    · exact putMeta_evolves _ _ _ h
    · exact id h
  · exact id h

theorem hwWriteGo_evolves {s0} (x0 : State) (x1 : HwKey) (x2 : Nat) (x3 : List Byte) (h : Evolves s0 x0) : Evolves s0 (hwWriteGo x0 x1 x2 x3) := by
  induction x3 generalizing x0 x2 with
  | nil => exact id h
  | cons b bs ih => exact ih _ _ (hwPutByte_evolves _ _ _ _ h)

theorem hwWrite_evolves {s0} (x0 x1 x2 x3) (h : Evolves s0 x0) : Evolves s0 (hwWrite x0 x1 x2 x3) := by
  unfold hwWrite
  repeat' first
    | with_reducible assumption
    | with_reducible apply unpoisonWhole_evolves
    | with_reducible apply hwWriteGo_evolves
    | split
    | dsimp only
    | unfold Evolves; dsimp only
    | unfold Evolves

theorem setRing_evolves {s0} (x0 x1 x2) (h : Evolves s0 x0) : Evolves s0 (setRing x0 x1 x2) := by
  unfold setRing
  repeat' first
    | with_reducible assumption
    | split
    | dsimp only
    | unfold Evolves; dsimp only
    | unfold Evolves

theorem ringPush_evolves {s0} (x0 x1 x2) (h : Evolves s0 x0) : Evolves s0 (ringPush x0 x1 x2) := by
  unfold ringPush
  repeat' first
    | with_reducible assumption
    | with_reducible apply bumpSat_evolves
    | with_reducible apply hwWrite_evolves
    | with_reducible apply setRing_evolves
    | split
    | dsimp only
    | unfold Evolves; dsimp only
    | unfold Evolves

theorem logErr_evolves {s0} (x0 x1 x2 x3) (h : Evolves s0 x0) : Evolves s0 (logErr x0 x1 x2 x3) := by
  unfold logErr
  repeat' first
    | with_reducible assumption
    | with_reducible apply ringPush_evolves
    | split
    | dsimp only
    | unfold Evolves; dsimp only
    | unfold Evolves

theorem logRas_evolves {s0} (x0 x1 x2) (h : Evolves s0 x0) : Evolves s0 (logRas x0 x1 x2) := by
  unfold logRas
  repeat' first
    | with_reducible assumption
    | with_reducible apply logErr_evolves
    | split
    | dsimp only
    | unfold Evolves; dsimp only
    | unfold Evolves

theorem mapGranLostAt_evolves {s0} (x0 x1 x2) (h : Evolves s0 x0) : Evolves s0 (mapGranLostAt x0 x1 x2) := by
  unfold mapGranLostAt
  repeat' first
    | with_reducible assumption
    | with_reducible apply putMeta_evolves
    | with_reducible apply logRas_evolves
    | with_reducible apply loseMapGran_evolves
    | split
    | dsimp only
    | unfold Evolves; dsimp only
    | unfold Evolves

theorem queueRepair_evolves {s0} (x0 x1) (h : Evolves s0 x0) : Evolves s0 (queueRepair x0 x1) := by
  unfold queueRepair
  repeat' first
    | with_reducible assumption
    | with_reducible apply bumpSat_evolves
    | split
    | dsimp only
    | unfold Evolves; dsimp only
    | unfold Evolves

theorem logCe_evolves {s0} (x0 x1 x2 x3) (h : Evolves s0 x0) : Evolves s0 (logCe x0 x1 x2 x3) := by
  unfold logCe
  repeat' first
    | with_reducible assumption
    | with_reducible apply bumpSat_evolves
    | with_reducible apply setF_evolves
    | with_reducible apply setB_evolves
    | split
    | dsimp only
    | unfold Evolves; dsimp only
    | unfold Evolves

theorem noteCe_evolves {s0} (x0 x1 x2) (h : Evolves s0 x0) : Evolves s0 (noteCe x0 x1 x2) := by
  unfold noteCe
  repeat' first
    | with_reducible assumption
    | with_reducible apply bump_evolves
    | with_reducible apply queueRepair_evolves
    | with_reducible apply logCe_evolves
    | split
    | dsimp only
    | unfold Evolves; dsimp only
    | unfold Evolves

theorem noteUe_evolves {s0} (x0 x1) (h : Evolves s0 x0) : Evolves s0 (noteUe x0 x1) := by
  unfold noteUe
  repeat' first
    | with_reducible assumption
    | with_reducible apply bump_evolves
    | split
    | dsimp only
    | unfold Evolves; dsimp only
    | unfold Evolves

theorem zFill_evolves {s0} (x0 x1) (h : Evolves s0 x0) : Evolves s0 (zFill x0 x1) := by
  unfold zFill
  repeat' first
    | with_reducible assumption
    | with_reducible apply settleDeltas_evolves
    | with_reducible apply bump_evolves
    | with_reducible apply mapGranLostAt_evolves
    | with_reducible apply noteCe_evolves
    | with_reducible apply noteUe_evolves
    | with_reducible apply logRas_evolves
    | with_reducible apply putMeta_evolves
    | split
    | dsimp only
    | unfold Evolves; dsimp only
    | unfold Evolves

theorem zTouch_evolves {s0} (x0 x1 x2) (h : Evolves s0 x0) : Evolves s0 (zTouch x0 x1 x2) := by
  have keep : ∀ {s : State} (z : NMap (List (Nat × Bool))), Evolves s0 s → Evolves s0 { s with mem := { s.mem with zcache := z } } :=
    fun z h => { h with mem := h.mem }
  unfold zTouch
  split
  · exact id h
  dsimp only
  split
  · exact keep _ h
  · refine keep _ (zFill_evolves _ _ ?_)
    split
    · exact id h
    split
    · exact zWriteBack_evolves _ _ h
    · exact id h

theorem yieldGran_evolves {s0} (x0 x1 x2 x3) (h : Evolves s0 x0) : Evolves s0 (yieldGran x0 x1 x2 x3).2 := by
  unfold yieldGran
  repeat' first
    | with_reducible assumption
    | with_reducible apply freshBytes_evolves
    | split
    | dsimp only
    | unfold Evolves; dsimp only
    | unfold Evolves

theorem mapGranLost_evolves {s0} (x0 x1) (h : Evolves s0 x0) : Evolves s0 (mapGranLost x0 x1) := by
  unfold mapGranLost
  repeat' first
    | with_reducible assumption
    | with_reducible apply mapGranLostAt_evolves
    | split
    | dsimp only
    | unfold Evolves; dsimp only
    | unfold Evolves

theorem poisonInPlace_evolves {s0} (x0 x1) (h : Evolves s0 x0) : Evolves s0 (poisonInPlace x0 x1) := by
  unfold poisonInPlace
  repeat' first
    | with_reducible assumption
    | with_reducible apply putMeta_evolves
    | with_reducible apply putBytes_evolves
    | split
    | dsimp only
    | unfold Evolves; dsimp only
    | unfold Evolves

theorem uePoison_evolves {s0} (x0 x1) (h : Evolves s0 x0) : Evolves s0 (uePoison x0 x1).2 := by
  unfold uePoison
  repeat' first
    | with_reducible assumption
    | with_reducible apply mapGranLost_evolves
    | with_reducible apply logRas_evolves
    | with_reducible apply poisonInPlace_evolves
    | split
    | dsimp only
    | unfold Evolves; dsimp only
    | unfold Evolves

theorem reconstruct_evolves {s0} (x0 x1 x2 x3) (h : Evolves s0 x0) : Evolves s0 (reconstruct x0 x1 x2 x3).2 := by
  unfold reconstruct
  repeat' first
    | with_reducible assumption
    | with_reducible apply settleDeltas_evolves
    | with_reducible apply bump_evolves
    | with_reducible apply logRas_evolves
    | with_reducible apply putMeta_evolves
    | with_reducible apply yieldGran_evolves
    | with_reducible apply uePoison_evolves
    | split
    | dsimp only
    | unfold Evolves; dsimp only
    | unfold Evolves

theorem noteGuard_evolves {s0} (x0 x1 x2 x3) (h : Evolves s0 x0) : Evolves s0 (noteGuard x0 x1 x2 x3) := by
  unfold noteGuard
  repeat' first
    | with_reducible assumption
    | with_reducible apply logErr_evolves
    | split
    | dsimp only
    | unfold Evolves; dsimp only
    | unfold Evolves

theorem memReadX_evolves {s0} (x0 x1 x2 x3 x4) (h : Evolves s0 x0) : Evolves s0 (memReadX x0 x1 x2 x3 x4).2 := by
  unfold memReadX
  repeat' first
    | with_reducible assumption
    | with_reducible apply bump_evolves
    | with_reducible apply attribPpa_evolves
    | with_reducible apply zTouch_evolves
    | with_reducible apply reconstruct_evolves
    | with_reducible apply noteGuard_evolves
    | with_reducible apply yieldGran_evolves
    | with_reducible apply noteCe_evolves
    | with_reducible apply noteUe_evolves
    | with_reducible apply uePoison_evolves
    | split
    | dsimp only
    | unfold Evolves; dsimp only
    | unfold Evolves

theorem memRead_evolves {s0} (x0 x1 x2 x3) (h : Evolves s0 x0) : Evolves s0 (memRead x0 x1 x2 x3).2 := by
  unfold memRead
  repeat' first
    | with_reducible assumption
    | with_reducible apply memReadX_evolves
    | split
    | dsimp only
    | unfold Evolves; dsimp only
    | unfold Evolves

theorem hwReadGo_evolves {s0} (x0 : Nat) (x1 : State) (x2 : HwKey) (x3 : Nat) (h : Evolves s0 x1) : Evolves s0 (hwReadGo x0 x1 x2 x3).2.2 := by
  induction x0 generalizing x1 x3 with
  | zero => exact id h
  | succ n ih =>
    unfold hwReadGo
    split <;> first | exact ih _ _ h | exact ih _ _ (memRead_evolves _ _ _ _ h)

theorem hwRead_evolves {s0} (x0 x1 x2 x3) (h : Evolves s0 x0) : Evolves s0 (hwRead x0 x1 x2 x3).2.2 := by
  unfold hwRead
  repeat' first
    | with_reducible assumption
    | with_reducible apply hwReadGo_evolves
    | split
    | dsimp only
    | unfold Evolves; dsimp only
    | unfold Evolves

theorem logRasStack_evolves {s0} (x0 x1 x2) (h : Evolves s0 x0) : Evolves s0 (logRasStack x0 x1 x2) := by
  unfold logRasStack
  repeat' first
    | with_reducible assumption
    | with_reducible apply logErr_evolves
    | split
    | dsimp only
    | unfold Evolves; dsimp only
    | unfold Evolves

theorem storeMap_evolves {s0} (x0 x1 x2) (h : Evolves s0 x0) : Evolves s0 (storeMap x0 x1 x2) := by
  unfold storeMap
  repeat' first
    | with_reducible assumption
    | with_reducible apply setZbit_evolves
    | with_reducible refine foldl_evolves _ _ _ (fun _ _ _ => ?_) ?_
    | with_reducible refine foldl2_evolves _ _ _ (fun _ _ _ => ?_) ?_
    | with_reducible refine foldl3_evolves _ _ _ (fun _ _ _ => ?_) ?_
    | with_reducible refine foldl4_evolves _ _ _ (fun _ _ _ => ?_) ?_
    | split
    | dsimp only
    | unfold Evolves; dsimp only
    | unfold Evolves

theorem memStore_evolves {s0} (x0 x1 x2 x3 x4) (h : Evolves s0 x0) : Evolves s0 (memStore x0 x1 x2 x3 x4) := by
  unfold memStore
  repeat' first
    | with_reducible assumption
    | with_reducible apply bump_evolves
    | with_reducible apply attribPpa_evolves
    | with_reducible apply zTouch_evolves
    | with_reducible apply cancelRepair_evolves
    | with_reducible apply materialise_evolves
    | with_reducible apply poisonInPlace_evolves
    | with_reducible apply storeMap_evolves
    | with_reducible apply putMeta_evolves
    | with_reducible apply putBytes_evolves
    | split
    | dsimp only
    | unfold Evolves; dsimp only
    | unfold Evolves

theorem memStoreBlock_evolves {s0} (x0 x1 x2 x3 x4) (h : Evolves s0 x0) : Evolves s0 (memStoreBlock x0 x1 x2 x3 x4) := by
  unfold memStoreBlock
  repeat' first
    | with_reducible assumption
    | with_reducible apply zTouch_evolves
    | with_reducible apply cancelRepair_evolves
    | with_reducible apply setZbit_evolves
    | with_reducible apply memStore_evolves
    | with_reducible refine foldl_evolves _ _ _ (fun _ _ _ => ?_) ?_
    | with_reducible refine foldl2_evolves _ _ _ (fun _ _ _ => ?_) ?_
    | with_reducible refine foldl3_evolves _ _ _ (fun _ _ _ => ?_) ?_
    | with_reducible refine foldl4_evolves _ _ _ (fun _ _ _ => ?_) ?_
    | split
    | dsimp only
    | unfold Evolves; dsimp only
    | unfold Evolves

theorem ringHead_evolves {s0} (x0 x1 x2 x3) (h : Evolves s0 x0) : Evolves s0 (ringHead x0 x1 x2 x3) := by
  unfold ringHead
  repeat' first
    | with_reducible assumption
    | with_reducible apply setRing_evolves
    | split
    | dsimp only
    | unfold Evolves; dsimp only
    | unfold Evolves

theorem zLineError_evolves {s0} (x0 x1) (h : Evolves s0 x0) : Evolves s0 (zLineError x0 x1) := by
  unfold zLineError
  repeat' first
    | with_reducible assumption
    | with_reducible apply zTouch_evolves
    | with_reducible apply mapGranLostAt_evolves
    | split
    | dsimp only
    | unfold Evolves; dsimp only
    | unfold Evolves

theorem sampleDraw_evolves {s0} (x0 x1) (h : Evolves s0 x0) : Evolves s0 (sampleDraw x0 x1) := by
  unfold sampleDraw
  repeat' first
    | with_reducible assumption
    | with_reducible apply fresh_evolves
    | with_reducible apply bumpSat_evolves
    | split
    | dsimp only
    | unfold Evolves; dsimp only
    | unfold Evolves

theorem drawDesc_evolves {s0} (x0 x1) (h : Evolves s0 x0) : Evolves s0 (drawDesc x0 x1) := by
  unfold drawDesc
  repeat' first
    | with_reducible assumption
    | with_reducible apply sampleDraw_evolves
    | split
    | dsimp only
    | unfold Evolves; dsimp only
    | unfold Evolves

theorem drawReq_evolves {s0} (x0 x1 x2) (h : Evolves s0 x0) : Evolves s0 (drawReq x0 x1 x2) := by
  unfold drawReq
  repeat' first
    | with_reducible assumption
    | with_reducible apply sampleDraw_evolves
    | split
    | dsimp only
    | unfold Evolves; dsimp only
    | unfold Evolves

theorem modTag_evolves {s0} (x0 x1 x2 x3) (h : Evolves s0 x0) : Evolves s0 (modTag x0 x1 x2 x3) := by
  unfold modTag
  repeat' first
    | with_reducible assumption
    | split
    | dsimp only
    | unfold Evolves; dsimp only
    | unfold Evolves

theorem sampleStamp_evolves {s0} (x0 x1 x2 x3 x4) (h : Evolves s0 x0) : Evolves s0 (sampleStamp x0 x1 x2 x3 x4) := by
  unfold sampleStamp
  repeat' first
    | with_reducible assumption
    | with_reducible apply modTag_evolves
    | split
    | dsimp only
    | unfold Evolves; dsimp only
    | unfold Evolves

theorem sampleRecord_evolves {s0} (x0 x1 x2 x3 x4) (h : Evolves s0 x4) : Evolves s0 (sampleRecord x0 x1 x2 x3 x4).2 := by
  unfold sampleRecord
  repeat' first
    | with_reducible assumption
    | with_reducible apply freshBytes_evolves
    | with_reducible refine foldl_evolves _ _ _ (fun _ _ _ => ?_) ?_
    | with_reducible refine foldl2_evolves _ _ _ (fun _ _ _ => ?_) ?_
    | with_reducible refine foldl3_evolves _ _ _ (fun _ _ _ => ?_) ?_
    | with_reducible refine foldl4_evolves _ _ _ (fun _ _ _ => ?_) ?_
    | split
    | dsimp only
    | unfold Evolves; dsimp only
    | unfold Evolves

theorem sampleEnd_evolves {s0} (x0 x1 x2 x3 x4 x5) (h : Evolves s0 x0) : Evolves s0 (sampleEnd x0 x1 x2 x3 x4 x5) := by
  unfold sampleEnd
  repeat' first
    | with_reducible assumption
    | with_reducible apply sampleStamp_evolves
    | with_reducible apply sampleRecord_evolves
    | with_reducible apply ringPush_evolves
    | split
    | dsimp only
    | unfold Evolves; dsimp only
    | unfold Evolves

theorem endReq_evolves {s0} (x0 x1 x2 x3 x4) (h : Evolves s0 x0) : Evolves s0 (endReq x0 x1 x2 x3 x4) := by
  unfold endReq
  repeat' first
    | with_reducible assumption
    | with_reducible apply sampleEnd_evolves
    | split
    | dsimp only
    | unfold Evolves; dsimp only
    | unfold Evolves

theorem sampleXlate_evolves {s0} (x0 x1 x2 x3 x4) (h : Evolves s0 x0) : Evolves s0 (sampleXlate x0 x1 x2 x3 x4) := by
  unfold sampleXlate
  repeat' first
    | with_reducible assumption
    | with_reducible apply sampleStamp_evolves
    | with_reducible apply modTag_evolves
    | split
    | dsimp only
    | unfold Evolves; dsimp only
    | unfold Evolves

theorem sampleFirst_evolves {s0} (x0 x1 x2 x3) (h : Evolves s0 x0) : Evolves s0 (sampleFirst x0 x1 x2 x3) := by
  unfold sampleFirst
  repeat' first
    | with_reducible assumption
    | with_reducible apply sampleXlate_evolves
    | with_reducible refine foldl_evolves _ _ _ (fun _ _ _ => ?_) ?_
    | with_reducible refine foldl2_evolves _ _ _ (fun _ _ _ => ?_) ?_
    | with_reducible refine foldl3_evolves _ _ _ (fun _ _ _ => ?_) ?_
    | with_reducible refine foldl4_evolves _ _ _ (fun _ _ _ => ?_) ?_
    | split
    | dsimp only
    | unfold Evolves; dsimp only
    | unfold Evolves

theorem stampReq_evolves {s0} (x0 x1 x2) (h : Evolves s0 x0) : Evolves s0 (stampReq x0 x1 x2) := by
  unfold stampReq
  repeat' first
    | with_reducible assumption
    | with_reducible apply sampleStamp_evolves
    | split
    | dsimp only
    | unfold Evolves; dsimp only
    | unfold Evolves

theorem cacheDrop_evolves {s0} (x0 x1 x2 x3) (h : Evolves s0 x0) : Evolves s0 (cacheDrop x0 x1 x2 x3) := by
  unfold cacheDrop
  repeat' first
    | with_reducible assumption
    | split
    | dsimp only
    | unfold Evolves; dsimp only
    | unfold Evolves

theorem cacheDropTenant_evolves {s0} (x0 x1) (h : Evolves s0 x0) : Evolves s0 (cacheDropTenant x0 x1) := by
  unfold cacheDropTenant
  repeat' first
    | with_reducible assumption
    | split
    | dsimp only
    | unfold Evolves; dsimp only
    | unfold Evolves

theorem cacheFill_evolves {s0} (x0 x1 x2 x3 x4 x5) (h : Evolves s0 x0) : Evolves s0 (cacheFill x0 x1 x2 x3 x4 x5) := by
  unfold cacheFill
  repeat' first
    | with_reducible assumption
    | split
    | dsimp only
    | unfold Evolves; dsimp only
    | unfold Evolves

theorem residentBit_evolves {s0} (x0 x1 : _) (h : Evolves s0 x0) : Evolves s0 (residentBit x0 x1).2.2 := by
  unfold residentBit
  exact evolves_triple (fun b => bitOf (leToNat b) (x1 % 8)) (fun _ e => e) (hwRead x0 .device (getF x0 Reg.xtuResmapBase_base + x1 / 8) 1) (hwRead_evolves _ _ _ _ h)

theorem poisonEll_evolves {s0} (x0 x1 x2) (h : Evolves s0 x0) : Evolves s0 (poisonEll x0 x1 x2) := by
  unfold poisonEll
  repeat' first
    | with_reducible assumption
    | with_reducible apply poisonInPlace_evolves
    | with_reducible apply materialise_evolves
    | with_reducible refine foldl_evolves _ _ _ (fun _ _ _ => ?_) ?_
    | with_reducible refine foldl2_evolves _ _ _ (fun _ _ _ => ?_) ?_
    | with_reducible refine foldl3_evolves _ _ _ (fun _ _ _ => ?_) ?_
    | with_reducible refine foldl4_evolves _ _ _ (fun _ _ _ => ?_) ?_
    | split
    | dsimp only
    | unfold Evolves; dsimp only
    | unfold Evolves

theorem resmapLost_evolves {s0} (x0 x1 x2) (h : Evolves s0 x0) : Evolves s0 (resmapLost x0 x1 x2) := by
  have aux : ∀ (l : List Nat) (bs : List Byte) (a : Nat), Evolves s0 (hwWrite (l.foldl (fun s i => poisonEll s x1 (x2 / 512 * 512 + i)) x0) .device a bs) :=
    fun l bs a => hwWrite_evolves _ _ _ _ (foldl_evolves _ _ _ (fun s i h => poisonEll_evolves s x1 _ h) h)
  exact aux _ _ _

theorem checkResident_evolves {s0} (x0 x1 x2 x3 x4 x5) (h : Evolves s0 x0) : Evolves s0 (checkResident x0 x1 x2 x3 x4 x5).2 := by
  unfold checkResident
  extract_lets ell iova b
  have k : Evolves s0 b.2.2 := evolves_at3 (residentBit_evolves _ _ h) rfl
  clear_value b
  split
  · split
    · exact id k
    split <;> exact id k
  · exact resmapLost_evolves _ _ _ k

theorem readRec_evolves {s0} (x0 x1 x2 x3 : _) (h : Evolves s0 x0) : Evolves s0 (readRec x0 x1 x2 x3).2.2 := by
  unfold readRec
  exact evolves_triple (fun b => parseExt (leToNat b)) (fun _ e => e) (hwRead x0 x1 (x2 + x3 * 32) 32) (hwRead_evolves _ _ _ _ h)

theorem searchGo_evolves {s0} (x0 : Nat) (x1 : State) (x2 x3 x4 x5 x6) (h : Evolves s0 x1) : Evolves s0 (searchGo x0 x1 x2 x3 x4 x5 x6).2.2.2 := by
  induction x0 generalizing x1 x5 x6 with
  | zero => exact id h
  | succ n ih =>
    unfold searchGo
    extract_lets mid r
    have k : Evolves s0 r.2.2 := evolves_at3 (readRec_evolves _ _ _ _ h) rfl
    clear_value r
    split
    · exact id h
    split
    · split
      · exact ih _ _ _ k
      · exact ih _ _ _ k
    · exact id k

theorem searchRecs_evolves {s0} (x0 x1 x2 x3 x4) (h : Evolves s0 x0) : Evolves s0 (searchRecs x0 x1 x2 x3 x4).2 := by
  unfold searchRecs
  extract_lets r q
  have k : Evolves s0 r.2.2.2 := evolves_at4 (searchGo_evolves _ _ _ _ _ _ _ h) rfl
  have kq : Evolves s0 q.2.2 := evolves_at3 (readRec_evolves _ _ _ _ k) rfl
  clear_value r q
  split
  · split
    · exact id k
    · split <;> exact id kq
  · exact id k

theorem searchTable_evolves {s0} (x0 x1 x2) (h : Evolves s0 x0) : Evolves s0 (searchTable x0 x1 x2).2 := by
  unfold searchTable
  repeat' first
    | with_reducible assumption
    | with_reducible apply searchRecs_evolves
    | split
    | dsimp only
    | unfold Evolves; dsimp only
    | unfold Evolves

theorem logXtu_evolves {s0} (x0 x1 x2 x3) (h : Evolves s0 x0) : Evolves s0 (logXtu x0 x1 x2 x3) := by
  unfold logXtu
  repeat' first
    | with_reducible assumption
    | with_reducible apply logErr_evolves
    | split
    | dsimp only
    | unfold Evolves; dsimp only
    | unfold Evolves

theorem findRec_evolves {s0} (x0 x1 x2 x3) (h : Evolves s0 x0) : Evolves s0 (findRec x0 x1 x2 x3).2 := by
  unfold findRec
  repeat' first
    | with_reducible assumption
    | with_reducible apply bump_evolves
    | with_reducible apply searchTable_evolves
    | with_reducible apply logXtu_evolves
    | with_reducible apply cacheFill_evolves
    | split
    | dsimp only
    | unfold Evolves; dsimp only
    | unfold Evolves

theorem readRgn_evolves {s0} (x0 x1 : _) (h : Evolves s0 x0) : Evolves s0 (readRgn x0 x1).2.2 := by
  unfold readRgn
  exact evolves_triple (fun b => parseRgn (leToNat b)) (fun _ e => e) (hwRead x0 .device (rgnPpa x0 x1) 32) (hwRead_evolves _ _ _ _ h)

theorem recVia_evolves {s0} (x0 x1 x2 x3 x4) (h : Evolves s0 x0) : Evolves s0 (recVia x0 x1 x2 x3 x4).2 := by
  unfold recVia
  repeat' first
    | with_reducible assumption
    | with_reducible apply findRec_evolves
    | split
    | dsimp only
    | unfold Evolves; dsimp only
    | unfold Evolves

theorem setResident_evolves {s0} (x0 x1 x2) (h : Evolves s0 x0) : Evolves s0 (setResident x0 x1 x2) := by
  unfold setResident
  repeat' first
    | with_reducible assumption
    | with_reducible apply hwRead_evolves
    | with_reducible apply hwWrite_evolves
    | split
    | dsimp only
    | unfold Evolves; dsimp only
    | unfold Evolves

theorem winCached_evolves {s0} (x0 x1 x2 x3 x4 x5) (h : Evolves s0 x0) : Evolves s0 (winCached x0 x1 x2 x3 x4 x5).2 := by
  unfold winCached
  repeat' first
    | with_reducible assumption
    | with_reducible apply logErr_evolves
    | split
    | dsimp only
    | unfold Evolves; dsimp only
    | unfold Evolves

theorem winHome_evolves {s0} (x0 x1 x2 x3 x4 x5) (h : Evolves s0 x0) : Evolves s0 (winHome x0 x1 x2 x3 x4 x5).2 := by
  unfold winHome
  extract_lets i q
  have k : Evolves s0 q.2.2 := evolves_at3 (readRgn_evolves _ _ h) rfl
  clear_value q
  split
  · exact id h
  split
  · split
    · exact id k
    split
    · exact id k
    split
    · exact id k
    extract_lets f
    have kf : Evolves s0 f.2 := evolves_at2 (searchRecs_evolves _ _ _ _ _ k) rfl
    clear_value f
    split
    · repeat' first
        | exact id kf
        | exact logXtu_evolves _ _ _ _ kf
        | split
    · exact id kf
    · exact logXtu_evolves _ _ _ _ kf
  · exact logXtu_evolves _ _ _ _ k

theorem xlateVia_evolves {s0} (x0 x1 x2 x3 x4 x5) (h : Evolves s0 x0) : Evolves s0 (xlateVia x0 x1 x2 x3 x4 x5).2.2 := by
  unfold xlateVia
  extract_lets ell q
  have k : Evolves s0 q.2 := evolves_at2 (recVia_evolves _ _ _ _ _ h) rfl
  clear_value q
  by_cases c : ngetD false x0.xtu.tblLost x2 = true
  · rw [if_pos c]; exact id h
  rw [if_neg c]
  by_cases c : (!tenantActive x0 x2) = true
  · rw [if_pos c]; exact id h
  rw [if_neg c]
  by_cases c : 2 ^ 52 ≤ x3
  · rw [if_pos c]; exact id h
  rw [if_neg c]
  by_cases c : x2 ∈ x0.sec.pendingLoad
  · rw [if_pos c]; exact id h
  rw [if_neg c]
  by_cases c : (!getB x0 Reg.smcLock_zmap_ready) = true
  · rw [if_pos c]; exact id h
  rw [if_neg c]
  obtain ⟨r, s⟩ := q
  cases r with
  | inr f => exact id k
  | inl p =>
    obtain ⟨r, a⟩ := p
    have k : Evolves s0 s := k
    clear c
    dsimp only
    split
    · repeat'
        first
        | exact id k
        | exact checkResident_evolves _ _ _ _ _ _ k
        | split
        | dsimp only
    · generalize hw : (if regionHome r.ppaEll = s.dev.node then winHome s x2 r.ppaEll (ell - r.pvaStart) x3 (boundVer x5 r.ppaEll)
          else winCached s x2 r.ppaEll (ell - r.pvaStart) x3 (boundVer x5 r.ppaEll) : WinRes × State) = w
      have kw : Evolves s0 w.2 := by
        rw [← hw]
        split
        · exact winHome_evolves _ _ _ _ _ _ k
        · exact winCached_evolves _ _ _ _ _ _ k
      repeat'
        first
        | exact id kw
        | split
        | dsimp only

theorem xlate_evolves {s0} (x0 x1 x2 x3 x4) (h : Evolves s0 x0) : Evolves s0 (xlate x0 x1 x2 x3 x4).2.2 := by
  unfold xlate
  repeat' first
    | with_reducible assumption
    | with_reducible apply xlateVia_evolves
    | split
    | dsimp only
    | unfold Evolves; dsimp only
    | unfold Evolves

theorem enterWest_evolves {s0} (x0 x1) (h : Evolves s0 x0) : Evolves s0 (enterWest x0 x1) := by
  unfold enterWest
  repeat' first
    | with_reducible assumption
    | split
    | dsimp only
    | unfold Evolves; dsimp only
    | unfold Evolves

theorem inject_evolves {s0} (x0 x1) (h : Evolves s0 x0) : Evolves s0 (inject x0 x1) := by
  unfold inject
  repeat' first
    | with_reducible assumption
    | with_reducible apply enterWest_evolves
    | split
    | dsimp only
    | unfold Evolves; dsimp only
    | unfold Evolves

theorem errRsp_evolves {s0} (x0 x1 x2 x3) (h : Evolves s0 x0) : Evolves s0 (errRsp x0 x1 x2 x3) := by
  unfold errRsp
  repeat' first
    | with_reducible assumption
    | with_reducible apply endReq_evolves
    | with_reducible apply inject_evolves
    | split
    | dsimp only
    | unfold Evolves; dsimp only
    | unfold Evolves

theorem setBkt_evolves {s0} (x0 x1 x2) (h : Evolves s0 x0) : Evolves s0 (setBkt x0 x1 x2) := by
  unfold setBkt
  repeat' first
    | with_reducible assumption
    | split
    | dsimp only
    | unfold Evolves; dsimp only
    | unfold Evolves

theorem debit_evolves {s0} (x0 x1 x2) (h : Evolves s0 x0) : Evolves s0 (debit x0 x1 x2) := by
  unfold debit
  repeat' first
    | with_reducible assumption
    | with_reducible apply setBkt_evolves
    | split
    | dsimp only
    | unfold Evolves; dsimp only
    | unfold Evolves

theorem decideCharge_evolves {s0} (x0 x1 x2 x3 x4) (h : Evolves s0 x0) : Evolves s0 (decideCharge x0 x1 x2 x3 x4).2 := by
  unfold decideCharge
  repeat' first
    | with_reducible assumption
    | with_reducible apply debit_evolves
    | with_reducible refine foldl_evolves _ _ _ (fun _ _ _ => ?_) ?_
    | with_reducible refine foldl2_evolves _ _ _ (fun _ _ _ => ?_) ?_
    | with_reducible refine foldl3_evolves _ _ _ (fun _ _ _ => ?_) ?_
    | with_reducible refine foldl4_evolves _ _ _ (fun _ _ _ => ?_) ?_
    | split
    | dsimp only
    | unfold Evolves; dsimp only
    | unfold Evolves

theorem countCls_evolves {s0} (x0 x1) (h : Evolves s0 x0) : Evolves s0 (countCls x0 x1) := by
  unfold countCls
  repeat' first
    | with_reducible assumption
    | with_reducible apply bump_evolves
    | split
    | dsimp only
    | unfold Evolves; dsimp only
    | unfold Evolves

theorem chargeInline_evolves {s0} (x0 x1 x2 x3) (h : Evolves s0 x0) : Evolves s0 (chargeInline x0 x1 x2 x3).2 := by
  unfold chargeInline
  repeat' first
    | with_reducible assumption
    | with_reducible apply decideCharge_evolves
    | with_reducible apply advance_evolves
    | with_reducible apply debit_evolves
    | with_reducible apply countCls_evolves
    | with_reducible refine foldl_evolves _ _ _ (fun _ _ _ => ?_) ?_
    | with_reducible refine foldl2_evolves _ _ _ (fun _ _ _ => ?_) ?_
    | with_reducible refine foldl3_evolves _ _ _ (fun _ _ _ => ?_) ?_
    | with_reducible refine foldl4_evolves _ _ _ (fun _ _ _ => ?_) ?_
    | split
    | dsimp only
    | unfold Evolves; dsimp only
    | unfold Evolves

theorem holdView_evolves {s0} (x0) (h : Evolves s0 x0) : Evolves s0 (holdView x0) := by
  unfold holdView
  repeat' first
    | with_reducible assumption
    | with_reducible apply setF_evolves
    | split
    | dsimp only
    | unfold Evolves; dsimp only
    | unfold Evolves

theorem holdWork_evolves {s0} (x0 x1 x2 x3 x4 x5) (h : Evolves s0 x0) : Evolves s0 (holdWork x0 x1 x2 x3 x4 x5) := by
  unfold holdWork
  repeat' first
    | with_reducible assumption
    | with_reducible apply holdView_evolves
    | with_reducible apply setB_evolves
    | with_reducible apply evolves_free
    | split
    | dsimp only
    | unfold Evolves; dsimp only
    | unfold Evolves

theorem redoWork_evolves {s0} (x0 x1 x2 x3 x4 x5) (h : Evolves s0 x0) : Evolves s0 (redoWork x0 x1 x2 x3 x4 x5) := by
  unfold redoWork
  repeat' first
    | with_reducible assumption
    | split
    | dsimp only
    | unfold Evolves; dsimp only
    | unfold Evolves

theorem addDesc_evolves {s0} (x0 x1) (h : Evolves s0 x0) : Evolves s0 (addDesc x0 x1) := by
  unfold addDesc
  repeat' first
    | with_reducible assumption
    | split
    | dsimp only
    | unfold Evolves; dsimp only
    | unfold Evolves

theorem setSlot_evolves {s0} (x0 x1 x2) (h : Evolves s0 x0) : Evolves s0 (setSlot x0 x1 x2) := by
  unfold setSlot
  repeat' first
    | with_reducible assumption
    | split
    | dsimp only
    | unfold Evolves; dsimp only
    | unfold Evolves

theorem modDesc_evolves {s0} (x0 x1 x2) (h : Evolves s0 x0) : Evolves s0 (modDesc x0 x1 x2) := by
  unfold modDesc
  repeat' first
    | with_reducible assumption
    | split
    | dsimp only
    | unfold Evolves; dsimp only
    | unfold Evolves

theorem readCtx_evolves {s0} (x0 x1 : _) (h : Evolves s0 x0) : Evolves s0 (readCtx x0 x1).2.2 := by
  unfold readCtx
  split
  · exact id h
  · exact evolves_triple (fun b => parseCtx (leToNat b)) (fun _ e => e) (hwRead x0 .device (ctxPpa x0 x1) 64) (hwRead_evolves _ _ _ _ h)

theorem putCtx_evolves {s0} (x0 x1 x2) (h : Evolves s0 x0) : Evolves s0 (putCtx x0 x1 x2) := by
  unfold putCtx
  repeat' first
    | with_reducible assumption
    | with_reducible apply hwWrite_evolves
    | split
    | dsimp only
    | unfold Evolves; dsimp only
    | unfold Evolves

theorem logQmg_evolves {s0} (x0 x1 x2 x3 x4 x5) (h : Evolves s0 x0) : Evolves s0 (logQmg x0 x1 x2 x3 x4 x5) := by
  unfold logQmg
  repeat' first
    | with_reducible assumption
    | with_reducible apply logErr_evolves
    | split
    | dsimp only
    | unfold Evolves; dsimp only
    | unfold Evolves

theorem queueError_evolves {s0} (x0 x1 x2 x3 x4) (h : Evolves s0 x0) : Evolves s0 (queueError x0 x1 x2 x3 x4) := by
  unfold queueError
  repeat' first
    | with_reducible assumption
    | with_reducible apply readCtx_evolves
    | with_reducible apply putCtx_evolves
    | with_reducible apply logQmg_evolves
    | split
    | dsimp only
    | unfold Evolves; dsimp only
    | unfold Evolves

theorem raiseIrq_evolves {s0} (x0 x1 x2) (h : Evolves s0 x0) : Evolves s0 (raiseIrq x0 x1 x2) := by
  unfold raiseIrq
  repeat' first
    | with_reducible assumption
    | with_reducible apply emit_evolves
    | with_reducible apply logErr_evolves
    | with_reducible apply inject_evolves
    | split
    | dsimp only
    | unfold Evolves; dsimp only
    | unfold Evolves

theorem irqAfter_evolves {s0} (x0 x1 x2) (h : Evolves s0 x0) : Evolves s0 (irqAfter x0 x1 x2) := by
  unfold irqAfter
  repeat' first
    | with_reducible assumption
    | with_reducible apply raiseIrq_evolves
    | split
    | dsimp only
    | unfold Evolves; dsimp only
    | unfold Evolves

theorem atsAsk_evolves {s0} (x0 x1 x2 x3 x4 x5) (h : Evolves s0 x0) : Evolves s0 (atsAsk x0 x1 x2 x3 x4 x5) := by
  unfold atsAsk
  repeat' first
    | with_reducible assumption
    | with_reducible apply emit_evolves
    | split
    | dsimp only
    | unfold Evolves; dsimp only
    | unfold Evolves

theorem recordToHost_evolves {s0} (x0 x1) (h : Evolves s0 x0) : Evolves s0 (recordToHost x0 x1) := by
  unfold recordToHost
  repeat' first
    | with_reducible assumption
    | with_reducible apply irqAfter_evolves
    | with_reducible apply emit_evolves
    | with_reducible apply atsAsk_evolves
    | split
    | dsimp only
    | unfold Evolves; dsimp only
    | unfold Evolves

theorem postRecord_evolves {s0} (x0 x1 x2 x3) (h : Evolves s0 x0) : Evolves s0 (postRecord x0 x1 x2 x3) := by
  unfold postRecord
  repeat' first
    | with_reducible assumption
    | with_reducible apply readCtx_evolves
    | with_reducible apply queueError_evolves
    | with_reducible apply telEvent_evolves
    | with_reducible apply putCtx_evolves
    | with_reducible apply recordToHost_evolves
    | with_reducible apply irqAfter_evolves
    | with_reducible apply hwWrite_evolves
    | split
    | dsimp only
    | unfold Evolves; dsimp only
    | unfold Evolves

theorem fatalTenant_evolves {s0} (x0 x1) (h : Evolves s0 x0) : Evolves s0 (fatalTenant x0 x1) := by
  unfold fatalTenant
  repeat' first
    | with_reducible assumption
    | with_reducible apply postRecord_evolves
    | with_reducible apply queueError_evolves
    | with_reducible refine foldl_evolves _ _ _ (fun _ _ _ => ?_) ?_
    | with_reducible refine foldl2_evolves _ _ _ (fun _ _ _ => ?_) ?_
    | with_reducible refine foldl3_evolves _ _ _ (fun _ _ _ => ?_) ?_
    | with_reducible refine foldl4_evolves _ _ _ (fun _ _ _ => ?_) ?_
    | split
    | dsimp only
    | unfold Evolves; dsimp only
    | unfold Evolves

theorem markLost_evolves {s0} (x0 x1) (h : Evolves s0 x0) : Evolves s0 (markLost x0 x1) := by
  unfold markLost
  repeat' first
    | with_reducible assumption
    | with_reducible apply logQmg_evolves
    | split
    | dsimp only
    | unfold Evolves; dsimp only
    | unfold Evolves

theorem noticeCtx_evolves {s0} (x0 x1) (h : Evolves s0 x0) : Evolves s0 (noticeCtx x0 x1) := by
  unfold noticeCtx
  repeat' first
    | with_reducible assumption
    | with_reducible apply readCtx_evolves
    | with_reducible apply fatalTenant_evolves
    | with_reducible apply markLost_evolves
    | split
    | dsimp only
    | unfold Evolves; dsimp only
    | unfold Evolves

theorem dropWork_evolves {s0} (x0 x1) (h : Evolves s0 x0) : Evolves s0 (dropWork x0 x1) := by
  unfold dropWork
  repeat' first
    | with_reducible assumption
    | with_reducible apply holdView_evolves
    | split
    | dsimp only
    | unfold Evolves; dsimp only
    | unfold Evolves

theorem clearSlot_evolves {s0} (x0 x1 x2 x3) (h : Evolves s0 x0) : Evolves s0 (clearSlot x0 x1 x2 x3) := by
  unfold clearSlot
  repeat' first
    | with_reducible assumption
    | with_reducible apply setSlot_evolves
    | split
    | dsimp only
    | unfold Evolves; dsimp only
    | unfold Evolves

theorem producerEnd_evolves {s0} (x0 x1 x2 x3) (h : Evolves s0 x0) : Evolves s0 (producerEnd x0 x1 x2 x3) := by
  unfold producerEnd
  repeat' first
    | with_reducible assumption
    | with_reducible apply clearSlot_evolves
    | with_reducible refine foldl_evolves _ _ _ (fun _ _ _ => ?_) ?_
    | with_reducible refine foldl2_evolves _ _ _ (fun _ _ _ => ?_) ?_
    | with_reducible refine foldl3_evolves _ _ _ (fun _ _ _ => ?_) ?_
    | with_reducible refine foldl4_evolves _ _ _ (fun _ _ _ => ?_) ?_
    | split
    | dsimp only
    | unfold Evolves; dsimp only
    | unfold Evolves

theorem setResv_evolves {s0} (x0 x1 x2) (h : Evolves s0 x0) : Evolves s0 (setResv x0 x1 x2) := by
  unfold setResv
  repeat' first
    | with_reducible assumption
    | split
    | dsimp only
    | unfold Evolves; dsimp only
    | unfold Evolves

theorem writeRecord_evolves {s0} (x0 x1 x2 x3) (h : Evolves s0 x0) : Evolves s0 (writeRecord x0 x1 x2 x3) := by
  unfold writeRecord
  repeat' first
    | with_reducible assumption
    | with_reducible apply noticeCtx_evolves
    | with_reducible apply postRecord_evolves
    | split
    | dsimp only
    | unfold Evolves; dsimp only
    | unfold Evolves

theorem modCtx_evolves {s0} (x0 x1 x2) (h : Evolves s0 x0) : Evolves s0 (modCtx x0 x1 x2) := by
  unfold modCtx
  repeat' first
    | with_reducible assumption
    | with_reducible apply readCtx_evolves
    | with_reducible apply putCtx_evolves
    | split
    | dsimp only
    | unfold Evolves; dsimp only
    | unfold Evolves

theorem drainCheck_evolves {s0} (x0 x1) (h : Evolves s0 x0) : Evolves s0 (drainCheck x0 x1) := by
  unfold drainCheck
  repeat' first
    | with_reducible assumption
    | with_reducible apply putCtx_evolves
    | split
    | dsimp only
    | unfold Evolves; dsimp only
    | unfold Evolves

theorem endDesc_evolves {s0} (x0 x1 x2 x3) (h : Evolves s0 x0) : Evolves s0 (endDesc x0 x1 x2 x3) := by
  unfold endDesc
  repeat' first
    | with_reducible assumption
    | with_reducible apply noticeCtx_evolves
    | with_reducible apply dropWork_evolves
    | with_reducible apply producerEnd_evolves
    | with_reducible apply telEvent_evolves
    | with_reducible apply setResv_evolves
    | with_reducible apply writeRecord_evolves
    | with_reducible apply modCtx_evolves
    | with_reducible apply sampleEnd_evolves
    | with_reducible apply drainCheck_evolves
    | split
    | dsimp only
    | unfold Evolves; dsimp only
    | unfold Evolves

theorem toDma_evolves {s0} (x0 x1) (h : Evolves s0 x0) : Evolves s0 (toDma x0 x1) := by
  unfold toDma
  repeat' first
    | with_reducible assumption
    | with_reducible apply modDesc_evolves
    | split
    | dsimp only
    | unfold Evolves; dsimp only
    | unfold Evolves

theorem startDesc_evolves {s0} (x0 x1) (h : Evolves s0 x0) : Evolves s0 (startDesc x0 x1) := by
  unfold startDesc
  repeat' first
    | with_reducible assumption
    | with_reducible apply modDesc_evolves
    | with_reducible apply decideCharge_evolves
    | with_reducible apply sampleStamp_evolves
    | with_reducible apply countCls_evolves
    | with_reducible apply endDesc_evolves
    | with_reducible apply holdWork_evolves
    | split
    | dsimp only
    | unfold Evolves; dsimp only
    | unfold Evolves

theorem freeRetry_evolves {s0} (x0) (h : Evolves s0 x0) : Evolves s0 (freeRetry x0).2 := by
  unfold freeRetry
  repeat' first
    | with_reducible assumption
    | with_reducible apply fresh_evolves
    | split
    | dsimp only
    | unfold Evolves; dsimp only
    | unfold Evolves

theorem handOver_evolves {s0} (x0 x1) (h : Evolves s0 x0) : Evolves s0 (handOver x0 x1) := by
  unfold handOver
  repeat' first
    | with_reducible assumption
    | with_reducible apply endDesc_evolves
    | with_reducible apply toDma_evolves
    | with_reducible apply startDesc_evolves
    | with_reducible apply modDesc_evolves
    | with_reducible apply freeRetry_evolves
    | with_reducible apply evolves_free
    | split
    | dsimp only
    | unfold Evolves; dsimp only
    | unfold Evolves

theorem afterPred_evolves {s0} (x0 x1) (h : Evolves s0 x0) : Evolves s0 (afterPred x0 x1) := by
  unfold afterPred
  repeat' first
    | with_reducible assumption
    | with_reducible apply modDesc_evolves
    | with_reducible apply endDesc_evolves
    | with_reducible apply handOver_evolves
    | with_reducible apply startDesc_evolves
    | with_reducible refine foldl_evolves _ _ _ (fun _ _ _ => ?_) ?_
    | with_reducible refine foldl2_evolves _ _ _ (fun _ _ _ => ?_) ?_
    | with_reducible refine foldl3_evolves _ _ _ (fun _ _ _ => ?_) ?_
    | with_reducible refine foldl4_evolves _ _ _ (fun _ _ _ => ?_) ?_
    | split
    | dsimp only
    | unfold Evolves; dsimp only
    | unfold Evolves

theorem judgePred_evolves {s0} (x0 x1) (h : Evolves s0 x0) : Evolves s0 (judgePred x0 x1) := by
  unfold judgePred
  repeat' first
    | with_reducible assumption
    | with_reducible apply modDesc_evolves
    | with_reducible apply sampleStamp_evolves
    | with_reducible apply endDesc_evolves
    | with_reducible apply afterPred_evolves
    | split
    | dsimp only
    | unfold Evolves; dsimp only
    | unfold Evolves

theorem admitDesc_evolves {s0} (x0 x1) (h : Evolves s0 x0) : Evolves s0 (admitDesc x0 x1) := by
  unfold admitDesc
  repeat' first
    | with_reducible assumption
    | with_reducible apply setSlot_evolves
    | with_reducible apply modDesc_evolves
    | with_reducible apply judgePred_evolves
    | with_reducible apply afterPred_evolves
    | with_reducible refine foldl_evolves _ _ _ (fun _ _ _ => ?_) ?_
    | with_reducible refine foldl2_evolves _ _ _ (fun _ _ _ => ?_) ?_
    | with_reducible refine foldl3_evolves _ _ _ (fun _ _ _ => ?_) ?_
    | with_reducible refine foldl4_evolves _ _ _ (fun _ _ _ => ?_) ?_
    | split
    | dsimp only
    | unfold Evolves; dsimp only
    | unfold Evolves

theorem aerNote_evolves {s0} (x0 x1 x2) (h : Evolves s0 x0) : Evolves s0 (aerNote x0 x1 x2) := by
  unfold aerNote
  repeat' first
    | with_reducible assumption
    | split
    | dsimp only
    | unfold Evolves; dsimp only
    | unfold Evolves

theorem clearPreds_evolves {s0} (x0 x1) (h : Evolves s0 x0) : Evolves s0 (clearPreds x0 x1) := by
  unfold clearPreds
  repeat' first
    | with_reducible assumption
    | with_reducible apply setSlot_evolves
    | with_reducible refine foldl_evolves _ _ _ (fun _ _ _ => ?_) ?_
    | with_reducible refine foldl2_evolves _ _ _ (fun _ _ _ => ?_) ?_
    | with_reducible refine foldl3_evolves _ _ _ (fun _ _ _ => ?_) ?_
    | with_reducible refine foldl4_evolves _ _ _ (fun _ _ _ => ?_) ?_
    | split
    | dsimp only
    | unfold Evolves; dsimp only
    | unfold Evolves

theorem dropDoorbell_evolves {s0} (x0 x1 x2) (h : Evolves s0 x0) : Evolves s0 (dropDoorbell x0 x1 x2) := by
  unfold dropDoorbell
  repeat' first
    | with_reducible assumption
    | with_reducible apply logQmg_evolves
    | with_reducible apply bumpSat_evolves
    | split
    | dsimp only
    | unfold Evolves; dsimp only
    | unfold Evolves

theorem progressRecord_evolves {s0} (x0 x1 x2) (h : Evolves s0 x0) : Evolves s0 (progressRecord x0 x1 x2) := by
  unfold progressRecord
  repeat' first
    | with_reducible assumption
    | with_reducible apply modDesc_evolves
    | with_reducible apply setResv_evolves
    | with_reducible apply writeRecord_evolves
    | split
    | dsimp only
    | unfold Evolves; dsimp only
    | unfold Evolves

theorem recordsGo_evolves {s0} (x0 x1) (h : Evolves s0 x0) : Evolves s0 (recordsGo x0 x1) := by
  unfold recordsGo
  repeat' first
    | with_reducible assumption
    | with_reducible apply recordToHost_evolves
    | with_reducible refine foldl_evolves _ _ _ (fun _ _ _ => ?_) ?_
    | with_reducible refine foldl2_evolves _ _ _ (fun _ _ _ => ?_) ?_
    | with_reducible refine foldl3_evolves _ _ _ (fun _ _ _ => ?_) ?_
    | with_reducible refine foldl4_evolves _ _ _ (fun _ _ _ => ?_) ?_
    | split
    | dsimp only
    | unfold Evolves; dsimp only
    | unfold Evolves

theorem recordsLost_evolves {s0} (x0 x1) (h : Evolves s0 x0) : Evolves s0 (recordsLost x0 x1) := by
  unfold recordsLost
  repeat' first
    | with_reducible assumption
    | with_reducible apply queueError_evolves
    | split
    | dsimp only
    | unfold Evolves; dsimp only
    | unfold Evolves

theorem releaseDesc_evolves {s0} (x0 x1) (h : Evolves s0 x0) : Evolves s0 (releaseDesc x0 x1) := by
  unfold releaseDesc
  repeat' first
    | with_reducible assumption
    | with_reducible apply sampleStamp_evolves
    | with_reducible apply modDesc_evolves
    | with_reducible apply handOver_evolves
    | split
    | dsimp only
    | unfold Evolves; dsimp only
    | unfold Evolves

end Sys2Proof.Machine
end

