-- ==== Sys2Proof/Laws/EvolveServe.lean ====
section
/-!
SUPPORT. Laws/EvolveServe.lean: one lemma for each operation that answers a state, over coherence, holds, replay and tiles:
what Evolves says of a machine holds after it too.
-/
namespace Sys2Proof.Machine
open Sys2Proof

theorem lineRead_evolves {s0} (x0 x1 x2 x3) (h : Evolves s0 x0) : Evolves s0 (lineRead x0 x1 x2 x3).2 := by
  unfold lineRead
  split
  · exact memRead_evolves _ _ _ _ h
  · exact id h

theorem cohErr_evolves {s0} (x0 x1 x2) (h : Evolves s0 x0) : Evolves s0 (cohErr x0 x1 x2) := by
  unfold cohErr
  repeat' first
    | with_reducible assumption
    | with_reducible apply inject_evolves
    | split
    | dsimp only
    | unfold Evolves; dsimp only
    | unfold Evolves

theorem cohSend_evolves {s0} (x0 x1 x2 x3 x4 x5 x6) (h : Evolves s0 x0) : Evolves s0 (cohSend x0 x1 x2 x3 x4 x5 x6) := by
  unfold cohSend
  repeat' first
    | with_reducible assumption
    | with_reducible apply inject_evolves
    | split
    | dsimp only
    | unfold Evolves; dsimp only
    | unfold Evolves

theorem sendGrant_evolves {s0} (x0 x1 x2 x3) (h : Evolves s0 x0) : Evolves s0 (sendGrant x0 x1 x2 x3).2 := by
  unfold sendGrant
  split
  · exact id h
  extract_lets q
  have k : Evolves s0 q.2 := evolves_at2 (lineRead_evolves _ _ _ _ h) rfl
  clear_value q
  split
  · split
    · exact cohErr_evolves _ _ _ k
    · exact cohSend_evolves _ _ _ _ _ _ _ k
  · exact cohSend_evolves _ _ _ _ _ _ _ h

theorem putEnt_evolves {s0} (x0 x1 x2) (h : Evolves s0 x0) : Evolves s0 (putEnt x0 x1 x2) := by
  unfold putEnt
  repeat' first
    | with_reducible assumption
    | with_reducible apply setF_evolves
    | split
    | dsimp only
    | unfold Evolves; dsimp only
    | unfold Evolves

theorem dropTxn_evolves {s0} (x0 x1) (h : Evolves s0 x0) : Evolves s0 (dropTxn x0 x1) := by
  unfold dropTxn
  repeat' first
    | with_reducible assumption
    | with_reducible apply setF_evolves
    | split
    | dsimp only
    | unfold Evolves; dsimp only
    | unfold Evolves

theorem closeTxn_evolves {s0} (x0 x1 x2 x3) (h : Evolves s0 x0) : Evolves s0 (closeTxn x0 x1 x2 x3) := by
  unfold closeTxn
  repeat' first
    | with_reducible assumption
    | with_reducible apply dropTxn_evolves
    | split
    | dsimp only
    | unfold Evolves; dsimp only
    | unfold Evolves

theorem doGrant_evolves {s0} (x0 x1 x2 x3) (h : Evolves s0 x0) : Evolves s0 (doGrant x0 x1 x2 x3) := by
  unfold doGrant
  repeat' first
    | with_reducible assumption
    | with_reducible apply sendGrant_evolves
    | with_reducible apply putEnt_evolves
    | with_reducible apply closeTxn_evolves
    | split
    | dsimp only
    | unfold Evolves; dsimp only
    | unfold Evolves

theorem advTxn_evolves {s0} (x0 x1) (h : Evolves s0 x0) : Evolves s0 (advTxn x0 x1).2 := by
  unfold advTxn
  repeat' first
    | with_reducible assumption
    | with_reducible apply doGrant_evolves
    | with_reducible apply closeTxn_evolves
    | with_reducible apply putEnt_evolves
    | split
    | dsimp only
    | unfold Evolves; dsimp only
    | unfold Evolves

theorem openTxn_evolves {s0} (x0 x1) (h : Evolves s0 x0) : Evolves s0 (openTxn x0 x1) := by
  unfold openTxn
  repeat' first
    | with_reducible assumption
    | with_reducible apply bump_evolves
    | split
    | dsimp only
    | unfold Evolves; dsimp only
    | unfold Evolves

theorem grantFresh_evolves {s0} (x0 x1) (h : Evolves s0 x0) : Evolves s0 (grantFresh x0 x1) := by
  unfold grantFresh
  repeat' first
    | with_reducible assumption
    | with_reducible apply doGrant_evolves
    | with_reducible apply openTxn_evolves
    | split
    | dsimp only
    | unfold Evolves; dsimp only
    | unfold Evolves

theorem snoop_evolves {s0} (x0 x1 x2 x3 x4 x5) (h : Evolves s0 x0) : Evolves s0 (snoop x0 x1 x2 x3 x4 x5) := by
  unfold snoop
  repeat' first
    | with_reducible assumption
    | with_reducible apply cohSend_evolves
    | split
    | dsimp only
    | unfold Evolves; dsimp only
    | unfold Evolves

theorem snoopInv_evolves {s0} (x0 x1 x2) (h : Evolves s0 x0) : Evolves s0 (snoopInv x0 x1 x2) := by
  unfold snoopInv
  repeat' first
    | with_reducible assumption
    | with_reducible apply snoop_evolves
    | with_reducible refine foldl_evolves _ _ _ (fun _ _ _ => ?_) ?_
    | with_reducible refine foldl2_evolves _ _ _ (fun _ _ _ => ?_) ?_
    | with_reducible refine foldl3_evolves _ _ _ (fun _ _ _ => ?_) ?_
    | with_reducible refine foldl4_evolves _ _ _ (fun _ _ _ => ?_) ?_
    | split
    | dsimp only
    | unfold Evolves; dsimp only
    | unfold Evolves

theorem startBinv_evolves {s0} (x0 x1 x2) (h : Evolves s0 x0) : Evolves s0 (startBinv x0 x1 x2).2 := by
  unfold startBinv
  repeat' first
    | with_reducible assumption
    | with_reducible apply bump_evolves
    | with_reducible apply snoopInv_evolves
    | with_reducible apply advTxn_evolves
    | with_reducible apply openTxn_evolves
    | split
    | dsimp only
    | unfold Evolves; dsimp only
    | unfold Evolves

theorem sendRetry_evolves {s0} (x0 x1 x2) (h : Evolves s0 x0) : Evolves s0 (sendRetry x0 x1 x2) := by
  unfold sendRetry
  repeat' first
    | with_reducible assumption
    | with_reducible apply fresh_evolves
    | with_reducible apply bump_evolves
    | with_reducible apply cohSend_evolves
    | split
    | dsimp only
    | unfold Evolves; dsimp only
    | unfold Evolves

theorem allocWay_evolves {s0} (x0 x1) (h : Evolves s0 x0) : Evolves s0 (allocWay x0 x1).2 := by
  unfold allocWay
  repeat' first
    | with_reducible assumption
    | with_reducible apply grantFresh_evolves
    | with_reducible apply startBinv_evolves
    | with_reducible apply sendRetry_evolves
    | with_reducible apply evolves_free
    | split
    | dsimp only
    | unfold Evolves; dsimp only
    | unfold Evolves

theorem binvCheck_evolves {s0} (x0) (h : Evolves s0 x0) : Evolves s0 (binvCheck x0) := by
  unfold binvCheck
  repeat' first
    | with_reducible assumption
    | with_reducible apply setB_evolves
    | split
    | dsimp only
    | unfold Evolves; dsimp only
    | unfold Evolves

theorem dirGrant_evolves {s0} (x0 x1 x2) (h : Evolves s0 x0) : Evolves s0 (dirGrant x0 x1 x2) := by
  unfold dirGrant
  repeat' first
    | with_reducible assumption
    | with_reducible apply bump_evolves
    | split
    | dsimp only
    | unfold Evolves; dsimp only
    | unfold Evolves

theorem dirQueue_evolves {s0} (x0 x1) (h : Evolves s0 x0) : Evolves s0 (dirQueue x0 x1) := by
  unfold dirQueue
  repeat' first
    | with_reducible assumption
    | with_reducible apply sendRetry_evolves
    | split
    | dsimp only
    | unfold Evolves; dsimp only
    | unfold Evolves

theorem plainStart_evolves {s0} (x0 x1 x2) (h : Evolves s0 x0) : Evolves s0 (plainStart x0 x1 x2).2 := by
  unfold plainStart
  repeat' first
    | with_reducible assumption
    | with_reducible apply snoop_evolves
    | with_reducible apply openTxn_evolves
    | with_reducible apply putEnt_evolves
    | with_reducible apply snoopInv_evolves
    | split
    | dsimp only
    | unfold Evolves; dsimp only
    | unfold Evolves

theorem grantTracked_evolves {s0} (x0 x1 x2) (h : Evolves s0 x0) : Evolves s0 (grantTracked x0 x1 x2) := by
  unfold grantTracked
  repeat' first
    | with_reducible assumption
    | with_reducible apply grantFresh_evolves
    | with_reducible apply snoop_evolves
    | with_reducible apply openTxn_evolves
    | with_reducible apply putEnt_evolves
    | with_reducible apply doGrant_evolves
    | with_reducible apply advTxn_evolves
    | with_reducible apply snoopInv_evolves
    | split
    | dsimp only
    | unfold Evolves; dsimp only
    | unfold Evolves

theorem dirRun_evolves {s0} (x0 x1) (h : Evolves s0 x0) : Evolves s0 (dirRun x0 x1).2.2 := by
  unfold dirRun
  repeat' first
    | with_reducible assumption
    | with_reducible apply allocWay_evolves
    | with_reducible apply putEnt_evolves
    | with_reducible apply startBinv_evolves
    | with_reducible apply plainStart_evolves
    | with_reducible apply grantTracked_evolves
    | split
    | dsimp only
    | unfold Evolves; dsimp only
    | unfold Evolves

theorem dirEnter_evolves {s0} (x0 x1) (h : Evolves s0 x0) : Evolves s0 (dirEnter x0 x1).2.2 := by
  unfold dirEnter
  repeat' first
    | with_reducible assumption
    | with_reducible apply dirGrant_evolves
    | with_reducible apply dirQueue_evolves
    | with_reducible apply dirRun_evolves
    | split
    | dsimp only
    | unfold Evolves; dsimp only
    | unfold Evolves

theorem dirKick_evolves {s0} (x0 : Nat) (x1 : State) (h : Evolves s0 x1) : Evolves s0 (dirKick x0 x1).2 := by
  induction x0 generalizing x1 with
  | zero => exact id h
  | succ n ih =>
    unfold dirKick
    split
    · exact id h
    · exact ih _ (dirRun_evolves _ _ (evolves_keep h))

theorem dirSettle_evolves {s0} (x0 x1) (h : Evolves s0 x0) : Evolves s0 (dirSettle x0 x1).2 := by
  unfold dirSettle
  repeat' first
    | with_reducible assumption
    | with_reducible apply dirKick_evolves
    | with_reducible apply binvCheck_evolves
    | split
    | dsimp only
    | unfold Evolves; dsimp only
    | unfold Evolves

theorem lineWrite_evolves {s0} (x0 x1 x2 x3 x4) (h : Evolves s0 x0) : Evolves s0 (lineWrite x0 x1 x2 x3 x4) := by
  unfold lineWrite
  split
  · exact memStore_evolves _ _ _ _ _ h
  · exact id h

theorem logDir_evolves {s0} (x0 x1 x2 x3) (h : Evolves s0 x0) : Evolves s0 (logDir x0 x1 x2 x3) := by
  unfold logDir
  repeat' first
    | with_reducible assumption
    | with_reducible apply logErr_evolves
    | split
    | dsimp only
    | unfold Evolves; dsimp only
    | unfold Evolves

theorem ownAccess_evolves {s0} (x0 x1 x2 x3 x4 x5) (h : Evolves s0 x0) : Evolves s0 (ownAccess x0 x1 x2 x3 x4 x5).2 := by
  unfold ownAccess
  repeat' first
    | with_reducible assumption
    | with_reducible apply dirGrant_evolves
    | with_reducible apply snoop_evolves
    | with_reducible apply lineWrite_evolves
    | with_reducible apply putEnt_evolves
    | with_reducible apply snoopInv_evolves
    | split
    | dsimp only
    | unfold Evolves; dsimp only
    | unfold Evolves

theorem startFlush_evolves {s0} (x0 x1) (h : Evolves s0 x0) : Evolves s0 (startFlush x0 x1) := by
  unfold startFlush
  repeat' first
    | with_reducible assumption
    | with_reducible apply cohSend_evolves
    | with_reducible refine foldl_evolves _ _ _ (fun _ _ _ => ?_) ?_
    | with_reducible refine foldl2_evolves _ _ _ (fun _ _ _ => ?_) ?_
    | with_reducible refine foldl3_evolves _ _ _ (fun _ _ _ => ?_) ?_
    | with_reducible refine foldl4_evolves _ _ _ (fun _ _ _ => ?_) ?_
    | split
    | dsimp only
    | unfold Evolves; dsimp only
    | unfold Evolves

theorem storeBack_evolves {s0} (x0 x1 x2 x3 x4) (h : Evolves s0 x0) : Evolves s0 (storeBack x0 x1 x2 x3 x4) := by
  unfold storeBack
  repeat' first
    | with_reducible assumption
    | with_reducible apply bump_evolves
    | with_reducible apply lineWrite_evolves
    | with_reducible apply logDir_evolves
    | split
    | dsimp only
    | unfold Evolves; dsimp only
    | unfold Evolves

theorem addFlights_evolves {s0} (x0 x1 x2 x3 x4 x5) (h : Evolves s0 x0) : Evolves s0 (addFlights x0 x1 x2 x3 x4 x5) := by
  unfold addFlights
  repeat' first
    | with_reducible assumption
    | with_reducible refine foldl_evolves _ _ _ (fun _ _ _ => ?_) ?_
    | with_reducible refine foldl2_evolves _ _ _ (fun _ _ _ => ?_) ?_
    | with_reducible refine foldl3_evolves _ _ _ (fun _ _ _ => ?_) ?_
    | with_reducible refine foldl4_evolves _ _ _ (fun _ _ _ => ?_) ?_
    | split
    | dsimp only
    | unfold Evolves; dsimp only
    | unfold Evolves

theorem nextReqId_evolves {s0} (x0) (h : Evolves s0 x0) : Evolves s0 (nextReqId x0).2 := by
  unfold nextReqId
  repeat' first
    | with_reducible assumption
    | split
    | dsimp only
    | unfold Evolves; dsimp only
    | unfold Evolves

theorem sendReq_evolves {s0} (x0 x1 x2 x3 x4 x5) (h : Evolves s0 x0) : Evolves s0 (sendReq x0 x1 x2 x3 x4 x5) := by
  unfold sendReq
  repeat' first
    | with_reducible assumption
    | with_reducible apply inject_evolves
    | split
    | dsimp only
    | unfold Evolves; dsimp only
    | unfold Evolves

theorem askSet_evolves {s0} (x0 x1 x2 x3) (h : Evolves s0 x0) : Evolves s0 (askSet x0 x1 x2 x3) := by
  unfold askSet
  repeat' first
    | with_reducible assumption
    | with_reducible apply nextReqId_evolves
    | with_reducible apply sendReq_evolves
    | split
    | dsimp only
    | unfold Evolves; dsimp only
    | unfold Evolves

theorem busyFin_evolves {s0} (x0) (h : Evolves s0 x0) : Evolves s0 (busyFin x0).2 := by
  unfold busyFin
  repeat' first
    | with_reducible assumption
    | with_reducible apply freeRetry_evolves
    | with_reducible apply evolves_free
    | split
    | dsimp only
    | unfold Evolves; dsimp only
    | unfold Evolves

theorem migFault_evolves {s0} (x0 x1) (h : Evolves s0 x0) : Evolves s0 (migFault x0 x1) := by
  unfold migFault
  repeat' first
    | with_reducible assumption
    | with_reducible apply telEvent_evolves
    | with_reducible apply hwWrite_evolves
    | with_reducible apply setF_evolves
    | split
    | dsimp only
    | unfold Evolves; dsimp only
    | unfold Evolves

theorem holdItem_evolves {s0} (x0 x1 x2 x3) (h : Evolves s0 x0) : Evolves s0 (holdItem x0 x1 x2 x3).2 := by
  unfold holdItem
  repeat' first
    | with_reducible assumption
    | with_reducible apply migFault_evolves
    | with_reducible apply askSet_evolves
    | with_reducible refine foldl_evolves _ _ _ (fun _ _ _ => ?_) ?_
    | with_reducible refine foldl2_evolves _ _ _ (fun _ _ _ => ?_) ?_
    | with_reducible refine foldl3_evolves _ _ _ (fun _ _ _ => ?_) ?_
    | with_reducible refine foldl4_evolves _ _ _ (fun _ _ _ => ?_) ?_
    | split
    | dsimp only
    | unfold Evolves; dsimp only
    | unfold Evolves

theorem loadGran_evolves {s0} (x0 x1 x2) (h : Evolves s0 x0) : Evolves s0 (loadGran x0 x1 x2).2 := by
  unfold loadGran
  extract_lets c
  have k : Evolves s0 c.2 := evolves_at2 (evolves_ite (b := (none, x0)) (ownAccess_evolves _ _ _ _ _ _ h) h) rfl
  clear_value c
  split
  · exact id h
  split
  · split <;> exact id h
  split
  · exact id k
  split
  · exact id k
  · extract_lets r
    have kr : Evolves s0 r.2 := evolves_at2 (memRead_evolves _ _ _ _ k) rfl
    clear_value r
    exact id kr

theorem loadRanges_evolves {s0} (x0 x1 x2 x3 x4) (h : Evolves s0 x0) : Evolves s0 (loadRanges x0 x1 x2 x3 x4).2 := by
  unfold loadRanges
  repeat' first
    | with_reducible assumption
    | with_reducible apply loadGran_evolves
    | with_reducible refine foldl_evolves _ _ _ (fun _ _ _ => ?_) ?_
    | with_reducible refine foldl2_evolves _ _ _ (fun _ _ _ => ?_) ?_
    | with_reducible refine foldl3_evolves _ _ _ (fun _ _ _ => ?_) ?_
    | with_reducible refine foldl4_evolves _ _ _ (fun _ _ _ => ?_) ?_
    | split
    | dsimp only
    | unfold Evolves; dsimp only
    | unfold Evolves

theorem storeLocal_evolves {s0} (x0 x1 x2 x3) (h : Evolves s0 x0) : Evolves s0 (storeLocal x0 x1 x2 x3).2 := by
  unfold storeLocal
  extract_lets c
  have k : Evolves s0 c.2 := evolves_at2 (evolves_ite (b := (none, x0)) (ownAccess_evolves _ _ _ _ _ _ h) h) rfl
  clear_value c
  split
  · exact id k
  split
  · exact id k
  split
  · exact id k
  · exact memStore_evolves _ _ _ _ _ k

theorem xlateAll_evolves {s0} (x0 x1 x2 x3 x4) (h : Evolves s0 x0) : Evolves s0 (xlateAll x0 x1 x2 x3 x4).2 := by
  unfold xlateAll
  repeat' first
    | with_reducible assumption
    | with_reducible apply xlateVia_evolves
    | with_reducible refine foldl_evolves _ _ _ (fun _ _ _ => ?_) ?_
    | with_reducible refine foldl2_evolves _ _ _ (fun _ _ _ => ?_) ?_
    | with_reducible refine foldl3_evolves _ _ _ (fun _ _ _ => ?_) ?_
    | with_reducible refine foldl4_evolves _ _ _ (fun _ _ _ => ?_) ?_
    | split
    | dsimp only
    | unfold Evolves; dsimp only
    | unfold Evolves

theorem rcFull_evolves {s0} (x0) (h : Evolves s0 x0) : Evolves s0 (rcFull x0).2 := by
  unfold rcFull
  repeat' first
    | with_reducible assumption
    | with_reducible apply setF_evolves
    | split
    | dsimp only
    | unfold Evolves; dsimp only
    | unfold Evolves

theorem atomicWord_evolves {s0} (x0 x1 x2 x3 x4 x5 x6) (h : Evolves s0 x0) : Evolves s0 (atomicWord x0 x1 x2 x3 x4 x5 x6).2 := by
  unfold atomicWord
  extract_lets base c r
  have k : Evolves s0 c.2 := evolves_at2 (evolves_ite (b := (none, x0)) (ownAccess_evolves _ _ _ _ _ _ h) h) rfl
  have kr : Evolves s0 r.2 := evolves_at2 (loadGran_evolves _ _ _ k) rfl
  clear_value base c r
  split
  · exact id k
  split
  · exact id kr
  split
  · exact id kr
  split
  · exact id kr
  extract_lets old n s
  have ks : Evolves s0 s := by
    unfold s
    split
    · exact storeLocal_evolves _ _ _ _ kr
    · exact id kr
  clear_value s
  exact id ks

theorem grantUpdate_evolves {s0} (x0 x1) (h : Evolves s0 x0) : Evolves s0 (grantUpdate x0 x1) := by
  unfold grantUpdate
  repeat' first
    | with_reducible assumption
    | split
    | dsimp only
    | unfold Evolves; dsimp only
    | unfold Evolves

theorem rcView_evolves {s0} (x0) (h : Evolves s0 x0) : Evolves s0 (rcView x0) := by
  unfold rcView
  repeat' first
    | with_reducible assumption
    | with_reducible apply setF_evolves
    | split
    | dsimp only
    | unfold Evolves; dsimp only
    | unfold Evolves

theorem rcSweep_evolves {s0} (x0) (h : Evolves s0 x0) : Evolves s0 (rcSweep x0) := by
  unfold rcSweep
  repeat' first
    | with_reducible assumption
    | with_reducible apply rcView_evolves
    | split
    | dsimp only
    | unfold Evolves; dsimp only
    | unfold Evolves

theorem rcPut_evolves {s0} (x0 x1) (h : Evolves s0 x0) : Evolves s0 (rcPut x0 x1) := by
  unfold rcPut
  repeat' first
    | with_reducible assumption
    | with_reducible apply rcSweep_evolves
    | with_reducible apply rcView_evolves
    | split
    | dsimp only
    | unfold Evolves; dsimp only
    | unfold Evolves

theorem atomicAt_evolves {s0} (x0 x1 x2 x3 x4 x5 x6 x7 x8 x9 x10) (h : Evolves s0 x0) : Evolves s0 (atomicAt x0 x1 x2 x3 x4 x5 x6 x7 x8 x9 x10).2 := by
  unfold atomicAt
  repeat' first
    | with_reducible assumption
    | with_reducible apply rcFull_evolves
    | with_reducible apply atomicWord_evolves
    | with_reducible apply grantUpdate_evolves
    | with_reducible apply rcPut_evolves
    | split
    | dsimp only
    | unfold Evolves; dsimp only
    | unfold Evolves

theorem ackInvals_evolves {s0} (x0 x1) (h : Evolves s0 x0) : Evolves s0 (ackInvals x0 x1) := by
  unfold ackInvals
  repeat' first
    | with_reducible assumption
    | split
    | dsimp only
    | unfold Evolves; dsimp only
    | unfold Evolves

theorem replyBatch_evolves {s0} (x0 x1) (h : Evolves s0 x0) : Evolves s0 (replyBatch x0 x1) := by
  unfold replyBatch
  repeat' first
    | with_reducible assumption
    | with_reducible apply dropWork_evolves
    | with_reducible apply rcPut_evolves
    | with_reducible apply inject_evolves
    | split
    | dsimp only
    | unfold Evolves; dsimp only
    | unfold Evolves

theorem descCheck_evolves {s0} (x0 x1) (h : Evolves s0 x0) : Evolves s0 (descCheck x0 x1) := by
  unfold descCheck
  repeat' first
    | with_reducible assumption
    | with_reducible apply replyBatch_evolves
    | with_reducible apply modDesc_evolves
    | with_reducible apply endDesc_evolves
    | split
    | dsimp only
    | unfold Evolves; dsimp only
    | unfold Evolves

theorem halfCheck_evolves {s0} (x0 x1) (h : Evolves s0 x0) : Evolves s0 (halfCheck x0 x1) := by
  unfold halfCheck
  repeat' first
    | with_reducible assumption
    | with_reducible apply progressRecord_evolves
    | split
    | dsimp only
    | unfold Evolves; dsimp only
    | unfold Evolves

theorem afterTiles_evolves {s0} (x0 x1) (h : Evolves s0 x0) : Evolves s0 (afterTiles x0 x1) := by
  unfold afterTiles
  repeat' first
    | with_reducible assumption
    | with_reducible apply descCheck_evolves
    | with_reducible apply halfCheck_evolves
    | split
    | dsimp only
    | unfold Evolves; dsimp only
    | unfold Evolves

theorem atStep_evolves {s0} (x0 x1 x2 x3 x4) (hf : ∀ s a b, Evolves s0 s → Evolves s0 (x4 s a b)) (h : Evolves s0 x0) : Evolves s0 (atStep x0 x1 x2 x3 x4) := by
  unfold atStep
  split
  · split
    · exact hf _ _ _ h
    · exact id h
  · exact id h

theorem noteEnd_evolves {s0} (x0 x1 x2 x3) (h : Evolves s0 x0) : Evolves s0 (noteEnd x0 x1 x2 x3) := by
  unfold noteEnd
  repeat' first
    | with_reducible assumption
    | with_reducible apply modDesc_evolves
    | split
    | dsimp only
    | unfold Evolves; dsimp only
    | unfold Evolves

theorem buildWrite_evolves {s0} (x0 x1 x2 x3 x4 x5 x6) (h : Evolves s0 x0) : Evolves s0 (buildWrite x0 x1 x2 x3 x4 x5 x6).2 := by
  unfold buildWrite
  repeat' first
    | with_reducible assumption
    | with_reducible apply loadGran_evolves
    | split
    | dsimp only
    | unfold Evolves; dsimp only
    | unfold Evolves

theorem buildWrites_evolves {s0} (x0 x1 x2 x3 x4) (h : Evolves s0 x0) : Evolves s0 (buildWrites x0 x1 x2 x3 x4).2 := by
  unfold buildWrites
  repeat' first
    | with_reducible assumption
    | with_reducible apply buildWrite_evolves
    | with_reducible refine foldl_evolves _ _ _ (fun _ _ _ => ?_) ?_
    | with_reducible refine foldl2_evolves _ _ _ (fun _ _ _ => ?_) ?_
    | with_reducible refine foldl3_evolves _ _ _ (fun _ _ _ => ?_) ?_
    | with_reducible refine foldl4_evolves _ _ _ (fun _ _ _ => ?_) ?_
    | split
    | dsimp only
    | unfold Evolves; dsimp only
    | unfold Evolves

theorem atomicTail_evolves {s0} (x0 x1 x2 x3 x4 x5) (h : Evolves s0 x0) : Evolves s0 (atomicTail x0 x1 x2 x3 x4 x5).2 := by
  unfold atomicTail
  repeat' first
    | with_reducible assumption
    | with_reducible apply modDesc_evolves
    | with_reducible apply noteEnd_evolves
    | with_reducible apply buildWrites_evolves
    | split
    | dsimp only
    | unfold Evolves; dsimp only
    | unfold Evolves

theorem takeDraws_evolves {s0} (x0) (h : Evolves s0 x0) : Evolves s0 (takeDraws x0).2 := by
  unfold takeDraws
  generalize 2 ^ 32 = k
  exact evolves_keep_free h

theorem notePoison_evolves {s0} (x0 x1 x2 x3) (h : Evolves s0 x0) : Evolves s0 (notePoison x0 x1 x2 x3) := by
  unfold notePoison
  repeat' first
    | with_reducible assumption
    | with_reducible apply noteEnd_evolves
    | split
    | dsimp only
    | unfold Evolves; dsimp only
    | unfold Evolves

theorem engView_evolves {s0} (x0 x1) (h : Evolves s0 x0) : Evolves s0 (engView x0 x1) := by
  unfold engView
  repeat' first
    | with_reducible assumption
    | with_reducible apply setF_evolves
    | split
    | dsimp only
    | unfold Evolves; dsimp only
    | unfold Evolves

theorem dropUnstarted_evolves {s0} (x0 x1) (h : Evolves s0 x0) : Evolves s0 (dropUnstarted x0 x1) := by
  unfold dropUnstarted
  repeat' first
    | with_reducible assumption
    | with_reducible apply holdView_evolves
    | with_reducible apply modDesc_evolves
    | with_reducible apply engView_evolves
    | with_reducible refine foldl_evolves _ _ _ (fun _ _ _ => ?_) ?_
    | with_reducible refine foldl2_evolves _ _ _ (fun _ _ _ => ?_) ?_
    | with_reducible refine foldl3_evolves _ _ _ (fun _ _ _ => ?_) ?_
    | with_reducible refine foldl4_evolves _ _ _ (fun _ _ _ => ?_) ?_
    | split
    | dsimp only
    | unfold Evolves; dsimp only
    | unfold Evolves

theorem stopNumeric_evolves {s0} (x0 x1 x2) (h : Evolves s0 x0) : Evolves s0 (stopNumeric x0 x1 x2) := by
  unfold stopNumeric
  repeat' first
    | with_reducible assumption
    | with_reducible apply dropUnstarted_evolves
    | with_reducible apply modDesc_evolves
    | split
    | dsimp only
    | unfold Evolves; dsimp only
    | unfold Evolves

theorem withdrawBlock_evolves {s0} (x0 x1 x2) (h : Evolves s0 x0) : Evolves s0 (withdrawBlock x0 x1 x2).2 := by
  unfold withdrawBlock
  repeat' first
    | with_reducible assumption
    | with_reducible apply ownAccess_evolves
    | with_reducible refine foldl_evolves _ _ _ (fun _ _ _ => ?_) ?_
    | with_reducible refine foldl2_evolves _ _ _ (fun _ _ _ => ?_) ?_
    | with_reducible refine foldl3_evolves _ _ _ (fun _ _ _ => ?_) ?_
    | with_reducible refine foldl4_evolves _ _ _ (fun _ _ _ => ?_) ?_
    | split
    | dsimp only
    | unfold Evolves; dsimp only
    | unfold Evolves

theorem writeRemote_evolves {s0} (x0 x1 x2 x3 x4) (h : Evolves s0 x0) : Evolves s0 (writeRemote x0 x1 x2 x3 x4) := by
  unfold writeRemote
  repeat' first
    | with_reducible assumption
    | with_reducible apply nextReqId_evolves
    | with_reducible apply modDesc_evolves
    | with_reducible apply sendReq_evolves
    | split
    | dsimp only
    | unfold Evolves; dsimp only
    | unfold Evolves

theorem storeWrite_evolves {s0} (x0 x1 x2 x3 x4) (h : Evolves s0 x0) : Evolves s0 (storeWrite x0 x1 x2 x3 x4) := by
  unfold storeWrite
  repeat' first
    | with_reducible assumption
    | with_reducible apply storeLocal_evolves
    | with_reducible apply noteEnd_evolves
    | with_reducible apply ownAccess_evolves
    | with_reducible apply loadGran_evolves
    | with_reducible apply modDesc_evolves
    | split
    | dsimp only
    | unfold Evolves; dsimp only
    | unfold Evolves

theorem issueEach_evolves {s0} (x0 x1 x2 x3 x4) (h : Evolves s0 x0) : Evolves s0 (issueEach x0 x1 x2 x3 x4) := by
  unfold issueEach
  repeat' first
    | with_reducible assumption
    | with_reducible apply writeRemote_evolves
    | with_reducible apply storeWrite_evolves
    | with_reducible refine foldl_evolves _ _ _ (fun _ _ _ => ?_) ?_
    | with_reducible refine foldl2_evolves _ _ _ (fun _ _ _ => ?_) ?_
    | with_reducible refine foldl3_evolves _ _ _ (fun _ _ _ => ?_) ?_
    | with_reducible refine foldl4_evolves _ _ _ (fun _ _ _ => ?_) ?_
    | split
    | dsimp only
    | unfold Evolves; dsimp only
    | unfold Evolves

theorem issueAll_evolves {s0} (x0 x1 x2 x3 x4) (h : Evolves s0 x0) : Evolves s0 (issueAll x0 x1 x2 x3 x4) := by
  unfold issueAll
  repeat' first
    | with_reducible assumption
    | with_reducible apply withdrawBlock_evolves
    | with_reducible apply memStoreBlock_evolves
    | with_reducible apply issueEach_evolves
    | with_reducible refine foldl_evolves _ _ _ (fun _ _ _ => ?_) ?_
    | with_reducible refine foldl2_evolves _ _ _ (fun _ _ _ => ?_) ?_
    | with_reducible refine foldl3_evolves _ _ _ (fun _ _ _ => ?_) ?_
    | with_reducible refine foldl4_evolves _ _ _ (fun _ _ _ => ?_) ?_
    | split
    | dsimp only
    | unfold Evolves; dsimp only
    | unfold Evolves

theorem issueWrites_evolves {s0} (x0 x1 x2 x3 x4 x5) (h : Evolves s0 x0) : Evolves s0 (issueWrites x0 x1 x2 x3 x4 x5) := by
  unfold issueWrites
  repeat' first
    | with_reducible assumption
    | with_reducible apply issueAll_evolves
    | with_reducible apply bump_evolves
    | split
    | dsimp only
    | unfold Evolves; dsimp only
    | unfold Evolves

theorem combinePart_evolves {s0} (x0 x1 x2 x3 x4 x5) (h : Evolves s0 x0) : Evolves s0 (combinePart x0 x1 x2 x3 x4 x5) := by
  unfold combinePart
  repeat' first
    | with_reducible assumption
    | with_reducible apply modDesc_evolves
    | with_reducible apply takeDraws_evolves
    | with_reducible apply notePoison_evolves
    | with_reducible apply stopNumeric_evolves
    | with_reducible apply noteEnd_evolves
    | with_reducible apply buildWrites_evolves
    | with_reducible apply issueWrites_evolves
    | with_reducible apply evolves_free
    | split
    | dsimp only
    | unfold Evolves; dsimp only
    | unfold Evolves

theorem modTile_evolves {s0} (x0 x1 x2 x3) (h : Evolves s0 x0) : Evolves s0 (modTile x0 x1 x2 x3) := by
  unfold modTile
  repeat' first
    | with_reducible assumption
    | split
    | dsimp only
    | unfold Evolves; dsimp only
    | unfold Evolves

theorem combineAll_evolves {s0} (x0 x1 x2) (h : Evolves s0 x0) : Evolves s0 (combineAll x0 x1 x2) := by
  unfold combineAll
  repeat' first
    | with_reducible assumption
    | with_reducible apply combinePart_evolves
    | with_reducible apply modTile_evolves
    | with_reducible refine foldl_evolves _ _ _ (fun _ _ _ => ?_) ?_
    | with_reducible refine foldl2_evolves _ _ _ (fun _ _ _ => ?_) ?_
    | with_reducible refine foldl3_evolves _ _ _ (fun _ _ _ => ?_) ?_
    | with_reducible refine foldl4_evolves _ _ _ (fun _ _ _ => ?_) ?_
    | split
    | dsimp only
    | unfold Evolves; dsimp only
    | unfold Evolves

theorem computeAtomic_evolves {s0} (x0 x1 x2 x3 x4 x5) (h : Evolves s0 x0) : Evolves s0 (computeAtomic x0 x1 x2 x3 x4 x5).2 := by
  unfold computeAtomic
  repeat' first
    | with_reducible assumption
    | with_reducible apply atomicAt_evolves
    | with_reducible apply atomicTail_evolves
    | split
    | dsimp only
    | unfold Evolves; dsimp only
    | unfold Evolves

theorem logNme_evolves {s0} (x0 x1 x2 x3 x4 x5) (h : Evolves s0 x0) : Evolves s0 (logNme x0 x1 x2 x3 x4 x5) := by
  unfold logNme
  repeat' first
    | with_reducible assumption
    | with_reducible apply logErr_evolves
    | split
    | dsimp only
    | unfold Evolves; dsimp only
    | unfold Evolves

theorem scratchErrs_evolves {s0} (x0 x1 x2 x3 x4) (h : Evolves s0 x0) : Evolves s0 (scratchErrs x0 x1 x2 x3 x4).2 := by
  unfold scratchErrs
  repeat' first
    | with_reducible assumption
    | with_reducible apply setF_evolves
    | with_reducible apply setB_evolves
    | with_reducible apply logNme_evolves
    | with_reducible refine foldl_evolves _ _ _ (fun _ _ _ => ?_) ?_
    | with_reducible refine foldl2_evolves _ _ _ (fun _ _ _ => ?_) ?_
    | with_reducible refine foldl3_evolves _ _ _ (fun _ _ _ => ?_) ?_
    | with_reducible refine foldl4_evolves _ _ _ (fun _ _ _ => ?_) ?_
    | split
    | dsimp only
    | unfold Evolves; dsimp only
    | unfold Evolves

theorem scatterAgain_evolves {s0} (x0 x1 x2 x3 x4 x5) (h : Evolves s0 x0) : Evolves s0 (scatterAgain x0 x1 x2 x3 x4 x5).2 := by
  unfold scatterAgain
  repeat' first
    | with_reducible assumption
    | with_reducible apply loadRanges_evolves
    | with_reducible apply notePoison_evolves
    | with_reducible apply takeDraws_evolves
    | with_reducible apply buildWrites_evolves
    | with_reducible apply grantUpdate_evolves
    | with_reducible refine foldl_evolves _ _ _ (fun _ _ _ => ?_) ?_
    | with_reducible refine foldl2_evolves _ _ _ (fun _ _ _ => ?_) ?_
    | with_reducible refine foldl3_evolves _ _ _ (fun _ _ _ => ?_) ?_
    | with_reducible refine foldl4_evolves _ _ _ (fun _ _ _ => ?_) ?_
    | with_reducible apply evolves_free
    | split
    | dsimp only
    | unfold Evolves; dsimp only
    | unfold Evolves

theorem computeTile_evolves {s0} (x0 x1 x2 x3) (h : Evolves s0 x0) : Evolves s0 (computeTile x0 x1 x2 x3).2 := by
  unfold computeTile
  repeat' first
    | with_reducible assumption
    | with_reducible apply computeAtomic_evolves
    | with_reducible apply takeDraws_evolves
    | with_reducible apply scatterAgain_evolves
    | with_reducible apply buildWrites_evolves
    | with_reducible apply evolves_free
    | split
    | dsimp only
    | unfold Evolves; dsimp only
    | unfold Evolves

theorem removeTile_evolves {s0} (x0 x1 x2) (h : Evolves s0 x0) : Evolves s0 (removeTile x0 x1 x2) := by
  unfold removeTile
  repeat' first
    | with_reducible assumption
    | with_reducible apply engView_evolves
    | with_reducible apply ackInvals_evolves
    | split
    | dsimp only
    | unfold Evolves; dsimp only
    | unfold Evolves

theorem endTile_evolves {s0} (x0 x1 x2 x3) (h : Evolves s0 x0) : Evolves s0 (endTile x0 x1 x2 x3) := by
  unfold endTile
  repeat' first
    | with_reducible assumption
    | with_reducible apply noteEnd_evolves
    | with_reducible apply removeTile_evolves
    | with_reducible apply modDesc_evolves
    | with_reducible apply descCheck_evolves
    | with_reducible apply stopNumeric_evolves
    | split
    | dsimp only
    | unfold Evolves; dsimp only
    | unfold Evolves

theorem computeStep_evolves {s0} (x0 x1 x2 x3 x4 x5 x6) (h : Evolves s0 x0) : Evolves s0 (computeStep x0 x1 x2 x3 x4 x5 x6) := by
  unfold computeStep
  repeat' first
    | with_reducible assumption
    | with_reducible apply scratchErrs_evolves
    | with_reducible apply attrib_evolves
    | with_reducible apply computeTile_evolves
    | with_reducible apply endTile_evolves
    | with_reducible apply notePoison_evolves
    | with_reducible apply issueWrites_evolves
    | with_reducible apply modTile_evolves
    | split
    | dsimp only
    | unfold Evolves; dsimp only
    | unfold Evolves

theorem countTile_evolves {s0} (x0 x1 x2 x3 x4) (h : Evolves s0 x0) : Evolves s0 (countTile x0 x1 x2 x3 x4) := by
  unfold countTile
  repeat' first
    | with_reducible assumption
    | with_reducible apply sampleStamp_evolves
    | with_reducible apply removeTile_evolves
    | with_reducible apply notePoison_evolves
    | with_reducible apply modDesc_evolves
    | with_reducible apply afterTiles_evolves
    | split
    | dsimp only
    | unfold Evolves; dsimp only
    | unfold Evolves

theorem enqueue_evolves {s0} (x0 x1 x2 x3 x4) (h : Evolves s0 x0) : Evolves s0 (enqueue x0 x1 x2 x3 x4) := by
  unfold enqueue
  repeat' first
    | with_reducible assumption
    | split
    | dsimp only
    | unfold Evolves; dsimp only
    | unfold Evolves

theorem giveCtxs_evolves {s0} (x0 x1) (h : Evolves s0 x0) : Evolves s0 (giveCtxs x0 x1) := by
  unfold giveCtxs
  repeat' first
    | with_reducible assumption
    | with_reducible apply engView_evolves
    | with_reducible refine foldl_evolves _ _ _ (fun _ _ _ => ?_) ?_
    | with_reducible refine foldl2_evolves _ _ _ (fun _ _ _ => ?_) ?_
    | with_reducible refine foldl3_evolves _ _ _ (fun _ _ _ => ?_) ?_
    | with_reducible refine foldl4_evolves _ _ _ (fun _ _ _ => ?_) ?_
    | split
    | dsimp only
    | unfold Evolves; dsimp only
    | unfold Evolves

theorem noteLoad_evolves {s0} (x0 x1 x2) (h : Evolves s0 x0) : Evolves s0 (noteLoad x0 x1 x2) := by
  unfold noteLoad
  repeat' first
    | with_reducible assumption
    | with_reducible apply bump_evolves
    | with_reducible apply setB_evolves
    | split
    | dsimp only
    | unfold Evolves; dsimp only
    | unfold Evolves

theorem loadStep_evolves {s0} (x0 x1 x2 x3) (h : Evolves s0 x0) : Evolves s0 (loadStep x0 x1 x2 x3) := by
  unfold loadStep
  repeat' first
    | with_reducible assumption
    | with_reducible apply sampleStamp_evolves
    | with_reducible apply attrib_evolves
    | with_reducible apply loadRanges_evolves
    | with_reducible apply noteLoad_evolves
    | with_reducible apply telEvent_evolves
    | with_reducible apply endTile_evolves
    | with_reducible apply notePoison_evolves
    | with_reducible apply modTile_evolves
    | split
    | dsimp only
    | unfold Evolves; dsimp only
    | unfold Evolves

theorem retireStep_evolves {s0} (x0 x1 x2) (h : Evolves s0 x0) : Evolves s0 (retireStep x0 x1 x2) := by
  unfold retireStep
  repeat' first
    | with_reducible assumption
    | with_reducible apply issueWrites_evolves
    | with_reducible apply countTile_evolves
    | with_reducible apply bump_evolves
    | split
    | dsimp only
    | unfold Evolves; dsimp only
    | unfold Evolves

theorem tileXlate_evolves {s0} (x0 x1 x2 x3 x4) (h : Evolves s0 x0) : Evolves s0 (tileXlate x0 x1 x2 x3 x4).2 := by
  unfold tileXlate
  repeat' first
    | with_reducible assumption
    | with_reducible apply xlateAll_evolves
    | with_reducible apply loadRanges_evolves
    | with_reducible apply noteLoad_evolves
    | with_reducible refine foldl_evolves _ _ _ (fun _ _ _ => ?_) ?_
    | with_reducible refine foldl2_evolves _ _ _ (fun _ _ _ => ?_) ?_
    | with_reducible refine foldl3_evolves _ _ _ (fun _ _ _ => ?_) ?_
    | with_reducible refine foldl4_evolves _ _ _ (fun _ _ _ => ?_) ?_
    | split
    | dsimp only
    | unfold Evolves; dsimp only
    | unfold Evolves

theorem setBinds_evolves {s0} (x0 x1 x2) (h : Evolves s0 x0) : Evolves s0 (setBinds x0 x1 x2) := by
  unfold setBinds
  repeat' first
    | with_reducible assumption
    | with_reducible apply modDesc_evolves
    | split
    | dsimp only
    | unfold Evolves; dsimp only
    | unfold Evolves

theorem suspendTile_evolves {s0} (x0 x1 x2 x3) (h : Evolves s0 x0) : Evolves s0 (suspendTile x0 x1 x2 x3) := by
  unfold suspendTile
  repeat' first
    | with_reducible assumption
    | with_reducible apply removeTile_evolves
    | with_reducible apply holdItem_evolves
    | with_reducible apply busyFin_evolves
    | with_reducible apply endTile_evolves
    | split
    | dsimp only
    | unfold Evolves; dsimp only
    | unfold Evolves

theorem takeLeases_evolves {s0 s t : State} {a b c d} (h : Evolves s0 s) (e : takeLeases s a b c d = some t) : Evolves s0 t := by
  unfold takeLeases at e
  extract_lets mine live need new idle out rest used at e
  clear_value mine live new idle out rest used
  split at e
  · cases e
  · cases e
    exact id h
theorem startTile_evolves {s0} (x0 x1 x2 x3) (h : Evolves s0 x0) : Evolves s0 (startTile x0 x1 x2 x3) := by
  unfold startTile
  extract_lets e num x a s1
  have k : Evolves s0 x.2 := evolves_at2 (tileXlate_evolves _ _ _ _ _ (attrib_evolves _ _ _ _ h)) rfl
  have k1 : Evolves s0 s1 := setBinds_evolves _ _ _ k
  clear_value x s1 a
  split
  · exact endTile_evolves _ _ _ _ (notePoison_evolves _ _ _ _ k1)
  split
  · exact suspendTile_evolves _ _ _ _ k1
  split
  · exact id h
  split
  · exact id h
  · rename_i t e
    exact engView_evolves _ _ (modTile_evolves _ _ _ _ (sampleFirst_evolves _ _ _ _ (addFlights_evolves _ _ _ _ _ _ (takeLeases_evolves k1 e))))

theorem runQueued_evolves {s0} (x0 x1 x2 x3 x4) (h : Evolves s0 x0) : Evolves s0 (runQueued x0 x1 x2 x3 x4) := by
  unfold runQueued
  repeat' first
    | with_reducible assumption
    | with_reducible refine atStep_evolves _ _ _ _ _ (fun _ _ _ _ => ?_) ?_
    | with_reducible apply giveCtxs_evolves
    | with_reducible apply startTile_evolves
    | with_reducible apply loadStep_evolves
    | with_reducible apply computeStep_evolves
    | with_reducible apply combineAll_evolves
    | with_reducible apply retireStep_evolves
    | split
    | dsimp only
    | unfold Evolves; dsimp only
    | unfold Evolves

theorem runTile_evolves {s0} (x0 x1 x2 x3 x4 x5) (h : Evolves s0 x0) : Evolves s0 (runTile x0 x1 x2 x3 x4 x5) := by
  unfold runTile
  repeat' first
    | with_reducible assumption
    | with_reducible apply runQueued_evolves
    | with_reducible apply enqueue_evolves
    | split
    | dsimp only
    | unfold Evolves; dsimp only
    | unfold Evolves

theorem atomicRemote_evolves {s0} (x0 x1 x2) (h : Evolves s0 x0) : Evolves s0 (atomicRemote x0 x1 x2) := by
  unfold atomicRemote
  repeat' first
    | with_reducible assumption
    | with_reducible apply xlateAll_evolves
    | with_reducible apply setBinds_evolves
    | with_reducible apply endTile_evolves
    | with_reducible apply suspendTile_evolves
    | with_reducible apply addFlights_evolves
    | with_reducible apply enqueue_evolves
    | with_reducible apply modTile_evolves
    | with_reducible apply sendReq_evolves
    | split
    | dsimp only
    | unfold Evolves; dsimp only
    | unfold Evolves

theorem atomicReply_evolves {s0} (x0 x1 x2 x3 x4) (h : Evolves s0 x0) : Evolves s0 (atomicReply x0 x1 x2 x3 x4) := by
  unfold atomicReply
  repeat' first
    | with_reducible assumption
    | with_reducible refine atStep_evolves _ _ _ _ _ (fun _ _ _ _ => ?_) ?_
    | with_reducible apply atomicTail_evolves
    | with_reducible apply endTile_evolves
    | with_reducible apply countTile_evolves
    | with_reducible apply issueAll_evolves
    | split
    | dsimp only
    | unfold Evolves; dsimp only
    | unfold Evolves

theorem batchFail_evolves {s0} (x0 x1 x2) (h : Evolves s0 x0) : Evolves s0 (batchFail x0 x1 x2) := by
  unfold batchFail
  repeat' first
    | with_reducible assumption
    | with_reducible apply replyBatch_evolves
    | with_reducible apply modDesc_evolves
    | split
    | dsimp only
    | unfold Evolves; dsimp only
    | unfold Evolves

theorem sendBatches_evolves {s0} (x0 : Nat) (x1 x2) (h : Evolves s0 x1) : Evolves s0 (sendBatches x0 x1 x2) := by
  induction x0 generalizing x1 with
  | zero => exact id h
  | succ n ih =>
    unfold sendBatches
    repeat'
      first
      | exact id h
      | split
      | apply ih
      | with_reducible apply evolves_keep
      | apply sendReq_evolves
      | apply sampleStamp_evolves

theorem batchOver_evolves {s0} (x0 x1 x2 x3 x4 x5 x6 x7) (h : Evolves s0 x0) : Evolves s0 (batchOver x0 x1 x2 x3 x4 x5 x6 x7) := by
  unfold batchOver
  repeat' first
    | with_reducible assumption
    | with_reducible apply xlateAll_evolves
    | with_reducible apply setBinds_evolves
    | with_reducible apply noteEnd_evolves
    | with_reducible apply combinePart_evolves
    | with_reducible apply modDesc_evolves
    | with_reducible apply afterTiles_evolves
    | with_reducible apply sendBatches_evolves
    | with_reducible apply stopNumeric_evolves
    | with_reducible refine foldl_evolves _ _ _ (fun _ _ _ => ?_) ?_
    | with_reducible refine foldl2_evolves _ _ _ (fun _ _ _ => ?_) ?_
    | with_reducible refine foldl3_evolves _ _ _ (fun _ _ _ => ?_) ?_
    | with_reducible refine foldl4_evolves _ _ _ (fun _ _ _ => ?_) ?_
    | split
    | dsimp only
    | unfold Evolves; dsimp only
    | unfold Evolves

theorem batchTile_evolves {s0} (x0 x1 x2 x3) (h : Evolves s0 x0) : Evolves s0 (batchTile x0 x1 x2 x3) := by
  unfold batchTile
  repeat' first
    | with_reducible assumption
    | with_reducible apply modDesc_evolves
    | split
    | dsimp only
    | unfold Evolves; dsimp only
    | unfold Evolves

theorem bindFar_evolves {s0} (x0 x1) (h : Evolves s0 x0) : Evolves s0 (bindFar x0 x1).2 := by
  unfold bindFar
  repeat' first
    | with_reducible assumption
    | with_reducible apply xlateAll_evolves
    | with_reducible apply setBinds_evolves
    | split
    | dsimp only
    | unfold Evolves; dsimp only
    | unfold Evolves

theorem remoteTile_evolves {s0} (x0 x1 x2 x3) (h : Evolves s0 x0) : Evolves s0 (remoteTile x0 x1 x2 x3) := by
  unfold remoteTile
  repeat' first
    | with_reducible assumption
    | with_reducible apply atomicRemote_evolves
    | with_reducible apply batchTile_evolves
    | split
    | dsimp only
    | unfold Evolves; dsimp only
    | unfold Evolves

theorem tileGo_evolves {s0} (x0 x1 x2 x3) (h : Evolves s0 x0) : Evolves s0 (tileGo x0 x1 x2 x3) := by
  unfold tileGo
  repeat' first
    | with_reducible assumption
    | with_reducible apply runTile_evolves
    | with_reducible apply enqueue_evolves
    | split
    | dsimp only
    | unfold Evolves; dsimp only
    | unfold Evolves

theorem sendTile_evolves {s0} (x0 x1 x2 x3) (h : Evolves s0 x0) : Evolves s0 (sendTile x0 x1 x2 x3) := by
  unfold sendTile
  repeat' first
    | with_reducible assumption
    | with_reducible apply modDesc_evolves
    | with_reducible apply remoteTile_evolves
    | with_reducible apply tileGo_evolves
    | with_reducible refine foldl_evolves _ _ _ (fun _ _ _ => ?_) ?_
    | with_reducible refine foldl2_evolves _ _ _ (fun _ _ _ => ?_) ?_
    | with_reducible refine foldl3_evolves _ _ _ (fun _ _ _ => ?_) ?_
    | with_reducible refine foldl4_evolves _ _ _ (fun _ _ _ => ?_) ?_
    | split
    | dsimp only
    | unfold Evolves; dsimp only
    | unfold Evolves

theorem queueTile_evolves {s0} (x0 x1 x2) (h : Evolves s0 x0) : Evolves s0 (queueTile x0 x1 x2) := by
  unfold queueTile
  repeat' first
    | with_reducible assumption
    | with_reducible apply sendTile_evolves
    | split
    | dsimp only
    | unfold Evolves; dsimp only
    | unfold Evolves

theorem chargeTile_evolves {s0} (x0 x1 x2) (h : Evolves s0 x0) : Evolves s0 (chargeTile x0 x1 x2) := by
  unfold chargeTile
  repeat' first
    | with_reducible assumption
    | with_reducible apply queueTile_evolves
    | with_reducible apply decideCharge_evolves
    | with_reducible apply modDesc_evolves
    | with_reducible apply countCls_evolves
    | with_reducible apply redoWork_evolves
    | with_reducible apply holdWork_evolves
    | split
    | dsimp only
    | unfold Evolves; dsimp only
    | unfold Evolves

theorem prePass_evolves {s0} (x0 x1 x2 x3 x4) (h : Evolves s0 x0) : Evolves s0 (prePass x0 x1 x2 x3 x4).2 := by
  unfold prePass
  repeat' first
    | with_reducible assumption
    | with_reducible apply xlateAll_evolves
    | with_reducible apply loadRanges_evolves
    | with_reducible apply setBinds_evolves
    | split
    | dsimp only
    | unfold Evolves; dsimp only
    | unfold Evolves

theorem prePasses_evolves {s0} (x0 x1 x2) (h : Evolves s0 x0) : Evolves s0 (prePasses x0 x1 x2).2 := by
  unfold prePasses
  repeat' first
    | with_reducible assumption
    | with_reducible apply prePass_evolves
    | split
    | dsimp only
    | unfold Evolves; dsimp only
    | unfold Evolves

theorem runBatch_evolves {s0} (x0 x1 x2) (h : Evolves s0 x0) : Evolves s0 (runBatch x0 x1 x2) := by
  unfold runBatch
  repeat' first
    | with_reducible assumption
    | with_reducible apply batchFail_evolves
    | with_reducible apply prePasses_evolves
    | with_reducible apply holdItem_evolves
    | with_reducible apply modDesc_evolves
    | with_reducible apply busyFin_evolves
    | with_reducible apply endTile_evolves
    | with_reducible apply sendTile_evolves
    | with_reducible apply descCheck_evolves
    | with_reducible refine foldl_evolves _ _ _ (fun _ _ _ => ?_) ?_
    | with_reducible refine foldl2_evolves _ _ _ (fun _ _ _ => ?_) ?_
    | with_reducible refine foldl3_evolves _ _ _ (fun _ _ _ => ?_) ?_
    | with_reducible refine foldl4_evolves _ _ _ (fun _ _ _ => ?_) ?_
    | split
    | dsimp only
    | unfold Evolves; dsimp only
    | unfold Evolves

theorem opOpen_evolves {s0} (x0 x1 x2) (h : Evolves s0 x0) : Evolves s0 (opOpen x0 x1 x2).2 := by
  unfold opOpen
  repeat' first
    | with_reducible assumption
    | with_reducible apply endDesc_evolves
    | with_reducible apply holdItem_evolves
    | with_reducible apply modDesc_evolves
    | with_reducible apply busyFin_evolves
    | with_reducible apply prePasses_evolves
    | with_reducible apply bindFar_evolves
    | split
    | dsimp only
    | unfold Evolves; dsimp only
    | unfold Evolves

theorem openPhase_evolves {s0} (x0 x1) (h : Evolves s0 x0) : Evolves s0 (openPhase x0 x1).2 := by
  unfold openPhase
  repeat' first
    | with_reducible assumption
    | with_reducible apply modDesc_evolves
    | split
    | dsimp only
    | unfold Evolves; dsimp only
    | unfold Evolves

theorem dispatchDesc_evolves {s0} (x0 x1 x2) (h : Evolves s0 x0) : Evolves s0 (dispatchDesc x0 x1 x2) := by
  unfold dispatchDesc
  repeat' first
    | with_reducible assumption
    | with_reducible apply runBatch_evolves
    | with_reducible apply opOpen_evolves
    | with_reducible apply openPhase_evolves
    | with_reducible apply chargeTile_evolves
    | with_reducible apply descCheck_evolves
    | with_reducible apply sendBatches_evolves
    | with_reducible refine foldl_evolves _ _ _ (fun _ _ _ => ?_) ?_
    | with_reducible refine foldl2_evolves _ _ _ (fun _ _ _ => ?_) ?_
    | with_reducible refine foldl3_evolves _ _ _ (fun _ _ _ => ?_) ?_
    | with_reducible refine foldl4_evolves _ _ _ (fun _ _ _ => ?_) ?_
    | split
    | dsimp only
    | unfold Evolves; dsimp only
    | unfold Evolves

theorem inlineTile_evolves {s0} (x0 x1 x2 x3) (h : Evolves s0 x0) : Evolves s0 (inlineTile x0 x1 x2 x3) := by
  unfold inlineTile
  repeat' first
    | with_reducible assumption
    | with_reducible apply chargeInline_evolves
    | with_reducible apply sendTile_evolves
    | with_reducible apply modDesc_evolves
    | split
    | dsimp only
    | unfold Evolves; dsimp only
    | unfold Evolves

theorem resumeTile_evolves {s0} (x0 x1 x2) (h : Evolves s0 x0) : Evolves s0 (resumeTile x0 x1 x2) := by
  unfold resumeTile
  repeat' first
    | with_reducible assumption
    | with_reducible apply tileGo_evolves
    | with_reducible apply queueTile_evolves
    | split
    | dsimp only
    | unfold Evolves; dsimp only
    | unfold Evolves

theorem tileOrder_evolves {s0} (x0 x1) (h : Evolves s0 x0) : Evolves s0 (tileOrder x0 x1).2 := by
  unfold tileOrder
  repeat' first
    | with_reducible assumption
    | with_reducible apply evolves_free
    | split
    | dsimp only
    | unfold Evolves; dsimp only
    | unfold Evolves

theorem runPhase_evolves {s0} (x0 x1 x2) (h : Evolves s0 x0) : Evolves s0 (runPhase x0 x1 x2) := by
  unfold runPhase
  repeat' first
    | with_reducible assumption
    | with_reducible apply opOpen_evolves
    | with_reducible apply openPhase_evolves
    | with_reducible apply tileOrder_evolves
    | with_reducible apply inlineTile_evolves
    | with_reducible apply descCheck_evolves
    | with_reducible apply sendBatches_evolves
    | with_reducible refine foldl_evolves _ _ _ (fun _ _ _ => ?_) ?_
    | with_reducible refine foldl2_evolves _ _ _ (fun _ _ _ => ?_) ?_
    | with_reducible refine foldl3_evolves _ _ _ (fun _ _ _ => ?_) ?_
    | with_reducible refine foldl4_evolves _ _ _ (fun _ _ _ => ?_) ?_
    | split
    | dsimp only
    | unfold Evolves; dsimp only
    | unfold Evolves

theorem runDesc_evolves {s0} (x0 x1 x2) (h : Evolves s0 x0) : Evolves s0 (runDesc x0 x1 x2) := by
  unfold runDesc
  repeat' first
    | with_reducible assumption
    | with_reducible apply runPhase_evolves
    | split
    | dsimp only
    | unfold Evolves; dsimp only
    | unfold Evolves

theorem stopEngine_evolves {s0} (x0 x1 x2) (h : Evolves s0 x0) : Evolves s0 (stopEngine x0 x1 x2) := by
  unfold stopEngine
  repeat' first
    | with_reducible assumption
    | with_reducible apply modDesc_evolves
    | with_reducible apply descCheck_evolves
    | with_reducible apply dropUnstarted_evolves
    | split
    | dsimp only
    | unfold Evolves; dsimp only
    | unfold Evolves

end Sys2Proof.Machine
end

