-- ==== Sys2Proof/Laws/EvolveRequests.lean ====
section
/-!
SUPPORT. Laws/EvolveRequests.lean: one lemma for each operation that answers a state, over DMA, requests, engines, queue commands, operators and regions:
what Evolves says of a machine holds after it too.
-/
namespace Sys2Proof.Machine
open Sys2Proof

theorem modRun_evolves {s0} (x0 x1 x2) (h : Evolves s0 x0) : Evolves s0 (modRun x0 x1 x2) := by
  unfold modRun
  repeat' first
    | with_reducible assumption
    | split
    | dsimp only
    | unfold Evolves; dsimp only
    | unfold Evolves

theorem halfGo_evolves {s0} (x0 x1 x2 x3) (h : Evolves s0 x0) : Evolves s0 (halfGo x0 x1 x2 x3) := by
  unfold halfGo
  repeat' first
    | with_reducible assumption
    | with_reducible apply progressRecord_evolves
    | with_reducible apply modRun_evolves
    | split
    | dsimp only
    | unfold Evolves; dsimp only
    | unfold Evolves

theorem haltRun_evolves {s0} (x0 x1) (h : Evolves s0 x0) : Evolves s0 (haltRun x0 x1) := by
  unfold haltRun
  repeat' first
    | with_reducible assumption
    | with_reducible apply holdView_evolves
    | split
    | dsimp only
    | unfold Evolves; dsimp only
    | unfold Evolves

theorem dmaView_evolves {s0} (x0 x1) (h : Evolves s0 x0) : Evolves s0 (dmaView x0 x1) := by
  unfold dmaView
  repeat' first
    | with_reducible assumption
    | with_reducible apply setB_evolves
    | with_reducible apply setF_evolves
    | with_reducible refine foldl_evolves _ _ _ (fun _ _ _ => ?_) ?_
    | with_reducible refine foldl2_evolves _ _ _ (fun _ _ _ => ?_) ?_
    | with_reducible refine foldl3_evolves _ _ _ (fun _ _ _ => ?_) ?_
    | with_reducible refine foldl4_evolves _ _ _ (fun _ _ _ => ?_) ?_
    | split
    | dsimp only
    | unfold Evolves; dsimp only
    | unfold Evolves

theorem dmaRefill_evolves {s0} (x0) (h : Evolves s0 x0) : Evolves s0 (dmaRefill x0) := by
  unfold dmaRefill
  repeat' first
    | with_reducible assumption
    | with_reducible apply dmaView_evolves
    | with_reducible apply modDesc_evolves
    | with_reducible refine foldl_evolves _ _ _ (fun _ _ _ => ?_) ?_
    | with_reducible refine foldl2_evolves _ _ _ (fun _ _ _ => ?_) ?_
    | with_reducible refine foldl3_evolves _ _ _ (fun _ _ _ => ?_) ?_
    | with_reducible refine foldl4_evolves _ _ _ (fun _ _ _ => ?_) ?_
    | split
    | dsimp only
    | unfold Evolves; dsimp only
    | unfold Evolves

theorem endDma_evolves {s0} (x0 x1 x2) (h : Evolves s0 x0) : Evolves s0 (endDma x0 x1 x2) := by
  unfold endDma
  repeat' first
    | with_reducible assumption
    | with_reducible apply haltRun_evolves
    | with_reducible apply dmaRefill_evolves
    | with_reducible apply endDesc_evolves
    | with_reducible apply dmaView_evolves
    | split
    | dsimp only
    | unfold Evolves; dsimp only
    | unfold Evolves

theorem ackDone_evolves {s0} (x0 x1) (h : Evolves s0 x0) : Evolves s0 (ackDone x0 x1) := by
  unfold ackDone
  repeat' first
    | with_reducible assumption
    | with_reducible apply modDesc_evolves
    | with_reducible apply halfGo_evolves
    | with_reducible apply descCheck_evolves
    | with_reducible apply endDma_evolves
    | with_reducible apply endDesc_evolves
    | split
    | dsimp only
    | unfold Evolves; dsimp only
    | unfold Evolves

theorem flushRead_evolves {s0} (x0 x1 x2 x3) (h : Evolves s0 x0) : Evolves s0 (flushRead x0 x1 x2 x3).2 := by
  unfold flushRead
  repeat' first
    | with_reducible assumption
    | with_reducible apply emit_evolves
    | split
    | dsimp only
    | unfold Evolves; dsimp only
    | unfold Evolves

theorem closeDma_evolves {s0} (x0 x1 x2) (h : Evolves s0 x0) : Evolves s0 (closeDma x0 x1 x2) := by
  unfold closeDma
  repeat' first
    | with_reducible assumption
    | with_reducible apply modDesc_evolves
    | with_reducible apply flushRead_evolves
    | with_reducible apply haltRun_evolves
    | with_reducible apply endDma_evolves
    | split
    | dsimp only
    | unfold Evolves; dsimp only
    | unfold Evolves

theorem logDma_evolves {s0} (x0 x1 x2 x3 x4 x5) (h : Evolves s0 x0) : Evolves s0 (logDma x0 x1 x2 x3 x4 x5) := by
  unfold logDma
  repeat' first
    | with_reducible assumption
    | with_reducible apply logErr_evolves
    | split
    | dsimp only
    | unfold Evolves; dsimp only
    | unfold Evolves

theorem failDma_evolves {s0} (x0 x1 x2 x3 x4 x5) (h : Evolves s0 x0) : Evolves s0 (failDma x0 x1 x2 x3 x4 x5) := by
  unfold failDma
  repeat' first
    | with_reducible assumption
    | with_reducible apply logDma_evolves
    | with_reducible apply closeDma_evolves
    | with_reducible apply modDesc_evolves
    | split
    | dsimp only
    | unfold Evolves; dsimp only
    | unfold Evolves

theorem failPiece_evolves {s0} (x0 x1 x2 x3 x4) (h : Evolves s0 x0) : Evolves s0 (failPiece x0 x1 x2 x3 x4) := by
  unfold failPiece
  repeat' first
    | with_reducible assumption
    | with_reducible apply failDma_evolves
    | with_reducible apply modRun_evolves
    | split
    | dsimp only
    | unfold Evolves; dsimp only
    | unfold Evolves

theorem halfPoint_evolves {s0} (x0 x1 x2 x3) (h : Evolves s0 x0) : Evolves s0 (halfPoint x0 x1 x2 x3) := by
  unfold halfPoint
  repeat' first
    | with_reducible assumption
    | with_reducible apply flushRead_evolves
    | with_reducible apply modRun_evolves
    | with_reducible apply progressRecord_evolves
    | split
    | dsimp only
    | unfold Evolves; dsimp only
    | unfold Evolves

theorem issueReads_evolves {s0} (x0 x1 x2 x3 x4 x5) (h : Evolves s0 x0) : Evolves s0 (issueReads x0 x1 x2 x3 x4 x5) := by
  unfold issueReads
  repeat' first
    | with_reducible assumption
    | with_reducible apply emit_evolves
    | with_reducible apply memRead_evolves
    | with_reducible refine foldl_evolves _ _ _ (fun _ _ _ => ?_) ?_
    | with_reducible refine foldl2_evolves _ _ _ (fun _ _ _ => ?_) ?_
    | with_reducible refine foldl3_evolves _ _ _ (fun _ _ _ => ?_) ?_
    | with_reducible refine foldl4_evolves _ _ _ (fun _ _ _ => ?_) ?_
    | split
    | dsimp only
    | unfold Evolves; dsimp only
    | unfold Evolves

theorem migView_evolves {s0} (x0) (h : Evolves s0 x0) : Evolves s0 (migView x0) := by
  unfold migView
  repeat' first
    | with_reducible assumption
    | with_reducible apply setF_evolves
    | with_reducible apply setB_evolves
    | split
    | dsimp only
    | unfold Evolves; dsimp only
    | unfold Evolves

theorem pieceDone_evolves {s0} (x0 x1 x2 x3) (h : Evolves s0 x0) : Evolves s0 (pieceDone x0 x1 x2 x3) := by
  unfold pieceDone
  repeat' first
    | with_reducible assumption
    | with_reducible apply bump_evolves
    | with_reducible apply sampleStamp_evolves
    | with_reducible apply modDesc_evolves
    | with_reducible apply modRun_evolves
    | with_reducible apply closeDma_evolves
    | with_reducible apply halfPoint_evolves
    | with_reducible apply failDma_evolves
    | split
    | dsimp only
    | unfold Evolves; dsimp only
    | unfold Evolves

theorem pieceFromHost_evolves {s0} (x0 x1 x2 x3 x4) (h : Evolves s0 x0) : Evolves s0 (pieceFromHost x0 x1 x2 x3 x4) := by
  unfold pieceFromHost
  repeat' first
    | with_reducible assumption
    | with_reducible apply buildWrites_evolves
    | with_reducible apply failDma_evolves
    | with_reducible apply issueAll_evolves
    | with_reducible apply noteEnd_evolves
    | with_reducible apply pieceDone_evolves
    | split
    | dsimp only
    | unfold Evolves; dsimp only
    | unfold Evolves

theorem sendHost_evolves {s0} (x0 x1 x2 x3 x4) (h : Evolves s0 x0) : Evolves s0 (sendHost x0 x1 x2 x3 x4) := by
  unfold sendHost
  repeat' first
    | with_reducible assumption
    | with_reducible apply emit_evolves
    | with_reducible refine foldl_evolves _ _ _ (fun _ _ _ => ?_) ?_
    | with_reducible refine foldl2_evolves _ _ _ (fun _ _ _ => ?_) ?_
    | with_reducible refine foldl3_evolves _ _ _ (fun _ _ _ => ?_) ?_
    | with_reducible refine foldl4_evolves _ _ _ (fun _ _ _ => ?_) ?_
    | split
    | dsimp only
    | unfold Evolves; dsimp only
    | unfold Evolves

theorem pieceToHost_evolves {s0} (x0 x1 x2 x3 x4 x5 x6 x7) (h : Evolves s0 x0) : Evolves s0 (pieceToHost x0 x1 x2 x3 x4 x5 x6 x7) := by
  unfold pieceToHost
  repeat' first
    | with_reducible assumption
    | with_reducible apply loadRanges_evolves
    | with_reducible apply noteEnd_evolves
    | with_reducible apply failDma_evolves
    | with_reducible apply pieceDone_evolves
    | with_reducible apply sendHost_evolves
    | split
    | dsimp only
    | unfold Evolves; dsimp only
    | unfold Evolves

theorem pieceXlate_evolves {s0} (x0 x1 x2 x3 x4) (h : Evolves s0 x0) : Evolves s0 (pieceXlate x0 x1 x2 x3 x4).2 := by
  unfold pieceXlate
  repeat' first
    | with_reducible assumption
    | with_reducible apply xlateAll_evolves
    | with_reducible apply addFlights_evolves
    | with_reducible apply setBinds_evolves
    | with_reducible apply sampleFirst_evolves
    | with_reducible refine foldl_evolves _ _ _ (fun _ _ _ => ?_) ?_
    | with_reducible refine foldl2_evolves _ _ _ (fun _ _ _ => ?_) ?_
    | with_reducible refine foldl3_evolves _ _ _ (fun _ _ _ => ?_) ?_
    | with_reducible refine foldl4_evolves _ _ _ (fun _ _ _ => ?_) ?_
    | split
    | dsimp only
    | unfold Evolves; dsimp only
    | unfold Evolves

theorem piecesGo_evolves {s0} (x0 : Nat) (x1 x2 x3) (h : Evolves s0 x1) : Evolves s0 (piecesGo x0 x1 x2 x3) := by
  induction x0 generalizing x1 with
  | zero => exact id h
  | succ n ih =>
    unfold piecesGo
    repeat' first
      | with_reducible assumption
      | with_reducible apply ih
      | with_reducible apply pieceFromHost_evolves
      | split
      | dsimp only
      | unfold Evolves; dsimp only

theorem stopDma_evolves {s0} (x0 x1 x2) (h : Evolves s0 x0) : Evolves s0 (stopDma x0 x1 x2) := by
  unfold stopDma
  repeat' first
    | with_reducible assumption
    | with_reducible apply modDesc_evolves
    | with_reducible apply closeDma_evolves
    | with_reducible apply endDma_evolves
    | split
    | dsimp only
    | unfold Evolves; dsimp only
    | unfold Evolves

theorem stopDesc_evolves {s0} (x0 x1 x2) (h : Evolves s0 x0) : Evolves s0 (stopDesc x0 x1 x2) := by
  unfold stopDesc
  repeat' first
    | with_reducible assumption
    | with_reducible apply stopEngine_evolves
    | with_reducible apply batchFail_evolves
    | with_reducible apply endDesc_evolves
    | with_reducible apply stopDma_evolves
    | with_reducible apply modDesc_evolves
    | split
    | dsimp only
    | unfold Evolves; dsimp only
    | unfold Evolves

theorem addReq_evolves {s0} (x0 x1 x2) (h : Evolves s0 x0) : Evolves s0 (addReq x0 x1 x2).2 := by
  unfold addReq
  repeat' first
    | with_reducible assumption
    | split
    | dsimp only
    | unfold Evolves; dsimp only
    | unfold Evolves

theorem reqAttrib_evolves {s0} (x0 x1) (h : Evolves s0 x0) : Evolves s0 (reqAttrib x0 x1) := by
  unfold reqAttrib
  repeat' first
    | with_reducible assumption
    | with_reducible apply attrib_evolves
    | split
    | dsimp only
    | unfold Evolves; dsimp only
    | unfold Evolves

theorem flowDone_evolves {s0} (x0 x1 x2) (h : Evolves s0 x0) : Evolves s0 (flowDone x0 x1 x2) := by
  unfold flowDone
  repeat' first
    | with_reducible assumption
    | split
    | dsimp only
    | unfold Evolves; dsimp only
    | unfold Evolves

theorem dropReq_evolves {s0} (x0 x1) (h : Evolves s0 x0) : Evolves s0 (dropReq x0 x1) := by
  unfold dropReq
  repeat' first
    | with_reducible assumption
    | with_reducible apply holdView_evolves
    | split
    | dsimp only
    | unfold Evolves; dsimp only
    | unfold Evolves

theorem refuseReq_evolves {s0} (x0 x1 x2 x3) (h : Evolves s0 x0) : Evolves s0 (refuseReq x0 x1 x2 x3) := by
  unfold refuseReq
  repeat' first
    | with_reducible assumption
    | with_reducible apply flowDone_evolves
    | with_reducible apply errRsp_evolves
    | with_reducible apply dropReq_evolves
    | split
    | dsimp only
    | unfold Evolves; dsimp only
    | unfold Evolves

theorem modReq_evolves {s0} (x0 x1 x2) (h : Evolves s0 x0) : Evolves s0 (modReq x0 x1 x2) := by
  unfold modReq
  repeat' first
    | with_reducible assumption
    | split
    | dsimp only
    | unfold Evolves; dsimp only
    | unfold Evolves

theorem cacheReq_evolves {s0} (x0 x1 x2) (h : Evolves s0 x0) : Evolves s0 (cacheReq x0 x1 x2).2 := by
  unfold cacheReq
  repeat' first
    | with_reducible assumption
    | with_reducible apply refuseReq_evolves
    | with_reducible apply flowDone_evolves
    | with_reducible apply dropReq_evolves
    | with_reducible apply endReq_evolves
    | with_reducible apply stampReq_evolves
    | with_reducible apply inject_evolves
    | with_reducible apply cohErr_evolves
    | with_reducible apply logDir_evolves
    | with_reducible apply dirEnter_evolves
    | split
    | dsimp only
    | unfold Evolves; dsimp only
    | unfold Evolves

theorem answerReq_evolves {s0} (x0 x1) (h : Evolves s0 x0) : Evolves s0 (answerReq x0 x1) := by
  unfold answerReq
  repeat' first
    | with_reducible assumption
    | with_reducible apply flowDone_evolves
    | with_reducible apply endReq_evolves
    | with_reducible apply inject_evolves
    | with_reducible apply dropReq_evolves
    | split
    | dsimp only
    | unfold Evolves; dsimp only
    | unfold Evolves

theorem dirStep_evolves {s0} (x0 x1 x2) (h : Evolves s0 x0) : Evolves s0 (dirStep x0 x1 x2).2 := by
  unfold dirStep
  repeat' first
    | with_reducible assumption
    | with_reducible apply dirEnter_evolves
    | with_reducible refine foldl_evolves _ _ _ (fun _ _ _ => ?_) ?_
    | with_reducible refine foldl2_evolves _ _ _ (fun _ _ _ => ?_) ?_
    | with_reducible refine foldl3_evolves _ _ _ (fun _ _ _ => ?_) ?_
    | with_reducible refine foldl4_evolves _ _ _ (fun _ _ _ => ?_) ?_
    | split
    | dsimp only
    | unfold Evolves; dsimp only
    | unfold Evolves

theorem serveRead_evolves {s0} (x0 x1 x2) (h : Evolves s0 x0) : Evolves s0 (serveRead x0 x1 x2).2 := by
  unfold serveRead
  repeat' first
    | with_reducible assumption
    | with_reducible apply loadGran_evolves
    | with_reducible refine foldl_evolves _ _ _ (fun _ _ _ => ?_) ?_
    | with_reducible refine foldl2_evolves _ _ _ (fun _ _ _ => ?_) ?_
    | with_reducible refine foldl3_evolves _ _ _ (fun _ _ _ => ?_) ?_
    | with_reducible refine foldl4_evolves _ _ _ (fun _ _ _ => ?_) ?_
    | split
    | dsimp only
    | unfold Evolves; dsimp only
    | unfold Evolves

theorem mergeReq_evolves {s0} (x0 x1 x2 x3 x4) (h : Evolves s0 x0) : Evolves s0 (mergeReq x0 x1 x2 x3 x4).2 := by
  unfold mergeReq
  repeat' first
    | with_reducible assumption
    | with_reducible apply loadGran_evolves
    | split
    | dsimp only
    | unfold Evolves; dsimp only
    | unfold Evolves

theorem countUp_evolves {s0} (x0 x1 x2) (h : Evolves s0 x0) : Evolves s0 (countUp x0 x1 x2) := by
  unfold countUp
  extract_lets a r
  have k : Evolves s0 r.2.2 := evolves_at3 (hwRead_evolves _ _ _ _ h) rfl
  clear_value r
  split
  · exact hwWrite_evolves _ _ _ _ k
  · exact id k

theorem countReq_evolves {s0} (x0 x1) (h : Evolves s0 x0) : Evolves s0 (countReq x0 x1) := by
  unfold countReq
  repeat' first
    | with_reducible assumption
    | with_reducible apply countUp_evolves
    | split
    | dsimp only
    | unfold Evolves; dsimp only
    | unfold Evolves

theorem storeGrans_evolves {s0} (x0 x1) (h : Evolves s0 x0) : Evolves s0 (storeGrans x0 x1) := by
  unfold storeGrans
  repeat' first
    | with_reducible assumption
    | with_reducible apply memStoreBlock_evolves
    | with_reducible apply memStore_evolves
    | with_reducible refine foldl_evolves _ _ _ (fun _ _ _ => ?_) ?_
    | with_reducible refine foldl2_evolves _ _ _ (fun _ _ _ => ?_) ?_
    | with_reducible refine foldl3_evolves _ _ _ (fun _ _ _ => ?_) ?_
    | with_reducible refine foldl4_evolves _ _ _ (fun _ _ _ => ?_) ?_
    | split
    | dsimp only
    | unfold Evolves; dsimp only
    | unfold Evolves

theorem serveWrite_evolves {s0} (x0 x1 x2 x3) (h : Evolves s0 x0) : Evolves s0 (serveWrite x0 x1 x2 x3).2 := by
  unfold serveWrite
  repeat' first
    | with_reducible assumption
    | with_reducible apply mergeReq_evolves
    | with_reducible apply countReq_evolves
    | with_reducible apply storeGrans_evolves
    | with_reducible refine foldl_evolves _ _ _ (fun _ _ _ => ?_) ?_
    | with_reducible refine foldl2_evolves _ _ _ (fun _ _ _ => ?_) ?_
    | with_reducible refine foldl3_evolves _ _ _ (fun _ _ _ => ?_) ?_
    | with_reducible refine foldl4_evolves _ _ _ (fun _ _ _ => ?_) ?_
    | split
    | dsimp only
    | unfold Evolves; dsimp only
    | unfold Evolves

theorem serveAtomic_evolves {s0} (x0 x1 x2) (h : Evolves s0 x0) : Evolves s0 (serveAtomic x0 x1 x2).2 := by
  unfold serveAtomic
  repeat' first
    | with_reducible assumption
    | with_reducible apply atomicAt_evolves
    | with_reducible apply countReq_evolves
    | split
    | dsimp only
    | unfold Evolves; dsimp only
    | unfold Evolves

theorem serveLocal_evolves {s0} (x0 x1 x2) (h : Evolves s0 x0) : Evolves s0 (serveLocal x0 x1 x2).2 := by
  unfold serveLocal
  repeat' first
    | with_reducible assumption
    | with_reducible apply dirStep_evolves
    | with_reducible apply stampReq_evolves
    | with_reducible apply serveRead_evolves
    | with_reducible apply serveWrite_evolves
    | with_reducible apply serveAtomic_evolves
    | split
    | dsimp only
    | unfold Evolves; dsimp only
    | unfold Evolves

theorem forwardPiece_evolves {s0} (x0 x1 x2) (h : Evolves s0 x0) : Evolves s0 (forwardPiece x0 x1 x2) := by
  unfold forwardPiece
  repeat' first
    | with_reducible assumption
    | with_reducible apply modTag_evolves
    | with_reducible apply stampReq_evolves
    | with_reducible apply sendReq_evolves
    | split
    | dsimp only
    | unfold Evolves; dsimp only
    | unfold Evolves

theorem runReq_evolves {s0} (x0 : Nat) (x1 : State) (x2) (h : Evolves s0 x1) : Evolves s0 (runReq x0 x1 x2) := by
  induction x0 generalizing x1 with
  | zero => exact id h
  | succ n ih =>
    unfold runReq
    split
    · exact id h
    · split
      · split
        · exact refuseReq_evolves _ _ _ _ h
        · exact answerReq_evolves _ _ h
      · rename_i r _ _ c _ _
        split
        · have k : Evolves s0 (serveLocal x1 r c).2 := serveLocal_evolves _ _ _ h
          dsimp only
          split
          · exact id k
          · exact ih _ (modReq_evolves _ _ _ k)
        · exact forwardPiece_evolves _ _ _ h

theorem afterDir_evolves {s0} (x0 x1) (h : Evolves s0 x0) : Evolves s0 (afterDir x0 x1) := by
  unfold afterDir
  repeat' first
    | with_reducible assumption
    | with_reducible apply runReq_evolves
    | with_reducible apply modReq_evolves
    | with_reducible apply cohErr_evolves
    | with_reducible refine foldl_evolves _ _ _ (fun _ _ _ => ?_) ?_
    | with_reducible refine foldl2_evolves _ _ _ (fun _ _ _ => ?_) ?_
    | with_reducible refine foldl3_evolves _ _ _ (fun _ _ _ => ?_) ?_
    | with_reducible refine foldl4_evolves _ _ _ (fun _ _ _ => ?_) ?_
    | split
    | dsimp only
    | unfold Evolves; dsimp only
    | unfold Evolves

theorem settleDir_evolves {s0} (x0 x1) (h : Evolves s0 x0) : Evolves s0 (settleDir x0 x1) := by
  unfold settleDir
  repeat' first
    | with_reducible assumption
    | with_reducible apply dirSettle_evolves
    | with_reducible apply afterDir_evolves
    | split
    | dsimp only
    | unfold Evolves; dsimp only
    | unfold Evolves

theorem translateReq_evolves {s0} (x0 x1) (h : Evolves s0 x0) : Evolves s0 (translateReq x0 x1) := by
  unfold translateReq
  repeat' first
    | with_reducible assumption
    | with_reducible apply xlateAll_evolves
    | with_reducible apply reqAttrib_evolves
    | with_reducible apply stampReq_evolves
    | with_reducible apply modReq_evolves
    | with_reducible apply refuseReq_evolves
    | with_reducible apply holdItem_evolves
    | with_reducible apply busyFin_evolves
    | with_reducible apply cacheReq_evolves
    | with_reducible apply sampleXlate_evolves
    | with_reducible apply settleDir_evolves
    | with_reducible apply addFlights_evolves
    | with_reducible apply runReq_evolves
    | with_reducible apply sampleFirst_evolves
    | split
    | dsimp only
    | unfold Evolves; dsimp only
    | unfold Evolves

theorem admitReq_evolves {s0} (x0 x1) (h : Evolves s0 x0) : Evolves s0 (admitReq x0 x1) := by
  unfold admitReq
  repeat' first
    | with_reducible assumption
    | with_reducible apply decideCharge_evolves
    | with_reducible apply stampReq_evolves
    | with_reducible apply countCls_evolves
    | with_reducible apply reqAttrib_evolves
    | with_reducible apply refuseReq_evolves
    | with_reducible apply modReq_evolves
    | with_reducible apply translateReq_evolves
    | with_reducible apply holdWork_evolves
    | split
    | dsimp only
    | unfold Evolves; dsimp only
    | unfold Evolves

theorem sinkPkt_evolves {s0} (x0 x1) (h : Evolves s0 x0) : Evolves s0 (sinkPkt x0 x1) := by
  unfold sinkPkt
  repeat' first
    | with_reducible assumption
    | split
    | dsimp only
    | unfold Evolves; dsimp only
    | unfold Evolves

theorem arrives_evolves {s0} (x0 x1 x2) (h : Evolves s0 x0) : Evolves s0 (arrives x0 x1 x2).2 := by
  unfold arrives
  repeat' first
    | with_reducible assumption
    | with_reducible apply sinkPkt_evolves
    | with_reducible apply bump_evolves
    | split
    | dsimp only
    | unfold Evolves; dsimp only
    | unfold Evolves

theorem dropOutst_evolves {s0} (x0 x1) (h : Evolves s0 x0) : Evolves s0 (dropOutst x0 x1) := by
  unfold dropOutst
  repeat' first
    | with_reducible assumption
    | split
    | dsimp only
    | unfold Evolves; dsimp only
    | unfold Evolves

theorem rankNode_evolves {s0} (x0 x1) (h : Evolves s0 x0) : Evolves s0 (rankNode x0 x1).2 := by
  unfold rankNode
  split
  · exact id h
  extract_lets a r e
  have k : Evolves s0 r.2.2 := evolves_at3 (hwRead_evolves _ _ _ _ h) rfl
  clear_value r
  split
  · exact id k
  · exact id k
  · split <;> exact id k

theorem entryJob_evolves {s0} (x0 x1 x2) (h : Evolves s0 x0) : Evolves s0 (entryJob x0 x1 x2).2 := by
  unfold entryJob
  repeat' first
    | with_reducible assumption
    | with_reducible apply rankNode_evolves
    | split
    | dsimp only
    | unfold Evolves; dsimp only
    | unfold Evolves

theorem entryChecks_evolves {s0} (x0 x1 x2) (h : Evolves s0 x0) : Evolves s0 (entryChecks x0 x1 x2).2 := by
  unfold entryChecks
  repeat' first
    | with_reducible assumption
    | with_reducible apply entryJob_evolves
    | split
    | dsimp only
    | unfold Evolves; dsimp only
    | unfold Evolves

theorem replayRsp_evolves {s0} (x0 x1 x2) (h : Evolves s0 x0) : Evolves s0 (replayRsp x0 x1 x2) := by
  unfold replayRsp
  repeat' first
    | with_reducible assumption
    | with_reducible apply endReq_evolves
    | with_reducible apply inject_evolves
    | split
    | dsimp only
    | unfold Evolves; dsimp only
    | unfold Evolves

theorem entryGo_evolves {s0} (x0 x1 x2) (h : Evolves s0 x0) : Evolves s0 (entryGo x0 x1 x2) := by
  unfold entryGo
  repeat' first
    | with_reducible assumption
    | with_reducible apply flowDone_evolves
    | with_reducible apply errRsp_evolves
    | with_reducible apply replayRsp_evolves
    | with_reducible apply addReq_evolves
    | with_reducible apply admitReq_evolves
    | split
    | dsimp only
    | unfold Evolves; dsimp only
    | unfold Evolves

theorem repeatReq_evolves {s0} (x0 x1) (h : Evolves s0 x0) : Evolves s0 (repeatReq x0 x1) := by
  unfold repeatReq
  repeat' first
    | with_reducible assumption
    | with_reducible apply replayRsp_evolves
    | with_reducible apply bump_evolves
    | split
    | dsimp only
    | unfold Evolves; dsimp only
    | unfold Evolves

theorem entryFlow_evolves {s0} (x0 x1 x2) (h : Evolves s0 x0) : Evolves s0 (entryFlow x0 x1 x2) := by
  unfold entryFlow
  repeat' first
    | with_reducible assumption
    | with_reducible apply entryGo_evolves
    | with_reducible apply freeRetry_evolves
    | with_reducible apply errRsp_evolves
    | with_reducible apply repeatReq_evolves
    | with_reducible apply evolves_free
    | split
    | dsimp only
    | unfold Evolves; dsimp only
    | unfold Evolves

theorem entryReq_evolves {s0} (x0 x1 x2) (h : Evolves s0 x0) : Evolves s0 (entryReq x0 x1 x2) := by
  unfold entryReq
  repeat' first
    | with_reducible assumption
    | with_reducible apply entryChecks_evolves
    | with_reducible apply drawReq_evolves
    | with_reducible apply stampReq_evolves
    | with_reducible apply errRsp_evolves
    | with_reducible apply entryGo_evolves
    | with_reducible apply entryFlow_evolves
    | split
    | dsimp only
    | unfold Evolves; dsimp only
    | unfold Evolves

theorem failSuspended_evolves {s0} (x0 x1 x2) (h : Evolves s0 x0) : Evolves s0 (failSuspended x0 x1 x2) := by
  unfold failSuspended
  repeat' first
    | with_reducible assumption
    | with_reducible apply failPiece_evolves
    | with_reducible apply modRun_evolves
    | with_reducible apply modDesc_evolves
    | with_reducible apply endDma_evolves
    | split
    | dsimp only
    | unfold Evolves; dsimp only
    | unfold Evolves

theorem failItem_evolves {s0} (x0 x1 x2) (h : Evolves s0 x0) : Evolves s0 (failItem x0 x1 x2) := by
  unfold failItem
  repeat' first
    | with_reducible assumption
    | with_reducible apply answerReq_evolves
    | with_reducible apply refuseReq_evolves
    | with_reducible apply batchFail_evolves
    | with_reducible apply failSuspended_evolves
    | with_reducible apply endDesc_evolves
    | with_reducible apply endTile_evolves
    | split
    | dsimp only
    | unfold Evolves; dsimp only
    | unfold Evolves

theorem failWhere_evolves {s0} (x0 x1 x2) (h : Evolves s0 x0) : Evolves s0 (failWhere x0 x1 x2) := by
  unfold failWhere
  repeat' first
    | with_reducible assumption
    | with_reducible apply failItem_evolves
    | with_reducible refine foldl_evolves _ _ _ (fun _ _ _ => ?_) ?_
    | with_reducible refine foldl2_evolves _ _ _ (fun _ _ _ => ?_) ?_
    | with_reducible refine foldl3_evolves _ _ _ (fun _ _ _ => ?_) ?_
    | with_reducible refine foldl4_evolves _ _ _ (fun _ _ _ => ?_) ?_
    | split
    | dsimp only
    | unfold Evolves; dsimp only
    | unfold Evolves

theorem failHeld_evolves {s0} (x0 x1 x2) (h : Evolves s0 x0) : Evolves s0 (failHeld x0 x1 x2) := by
  unfold failHeld
  repeat' first
    | with_reducible assumption
    | with_reducible apply failWhere_evolves
    | split
    | dsimp only
    | unfold Evolves; dsimp only
    | unfold Evolves

theorem noteFathom_evolves {s0} (x0 x1 x2) (h : Evolves s0 x0) : Evolves s0 (noteFathom x0 x1 x2) := by
  unfold noteFathom
  repeat' first
    | with_reducible assumption
    | with_reducible apply modDesc_evolves
    | split
    | dsimp only
    | unfold Evolves; dsimp only
    | unfold Evolves

theorem ownerRun_evolves {s0} (x0 x1) (h : Evolves s0 x0) : Evolves s0 (ownerRun x0 x1) := by
  unfold ownerRun
  repeat' first
    | with_reducible assumption
    | with_reducible apply reqAttrib_evolves
    | with_reducible apply answerReq_evolves
    | with_reducible apply holdItem_evolves
    | with_reducible apply cacheReq_evolves
    | with_reducible apply settleDir_evolves
    | with_reducible apply runReq_evolves
    | with_reducible apply modReq_evolves
    | split
    | dsimp only
    | unfold Evolves; dsimp only
    | unfold Evolves

theorem ownerReq_evolves {s0} (x0 x1 x2) (h : Evolves s0 x0) : Evolves s0 (ownerReq x0 x1 x2) := by
  unfold ownerReq
  repeat' first
    | with_reducible assumption
    | with_reducible apply addReq_evolves
    | with_reducible apply ownerRun_evolves
    | split
    | dsimp only
    | unfold Evolves; dsimp only
    | unfold Evolves

theorem resumeReq_evolves {s0} (x0 x1) (h : Evolves s0 x0) : Evolves s0 (resumeReq x0 x1) := by
  unfold resumeReq
  repeat' first
    | with_reducible assumption
    | with_reducible apply ownerRun_evolves
    | with_reducible apply translateReq_evolves
    | split
    | dsimp only
    | unfold Evolves; dsimp only
    | unfold Evolves

theorem resumeItem_evolves {s0} (x0 x1) (h : Evolves s0 x0) : Evolves s0 (resumeItem x0 x1) := by
  unfold resumeItem
  repeat' first
    | with_reducible assumption
    | with_reducible apply resumeReq_evolves
    | with_reducible apply modDesc_evolves
    | with_reducible apply resumeTile_evolves
    | split
    | dsimp only
    | unfold Evolves; dsimp only
    | unfold Evolves

theorem resumeHeld_evolves {s0} (x0 x1) (h : Evolves s0 x0) : Evolves s0 (resumeHeld x0 x1) := by
  unfold resumeHeld
  repeat' first
    | with_reducible assumption
    | with_reducible apply resumeItem_evolves
    | with_reducible refine foldl_evolves _ _ _ (fun _ _ _ => ?_) ?_
    | with_reducible refine foldl2_evolves _ _ _ (fun _ _ _ => ?_) ?_
    | with_reducible refine foldl3_evolves _ _ _ (fun _ _ _ => ?_) ?_
    | with_reducible refine foldl4_evolves _ _ _ (fun _ _ _ => ?_) ?_
    | split
    | dsimp only
    | unfold Evolves; dsimp only
    | unfold Evolves

theorem slotRetry_evolves {s0} (x0) (h : Evolves s0 x0) : Evolves s0 (slotRetry x0) := by
  unfold slotRetry
  repeat' first
    | with_reducible assumption
    | with_reducible apply resumeHeld_evolves
    | split
    | dsimp only
    | unfold Evolves; dsimp only
    | unfold Evolves

theorem pieceBack_evolves {s0} (x0 x1 x2) (h : Evolves s0 x0) : Evolves s0 (pieceBack x0 x1 x2) := by
  unfold pieceBack
  repeat' first
    | with_reducible assumption
    | with_reducible apply slotRetry_evolves
    | with_reducible apply runReq_evolves
    | with_reducible apply modReq_evolves
    | split
    | dsimp only
    | unfold Evolves; dsimp only
    | unfold Evolves

theorem takeReq_evolves {s0} (x0 x1 x2) (h : Evolves s0 x0) : Evolves s0 (takeReq x0 x1 x2) := by
  unfold takeReq
  repeat' first
    | with_reducible assumption
    | with_reducible apply arrives_evolves
    | with_reducible apply ownerReq_evolves
    | with_reducible apply entryReq_evolves
    | split
    | dsimp only
    | unfold Evolves; dsimp only
    | unfold Evolves

theorem ctxRest_evolves {s0} (x0 x1) (h : Evolves s0 x0) : Evolves s0 (ctxRest x0 x1) := by
  unfold ctxRest
  repeat' first
    | with_reducible assumption
    | split
    | dsimp only
    | unfold Evolves; dsimp only
    | unfold Evolves

theorem setMapSlot_evolves {s0} (x0 x1 x2 x3) (h : Evolves s0 x0) : Evolves s0 (setMapSlot x0 x1 x2 x3) := by
  unfold setMapSlot
  repeat' first
    | with_reducible assumption
    | with_reducible apply setF_evolves
    | split
    | dsimp only
    | unfold Evolves; dsimp only
    | unfold Evolves

theorem leaveSlot_evolves {s0} (x0 x1) (h : Evolves s0 x0) : Evolves s0 (leaveSlot x0 x1) := by
  unfold leaveSlot
  repeat' first
    | with_reducible assumption
    | with_reducible apply setF_evolves
    | with_reducible apply setMapSlot_evolves
    | with_reducible apply logNme_evolves
    | split
    | dsimp only
    | unfold Evolves; dsimp only
    | unfold Evolves

theorem poisonPending_evolves {s0} (x0 x1) (h : Evolves s0 x0) : Evolves s0 (poisonPending x0 x1) := by
  unfold poisonPending
  repeat' first
    | with_reducible assumption
    | with_reducible apply notePoison_evolves
    | with_reducible apply combineAll_evolves
    | with_reducible apply retireStep_evolves
    | with_reducible refine foldl_evolves _ _ _ (fun _ _ _ => ?_) ?_
    | with_reducible refine foldl2_evolves _ _ _ (fun _ _ _ => ?_) ?_
    | with_reducible refine foldl3_evolves _ _ _ (fun _ _ _ => ?_) ?_
    | with_reducible refine foldl4_evolves _ _ _ (fun _ _ _ => ?_) ?_
    | split
    | dsimp only
    | unfold Evolves; dsimp only
    | unfold Evolves

theorem moveTiles_evolves {s0} (x0 x1) (h : Evolves s0 x0) : Evolves s0 (moveTiles x0 x1) := by
  unfold moveTiles
  repeat' first
    | with_reducible assumption
    | with_reducible apply enqueue_evolves
    | with_reducible refine foldl_evolves _ _ _ (fun _ _ _ => ?_) ?_
    | with_reducible refine foldl2_evolves _ _ _ (fun _ _ _ => ?_) ?_
    | with_reducible refine foldl3_evolves _ _ _ (fun _ _ _ => ?_) ?_
    | with_reducible refine foldl4_evolves _ _ _ (fun _ _ _ => ?_) ?_
    | split
    | dsimp only
    | unfold Evolves; dsimp only
    | unfold Evolves

theorem faultEngine_evolves {s0} (x0 x1) (h : Evolves s0 x0) : Evolves s0 (faultEngine x0 x1) := by
  unfold faultEngine
  repeat' first
    | with_reducible assumption
    | with_reducible apply logNme_evolves
    | with_reducible apply setB_evolves
    | with_reducible apply leaveSlot_evolves
    | with_reducible apply poisonPending_evolves
    | with_reducible apply ackInvals_evolves
    | with_reducible apply engView_evolves
    | with_reducible apply moveTiles_evolves
    | split
    | dsimp only
    | unfold Evolves; dsimp only
    | unfold Evolves

theorem execEngineFault_evolves {s0} (x0 x1) (h : Evolves s0 x1) : OutEvolves s0 (execEngineFault x0 x1) := by
  unfold execEngineFault
  repeat' first
    | with_reducible assumption
    | with_reducible apply outEvolves_next
    | with_reducible apply faultEngine_evolves
    | split
    | dsimp only
    | unfold Evolves; dsimp only
    | unfold Evolves

theorem execNmeCommit_evolves {s0} (x0) (h : Evolves s0 x0) : OutEvolves s0 (execNmeCommit x0) := by
  unfold execNmeCommit
  repeat' first
    | with_reducible assumption
    | with_reducible apply outEvolves_next
    | with_reducible apply commitTable_evolves
    | split
    | dsimp only
    | unfold Evolves; dsimp only
    | unfold Evolves

theorem finishPending_evolves {s0} (x0 x1 x2) (h : Evolves s0 x0) : Evolves s0 (finishPending x0 x1 x2) := by
  unfold finishPending
  repeat' first
    | with_reducible assumption
    | with_reducible apply retireStep_evolves
    | with_reducible apply combineAll_evolves
    | with_reducible refine foldl_evolves _ _ _ (fun _ _ _ => ?_) ?_
    | with_reducible refine foldl2_evolves _ _ _ (fun _ _ _ => ?_) ?_
    | with_reducible refine foldl3_evolves _ _ _ (fun _ _ _ => ?_) ?_
    | with_reducible refine foldl4_evolves _ _ _ (fun _ _ _ => ?_) ?_
    | split
    | dsimp only
    | unfold Evolves; dsimp only
    | unfold Evolves

theorem execNmeRetire_evolves {s0} (x0 x1) (h : Evolves s0 x1) : OutEvolves s0 (execNmeRetire x0 x1) := by
  unfold execNmeRetire
  repeat' first
    | with_reducible assumption
    | with_reducible apply outEvolves_next
    | with_reducible apply setF_evolves
    | with_reducible apply logNme_evolves
    | with_reducible apply ackInvals_evolves
    | with_reducible apply engView_evolves
    | with_reducible apply moveTiles_evolves
    | with_reducible apply leaveSlot_evolves
    | with_reducible apply finishPending_evolves
    | split
    | dsimp only
    | unfold Evolves; dsimp only
    | unfold Evolves

theorem execPartialStateCombine_evolves {s0} (x0 x1 x2 x3) (h : Evolves s0 x3) : OutEvolves s0 (execPartialStateCombine x0 x1 x2 x3) := by
  unfold execPartialStateCombine
  repeat' first
    | with_reducible assumption
    | with_reducible apply outEvolves_next
    | with_reducible apply combinePart_evolves
    | with_reducible apply modTile_evolves
    | split
    | dsimp only
    | unfold Evolves; dsimp only
    | unfold Evolves

theorem execSpareActivated_evolves {s0} (x0 x1) (h : Evolves s0 x1) : OutEvolves s0 (execSpareActivated x0 x1) := by
  unfold execSpareActivated
  repeat' first
    | with_reducible assumption
    | with_reducible apply outEvolves_next
    | with_reducible apply setF_evolves
    | with_reducible apply setMapSlot_evolves
    | with_reducible apply logNme_evolves
    | split
    | dsimp only
    | unfold Evolves; dsimp only
    | unfold Evolves

theorem execTileComputeDone_evolves {s0} (x0 x1 x2 x3 x4) (h : Evolves s0 x4) : OutEvolves s0 (execTileComputeDone x0 x1 x2 x3 x4) := by
  unfold execTileComputeDone
  repeat' first
    | with_reducible assumption
    | with_reducible apply outEvolves_next
    | with_reducible refine atStep_evolves _ _ _ _ _ (fun _ _ _ _ => ?_) ?_
    | with_reducible apply slotRetry_evolves
    | with_reducible apply computeStep_evolves
    | split
    | dsimp only
    | unfold Evolves; dsimp only
    | unfold Evolves

theorem execTileDispatch_evolves {s0} (x0 x1 x2) (h : Evolves s0 x2) : OutEvolves s0 (execTileDispatch x0 x1 x2) := by
  unfold execTileDispatch
  repeat' first
    | with_reducible assumption
    | with_reducible apply outEvolves_next
    | with_reducible apply dispatchDesc_evolves
    | split
    | dsimp only
    | unfold Evolves; dsimp only
    | unfold Evolves

theorem execTileLoadData_evolves {s0} (x0 x1 x2 x3) (h : Evolves s0 x3) : OutEvolves s0 (execTileLoadData x0 x1 x2 x3) := by
  unfold execTileLoadData
  repeat' first
    | with_reducible assumption
    | with_reducible apply outEvolves_next
    | with_reducible refine atStep_evolves _ _ _ _ _ (fun _ _ _ _ => ?_) ?_
    | with_reducible apply loadStep_evolves
    | split
    | dsimp only
    | unfold Evolves; dsimp only
    | unfold Evolves

theorem execTileRetire_evolves {s0} (x0 x1 x2 x3) (h : Evolves s0 x3) : OutEvolves s0 (execTileRetire x0 x1 x2 x3) := by
  unfold execTileRetire
  repeat' first
    | with_reducible assumption
    | with_reducible apply outEvolves_next
    | with_reducible refine atStep_evolves _ _ _ _ _ (fun _ _ _ _ => ?_) ?_
    | with_reducible apply slotRetry_evolves
    | with_reducible apply retireStep_evolves
    | split
    | dsimp only
    | unfold Evolves; dsimp only
    | unfold Evolves

theorem execTileStart_evolves {s0} (x0 x1) (h : Evolves s0 x1) : OutEvolves s0 (execTileStart x0 x1) := by
  unfold execTileStart
  repeat' first
    | with_reducible assumption
    | with_reducible apply outEvolves_next
    | with_reducible apply giveCtxs_evolves
    | with_reducible apply ctxRest_evolves
    | with_reducible apply startTile_evolves
    | split
    | dsimp only
    | unfold Evolves; dsimp only
    | unfold Evolves

theorem execTileWatchdogExpiry_evolves {s0} (x0 x1 x2) (h : Evolves s0 x2) : OutEvolves s0 (execTileWatchdogExpiry x0 x1 x2) := by
  unfold execTileWatchdogExpiry
  repeat' first
    | with_reducible assumption
    | with_reducible apply outEvolves_next
    | with_reducible refine atStep_evolves _ _ _ _ _ (fun _ _ _ _ => ?_) ?_
    | with_reducible apply faultEngine_evolves
    | with_reducible apply advance_evolves
    | split
    | dsimp only
    | unfold Evolves; dsimp only
    | unfold Evolves

theorem execWaitListService_evolves {s0} (x0) (h : Evolves s0 x0) : OutEvolves s0 (execWaitListService x0) := by
  unfold execWaitListService
  repeat' first
    | with_reducible assumption
    | with_reducible apply outEvolves_next
    | with_reducible apply startDesc_evolves
    | split
    | dsimp only
    | unfold Evolves; dsimp only
    | unfold Evolves

theorem chanRest_evolves {s0} (x0 x1) (h : Evolves s0 x0) : Evolves s0 (chanRest x0 x1) := by
  unfold chanRest
  repeat' first
    | with_reducible assumption
    | split
    | dsimp only
    | unfold Evolves; dsimp only
    | unfold Evolves

theorem dumpSent_evolves {s0} (x0 x1) (h : Evolves s0 x0) : Evolves s0 (dumpSent x0 x1) := by
  unfold dumpSent
  repeat' first
    | with_reducible assumption
    | with_reducible apply setRing_evolves
    | with_reducible apply bumpSat_evolves
    | split
    | dsimp only
    | unfold Evolves; dsimp only
    | unfold Evolves

theorem failMig_evolves {s0} (x0 x1 x2) (h : Evolves s0 x0) : Evolves s0 (failMig x0 x1 x2) := by
  unfold failMig
  repeat' first
    | with_reducible assumption
    | with_reducible apply modRun_evolves
    | split
    | dsimp only
    | unfold Evolves; dsimp only
    | unfold Evolves

theorem migGo_evolves {s0} (x0 : Nat) (x1 x2) (h : Evolves s0 x1) : Evolves s0 (migGo x0 x1 x2) := by
  induction x0 generalizing x1 with
  | zero => exact id h
  | succ n ih =>
    unfold migGo
    repeat' first
      | with_reducible assumption
      | with_reducible apply ih
      | with_reducible apply failMig_evolves
      | with_reducible apply atsAsk_evolves
      | with_reducible apply modRun_evolves
      | with_reducible apply issueReads_evolves
      | split
      | dsimp only
      | unfold Evolves; dsimp only

theorem startMigration_evolves {s0} (x0 x1) (h : Evolves s0 x0) : Evolves s0 (startMigration x0 x1) := by
  unfold startMigration
  repeat' first
    | with_reducible assumption
    | with_reducible apply dmaView_evolves
    | with_reducible apply migGo_evolves
    | split
    | dsimp only
    | unfold Evolves; dsimp only
    | unfold Evolves

theorem runMgt_evolves {s0} (x0 x1) (h : Evolves s0 x0) : Evolves s0 (runMgt x0 x1) := by
  unfold runMgt
  repeat' first
    | with_reducible assumption
    | with_reducible apply emit_evolves
    | with_reducible apply bump_evolves
    | with_reducible apply dmaView_evolves
    | with_reducible apply dumpSent_evolves
    | with_reducible refine foldl_evolves _ _ _ (fun _ _ _ => ?_) ?_
    | with_reducible refine foldl2_evolves _ _ _ (fun _ _ _ => ?_) ?_
    | with_reducible refine foldl3_evolves _ _ _ (fun _ _ _ => ?_) ?_
    | with_reducible refine foldl4_evolves _ _ _ (fun _ _ _ => ?_) ?_
    | split
    | dsimp only
    | unfold Evolves; dsimp only
    | unfold Evolves

theorem startSeven_evolves {s0} (x0 x1) (h : Evolves s0 x0) : Evolves s0 (startSeven x0 x1) := by
  unfold startSeven
  repeat' first
    | with_reducible assumption
    | with_reducible apply startMigration_evolves
    | with_reducible apply runMgt_evolves
    | split
    | dsimp only
    | unfold Evolves; dsimp only
    | unfold Evolves

theorem startChannel_evolves {s0} (x0 x1 x2) (h : Evolves s0 x0) : Evolves s0 (startChannel x0 x1 x2) := by
  unfold startChannel
  repeat' first
    | with_reducible assumption
    | with_reducible apply dmaView_evolves
    | with_reducible apply startDesc_evolves
    | with_reducible apply dmaRefill_evolves
    | split
    | dsimp only
    | unfold Evolves; dsimp only
    | unfold Evolves

theorem execDmaChannelSelect_evolves {s0} (x0 x1) (h : Evolves s0 x1) : OutEvolves s0 (execDmaChannelSelect x0 x1) := by
  unfold execDmaChannelSelect
  repeat' first
    | with_reducible assumption
    | with_reducible apply outEvolves_next
    | with_reducible apply chanRest_evolves
    | with_reducible apply startSeven_evolves
    | with_reducible apply startChannel_evolves
    | split
    | dsimp only
    | unfold Evolves; dsimp only
    | unfold Evolves

theorem execDmaMigCmd_evolves {s0} (x0 x1 x2 x3 x4) (h : Evolves s0 x4) : OutEvolves s0 (execDmaMigCmd x0 x1 x2 x3 x4) := by
  unfold execDmaMigCmd
  repeat' first
    | with_reducible assumption
    | with_reducible apply outEvolves_next
    | with_reducible apply setF_evolves
    | with_reducible apply dmaView_evolves
    | with_reducible refine foldl_evolves _ _ _ (fun _ _ _ => ?_) ?_
    | with_reducible refine foldl2_evolves _ _ _ (fun _ _ _ => ?_) ?_
    | with_reducible refine foldl3_evolves _ _ _ (fun _ _ _ => ?_) ?_
    | with_reducible refine foldl4_evolves _ _ _ (fun _ _ _ => ?_) ?_
    | split
    | dsimp only
    | unfold Evolves; dsimp only
    | unfold Evolves

theorem execDmaMigPop_evolves {s0} (x0) (h : Evolves s0 x0) : OutEvolves s0 (execDmaMigPop x0) := by
  unfold execDmaMigPop
  repeat' first
    | with_reducible assumption
    | with_reducible apply outEvolves_next
    | with_reducible apply migView_evolves
    | split
    | dsimp only
    | unfold Evolves; dsimp only
    | unfold Evolves

theorem pieceCharge_evolves {s0} (x0 x1 x2 x3 x4) (h : Evolves s0 x0) : Evolves s0 (pieceCharge x0 x1 x2 x3 x4).2 := by
  unfold pieceCharge
  repeat' first
    | with_reducible assumption
    | with_reducible apply decideCharge_evolves
    | with_reducible apply modDesc_evolves
    | with_reducible apply countCls_evolves
    | with_reducible apply redoWork_evolves
    | with_reducible apply modRun_evolves
    | with_reducible apply holdWork_evolves
    | split
    | dsimp only
    | unfold Evolves; dsimp only
    | unfold Evolves

theorem pieceGo_evolves {s0} (x0 x1 x2 x3 x4 x5) (h : Evolves s0 x0) : Evolves s0 (pieceGo x0 x1 x2 x3 x4 x5) := by
  unfold pieceGo
  repeat' first
    | with_reducible assumption
    | with_reducible apply failPiece_evolves
    | with_reducible apply holdItem_evolves
    | with_reducible apply dmaView_evolves
    | with_reducible apply modRun_evolves
    | with_reducible apply modDesc_evolves
    | with_reducible apply busyFin_evolves
    | with_reducible apply atsAsk_evolves
    | with_reducible apply issueReads_evolves
    | with_reducible apply slotRetry_evolves
    | with_reducible apply pieceToHost_evolves
    | with_reducible refine foldl_evolves _ _ _ (fun _ _ _ => ?_) ?_
    | with_reducible refine foldl2_evolves _ _ _ (fun _ _ _ => ?_) ?_
    | with_reducible refine foldl3_evolves _ _ _ (fun _ _ _ => ?_) ?_
    | with_reducible refine foldl4_evolves _ _ _ (fun _ _ _ => ?_) ?_
    | split
    | dsimp only
    | unfold Evolves; dsimp only
    | unfold Evolves

theorem execDmaPiece_evolves {s0} (x0 : Nat) (x1 : NMap Gran) (x2) (h : Evolves s0 x2) : OutEvolves s0 (execDmaPiece x0 x1 x2) := by
  unfold execDmaPiece
  split
  · exact id h
  split
  · exact id h
  extract_lets p c s x
  have k : Evolves s0 c.2 := evolves_at2 (pieceCharge_evolves _ _ _ _ _ h) rfl
  have kx : Evolves s0 x.2 := evolves_at2 (pieceXlate_evolves _ _ _ _ _ (attrib_evolves _ _ _ _ (modDesc_evolves _ _ _ k))) rfl
  clear_value c s x
  split
  · exact id h
  split
  · exact id k
  · exact pieceGo_evolves _ _ _ _ _ _ kx

theorem execDmaSuspendResume_evolves {s0} (x0 x1) (h : Evolves s0 x1) : OutEvolves s0 (execDmaSuspendResume x0 x1) := by
  unfold execDmaSuspendResume
  repeat' first
    | with_reducible assumption
    | with_reducible apply outEvolves_next
    | with_reducible apply modRun_evolves
    | with_reducible apply dmaView_evolves
    | with_reducible apply modDesc_evolves
    | split
    | dsimp only
    | unfold Evolves; dsimp only
    | unfold Evolves

theorem flushDone_evolves {s0} (x0 x1) (h : Evolves s0 x0) : Evolves s0 (flushDone x0 x1) := by
  unfold flushDone
  repeat' first
    | with_reducible assumption
    | with_reducible apply halfGo_evolves
    | with_reducible apply endDma_evolves
    | split
    | dsimp only
    | unfold Evolves; dsimp only
    | unfold Evolves

theorem execFlushReadComplete_evolves {s0} (x0 x1) (h : Evolves s0 x1) : OutEvolves s0 (execFlushReadComplete x0 x1) := by
  unfold execFlushReadComplete
  repeat' first
    | with_reducible assumption
    | with_reducible apply outEvolves_next
    | with_reducible apply flushDone_evolves
    | split
    | dsimp only
    | unfold Evolves; dsimp only
    | unfold Evolves

theorem hostFail_evolves {s0} (x0 x1 x2 x3) (h : Evolves s0 x0) : Evolves s0 (hostFail x0 x1 x2 x3) := by
  unfold hostFail
  repeat' first
    | with_reducible assumption
    | with_reducible apply aerNote_evolves
    | with_reducible apply failMig_evolves
    | with_reducible apply failPiece_evolves
    | with_reducible apply logDma_evolves
    | with_reducible apply endDma_evolves
    | with_reducible apply modDesc_evolves
    | split
    | dsimp only
    | unfold Evolves; dsimp only
    | unfold Evolves

theorem storeBlock_evolves {s0} (x0 x1 x2 x3) (h : Evolves s0 x0) : Evolves s0 (storeBlock x0 x1 x2 x3) := by
  unfold storeBlock
  repeat' first
    | with_reducible assumption
    | with_reducible apply memStoreBlock_evolves
    | with_reducible apply memStore_evolves
    | with_reducible refine foldl_evolves _ _ _ (fun _ _ _ => ?_) ?_
    | with_reducible refine foldl2_evolves _ _ _ (fun _ _ _ => ?_) ?_
    | with_reducible refine foldl3_evolves _ _ _ (fun _ _ _ => ?_) ?_
    | with_reducible refine foldl4_evolves _ _ _ (fun _ _ _ => ?_) ?_
    | split
    | dsimp only
    | unfold Evolves; dsimp only
    | unfold Evolves

theorem migStore_evolves {s0} (x0 : Nat) (x1 x2) (h : Evolves s0 x1) : Evolves s0 (migStore x0 x1 x2) := by
  induction x0 generalizing x1 with
  | zero => exact id h
  | succ n ih =>
    unfold migStore
    repeat' first
      | with_reducible assumption
      | with_reducible apply ih
      | with_reducible apply modRun_evolves
      | with_reducible apply bump_evolves
      | with_reducible apply storeBlock_evolves
      | split
      | dsimp only
      | unfold Evolves; dsimp only

theorem hostData_evolves {s0} (x0 x1 x2 x3 x4) (h : Evolves s0 x0) : Evolves s0 (hostData x0 x1 x2 x3 x4) := by
  unfold hostData
  repeat' first
    | with_reducible assumption
    | with_reducible apply aerNote_evolves
    | with_reducible apply migGo_evolves
    | with_reducible apply migStore_evolves
    | with_reducible apply slotRetry_evolves
    | with_reducible apply piecesGo_evolves
    | with_reducible apply logDma_evolves
    | split
    | dsimp only
    | unfold Evolves; dsimp only
    | unfold Evolves

theorem execHostCompletion_evolves {s0} (x0 x1 x2 x3) (h : Evolves s0 x3) : OutEvolves s0 (execHostCompletion x0 x1 x2 x3) := by
  unfold execHostCompletion
  repeat' first
    | with_reducible assumption
    | with_reducible apply outEvolves_next
    | with_reducible apply hostFail_evolves
    | with_reducible apply flushDone_evolves
    | with_reducible apply aerNote_evolves
    | with_reducible apply hostData_evolves
    | split
    | dsimp only
    | unfold Evolves; dsimp only
    | unfold Evolves

theorem execHostCompletionTimeout_evolves {s0} (x0 x1) (h : Evolves s0 x1) : OutEvolves s0 (execHostCompletionTimeout x0 x1) := by
  unfold execHostCompletionTimeout
  repeat' first
    | with_reducible assumption
    | with_reducible apply outEvolves_next
    | with_reducible apply hostFail_evolves
    | split
    | dsimp only
    | unfold Evolves; dsimp only
    | unfold Evolves

theorem execMigrationDone_evolves {s0} (x0 x1 x2 x3) (h : Evolves s0 x3) : OutEvolves s0 (execMigrationDone x0 x1 x2 x3) := by
  unfold execMigrationDone
  repeat' first
    | with_reducible assumption
    | with_reducible apply outEvolves_next
    | with_reducible apply migView_evolves
    | with_reducible apply dmaView_evolves
    | split
    | dsimp only
    | unfold Evolves; dsimp only
    | unfold Evolves

theorem execWriteAcknowledge_evolves {s0} (x0 x1 x2) (h : Evolves s0 x2) : OutEvolves s0 (execWriteAcknowledge x0 x1 x2) := by
  unfold execWriteAcknowledge
  repeat' first
    | with_reducible assumption
    | with_reducible apply outEvolves_next
    | with_reducible apply ackDone_evolves
    | split
    | dsimp only
    | unfold Evolves; dsimp only
    | unfold Evolves

theorem disabling_evolves {s0} (x0 x1) (h : Evolves s0 x0) : Evolves s0 (disabling x0 x1) := by
  unfold disabling
  repeat' first
    | with_reducible assumption
    | with_reducible apply drainCheck_evolves
    | with_reducible apply modCtx_evolves
    | split
    | dsimp only
    | unfold Evolves; dsimp only
    | unfold Evolves

theorem abortQueue_evolves {s0} (x0 x1) (h : Evolves s0 x0) : Evolves s0 (abortQueue x0 x1) := by
  unfold abortQueue
  repeat' first
    | with_reducible assumption
    | with_reducible apply stopDesc_evolves
    | with_reducible apply disabling_evolves
    | with_reducible refine foldl_evolves _ _ _ (fun _ _ _ => ?_) ?_
    | with_reducible refine foldl2_evolves _ _ _ (fun _ _ _ => ?_) ?_
    | with_reducible refine foldl3_evolves _ _ _ (fun _ _ _ => ?_) ?_
    | with_reducible refine foldl4_evolves _ _ _ (fun _ _ _ => ?_) ?_
    | split
    | dsimp only
    | unfold Evolves; dsimp only
    | unfold Evolves

theorem ringDoor_evolves {s0} (x0 x1 x2 x3 x4) (h : Evolves s0 x0) : Evolves s0 (ringDoor x0 x1 x2 x3 x4) := by
  unfold ringDoor
  repeat' first
    | with_reducible assumption
    | with_reducible apply noticeCtx_evolves
    | with_reducible apply dropDoorbell_evolves
    | with_reducible apply putCtx_evolves
    | with_reducible apply queueError_evolves
    | split
    | dsimp only
    | unfold Evolves; dsimp only
    | unfold Evolves

theorem doorWrite_evolves {s0} (x0 x1 x2 x3 x4 x5) (h : Evolves s0 x0) : Evolves s0 (doorWrite x0 x1 x2 x3 x4 x5) := by
  unfold doorWrite
  repeat' first
    | with_reducible assumption
    | with_reducible apply ringDoor_evolves
    | with_reducible apply dropDoorbell_evolves
    | split
    | dsimp only
    | unfold Evolves; dsimp only
    | unfold Evolves

theorem qcmdResult_evolves {s0} (x0 x1 x2) (h : Evolves s0 x0) : Evolves s0 (qcmdResult x0 x1 x2) := by
  unfold qcmdResult
  repeat' first
    | with_reducible assumption
    | with_reducible apply setF_evolves
    | split
    | dsimp only
    | unfold Evolves; dsimp only
    | unfold Evolves

theorem execClearPred_evolves {s0} (x0 x1) (h : Evolves s0 x1) : OutEvolves s0 (execClearPred x0 x1) := by
  unfold execClearPred
  repeat' first
    | with_reducible assumption
    | with_reducible apply outEvolves_next
    | with_reducible apply noticeCtx_evolves
    | with_reducible apply qcmdResult_evolves
    | with_reducible apply clearPreds_evolves
    | split
    | dsimp only
    | unfold Evolves; dsimp only
    | unfold Evolves

theorem execCqHead_evolves {s0} (x0 x1 x2 x3 x4) (h : Evolves s0 x4) : OutEvolves s0 (execCqHead x0 x1 x2 x3 x4) := by
  unfold execCqHead
  repeat' first
    | with_reducible assumption
    | with_reducible apply outEvolves_next
    | with_reducible apply doorWrite_evolves
    | split
    | dsimp only
    | unfold Evolves; dsimp only
    | unfold Evolves

theorem fetchRest_evolves {s0} (x0 x1) (h : Evolves s0 x0) : Evolves s0 (fetchRest x0 x1) := by
  unfold fetchRest
  repeat' first
    | with_reducible assumption
    | split
    | dsimp only
    | unfold Evolves; dsimp only
    | unfold Evolves

theorem readSlot_evolves {s0} (x0 x1 x2 x3 x4) (h : Evolves s0 x0) : Evolves s0 (readSlot x0 x1 x2 x3 x4).2 := by
  unfold readSlot
  extract_lets r
  have k : Evolves s0 r.2.2 := evolves_at3 (hwRead_evolves _ _ _ _ h) rfl
  clear_value r
  split
  · split
    · exact id h
    split
    · exact id h
    split <;> exact id h
  · split <;> exact id k

theorem takeImage_evolves {s0} (x0 x1 x2 x3 x4 x5 x6) (h : Evolves s0 x0) : Evolves s0 (takeImage x0 x1 x2 x3 x4 x5 x6) := by
  unfold takeImage
  repeat' first
    | with_reducible assumption
    | with_reducible apply telEvent_evolves
    | with_reducible apply putCtx_evolves
    | with_reducible apply attrib_evolves
    | with_reducible apply setResv_evolves
    | with_reducible apply drawDesc_evolves
    | with_reducible apply addDesc_evolves
    | with_reducible apply endDesc_evolves
    | with_reducible apply admitDesc_evolves
    | split
    | dsimp only
    | unfold Evolves; dsimp only
    | unfold Evolves

theorem fetchFrom_evolves {s0} (x0 x1 x2) (h : Evolves s0 x0) : Evolves s0 (fetchFrom x0 x1 x2) := by
  unfold fetchFrom
  repeat' first
    | with_reducible assumption
    | with_reducible apply readCtx_evolves
    | with_reducible apply readSlot_evolves
    | with_reducible apply queueError_evolves
    | with_reducible apply takeImage_evolves
    | split
    | dsimp only
    | unfold Evolves; dsimp only
    | unfold Evolves

theorem execDescriptorFetch_evolves {s0} (x0 x1) (h : Evolves s0 x1) : OutEvolves s0 (execDescriptorFetch x0 x1) := by
  unfold execDescriptorFetch
  repeat' first
    | with_reducible assumption
    | with_reducible apply outEvolves_next
    | with_reducible apply noticeCtx_evolves
    | with_reducible apply atsAsk_evolves
    | with_reducible apply fetchRest_evolves
    | with_reducible apply fetchFrom_evolves
    | with_reducible refine foldl_evolves _ _ _ (fun _ _ _ => ?_) ?_
    | with_reducible refine foldl2_evolves _ _ _ (fun _ _ _ => ?_) ?_
    | with_reducible refine foldl3_evolves _ _ _ (fun _ _ _ => ?_) ?_
    | with_reducible refine foldl4_evolves _ _ _ (fun _ _ _ => ?_) ?_
    | split
    | dsimp only
    | unfold Evolves; dsimp only
    | unfold Evolves

theorem execDisableAbort_evolves {s0} (x0 x1) (h : Evolves s0 x1) : OutEvolves s0 (execDisableAbort x0 x1) := by
  unfold execDisableAbort
  repeat' first
    | with_reducible assumption
    | with_reducible apply outEvolves_next
    | with_reducible apply noticeCtx_evolves
    | with_reducible apply qcmdResult_evolves
    | with_reducible apply abortQueue_evolves
    | split
    | dsimp only
    | unfold Evolves; dsimp only
    | unfold Evolves

theorem execDisableDrain_evolves {s0} (x0 x1) (h : Evolves s0 x1) : OutEvolves s0 (execDisableDrain x0 x1) := by
  unfold execDisableDrain
  repeat' first
    | with_reducible assumption
    | with_reducible apply outEvolves_next
    | with_reducible apply noticeCtx_evolves
    | with_reducible apply qcmdResult_evolves
    | with_reducible apply disabling_evolves
    | split
    | dsimp only
    | unfold Evolves; dsimp only
    | unfold Evolves

theorem execDoorbellWriteDropped_evolves {s0} (x0 x1 x2 x3) (h : Evolves s0 x3) : OutEvolves s0 (execDoorbellWriteDropped x0 x1 x2 x3) := by
  unfold execDoorbellWriteDropped
  repeat' first
    | with_reducible assumption
    | with_reducible apply outEvolves_next
    | with_reducible apply dropDoorbell_evolves
    | split
    | dsimp only
    | unfold Evolves; dsimp only
    | unfold Evolves

theorem execEnable_evolves {s0} (x0 x1) (h : Evolves s0 x1) : OutEvolves s0 (execEnable x0 x1) := by
  unfold execEnable
  repeat' first
    | with_reducible assumption
    | with_reducible apply outEvolves_next
    | with_reducible apply noticeCtx_evolves
    | with_reducible apply qcmdResult_evolves
    | with_reducible apply clearPreds_evolves
    | with_reducible apply putCtx_evolves
    | split
    | dsimp only
    | unfold Evolves; dsimp only
    | unfold Evolves

theorem execModerationTimerExpiry_evolves {s0} (x0 x1) (h : Evolves s0 x1) : OutEvolves s0 (execModerationTimerExpiry x0 x1) := by
  unfold execModerationTimerExpiry
  repeat' first
    | with_reducible assumption
    | with_reducible apply outEvolves_next
    | with_reducible apply raiseIrq_evolves
    | with_reducible apply advance_evolves
    | split
    | dsimp only
    | unfold Evolves; dsimp only
    | unfold Evolves

theorem execPredicateRelease_evolves {s0} (x0 x1) (h : Evolves s0 x1) : OutEvolves s0 (execPredicateRelease x0 x1) := by
  unfold execPredicateRelease
  repeat' first
    | with_reducible assumption
    | with_reducible apply outEvolves_next
    | with_reducible apply judgePred_evolves
    | split
    | dsimp only
    | unfold Evolves; dsimp only
    | unfold Evolves

theorem execReadCtx_evolves {s0} (x0 x1) (h : Evolves s0 x1) : OutEvolves s0 (execReadCtx x0 x1) := by
  unfold execReadCtx
  repeat' first
    | with_reducible assumption
    | with_reducible apply outEvolves_next
    | with_reducible apply noticeCtx_evolves
    | with_reducible apply hwRead_evolves
    | with_reducible apply setF_evolves
    | with_reducible apply qcmdResult_evolves
    | with_reducible refine foldl_evolves _ _ _ (fun _ _ _ => ?_) ?_
    | with_reducible refine foldl2_evolves _ _ _ (fun _ _ _ => ?_) ?_
    | with_reducible refine foldl3_evolves _ _ _ (fun _ _ _ => ?_) ?_
    | with_reducible refine foldl4_evolves _ _ _ (fun _ _ _ => ?_) ?_
    | split
    | dsimp only
    | unfold Evolves; dsimp only
    | unfold Evolves

theorem execSqTail_evolves {s0} (x0 x1 x2 x3 x4) (h : Evolves s0 x4) : OutEvolves s0 (execSqTail x0 x1 x2 x3 x4) := by
  unfold execSqTail
  repeat' first
    | with_reducible assumption
    | with_reducible apply outEvolves_next
    | with_reducible apply doorWrite_evolves
    | split
    | dsimp only
    | unfold Evolves; dsimp only
    | unfold Evolves

theorem execWaitSlotsCleared_evolves {s0} (x0 x1) (h : Evolves s0 x1) : OutEvolves s0 (execWaitSlotsCleared x0 x1) := by
  unfold execWaitSlotsCleared
  repeat' first
    | with_reducible assumption
    | with_reducible apply outEvolves_next
    | with_reducible apply afterPred_evolves
    | split
    | dsimp only
    | unfold Evolves; dsimp only
    | unfold Evolves

theorem newCtx_evolves {s0} (x0 x1 x2) (h : Evolves s0 x0) : Evolves s0 (newCtx x0 x1 x2) := by
  unfold newCtx
  repeat' first
    | with_reducible assumption
    | with_reducible apply putCtx_evolves
    | split
    | dsimp only
    | unfold Evolves; dsimp only
    | unfold Evolves

theorem execWriteCtx_evolves {s0} (x0 x1) (h : Evolves s0 x1) : OutEvolves s0 (execWriteCtx x0 x1) := by
  unfold execWriteCtx
  repeat' first
    | with_reducible assumption
    | with_reducible apply outEvolves_next
    | with_reducible apply noticeCtx_evolves
    | with_reducible apply qcmdResult_evolves
    | with_reducible apply newCtx_evolves
    | split
    | dsimp only
    | unfold Evolves; dsimp only
    | unfold Evolves

theorem opTake_evolves {s0} (x0 x1 x2) (h : Evolves s0 x0) : Evolves s0 (opTake x0 x1 x2).2 := by
  unfold opTake
  repeat' first
    | with_reducible assumption
    | with_reducible apply takeImage_evolves
    | split
    | dsimp only
    | unfold Evolves; dsimp only
    | unfold Evolves

theorem runOperator_evolves {s0} (x0 x1 x2) (h : Evolves s0 x0) : Evolves s0 (runOperator x0 x1 x2) := by
  unfold runOperator
  repeat' first
    | with_reducible assumption
    | with_reducible apply opTake_evolves
    | with_reducible apply runDesc_evolves
    | split
    | dsimp only
    | unfold Evolves; dsimp only
    | unfold Evolves

theorem execAtomic_evolves {s0} (x0 x1) (h : Evolves s0 x1) : OutEvolves s0 (execAtomic x0 x1) := by
  unfold execAtomic
  repeat' first
    | with_reducible assumption
    | with_reducible apply outEvolves_next
    | with_reducible apply runOperator_evolves
    | split
    | dsimp only
    | unfold Evolves; dsimp only
    | unfold Evolves

theorem execAttendDecode_evolves {s0} (x0 x1) (h : Evolves s0 x1) : OutEvolves s0 (execAttendDecode x0 x1) := by
  unfold execAttendDecode
  repeat' first
    | with_reducible assumption
    | with_reducible apply outEvolves_next
    | with_reducible apply runOperator_evolves
    | split
    | dsimp only
    | unfold Evolves; dsimp only
    | unfold Evolves

theorem execAttendMerge_evolves {s0} (x0 x1) (h : Evolves s0 x1) : OutEvolves s0 (execAttendMerge x0 x1) := by
  unfold execAttendMerge
  repeat' first
    | with_reducible assumption
    | with_reducible apply outEvolves_next
    | with_reducible apply runOperator_evolves
    | split
    | dsimp only
    | unfold Evolves; dsimp only
    | unfold Evolves

theorem execCopy2d_evolves {s0} (x0 x1) (h : Evolves s0 x1) : OutEvolves s0 (execCopy2d x0 x1) := by
  unfold execCopy2d
  repeat' first
    | with_reducible assumption
    | with_reducible apply outEvolves_next
    | with_reducible apply runOperator_evolves
    | split
    | dsimp only
    | unfold Evolves; dsimp only
    | unfold Evolves

theorem execEmbedBag_evolves {s0} (x0 x1) (h : Evolves s0 x1) : OutEvolves s0 (execEmbedBag x0 x1) := by
  unfold execEmbedBag
  repeat' first
    | with_reducible assumption
    | with_reducible apply outEvolves_next
    | with_reducible apply runOperator_evolves
    | split
    | dsimp only
    | unfold Evolves; dsimp only
    | unfold Evolves

theorem execExpertFfn_evolves {s0} (x0 x1) (h : Evolves s0 x1) : OutEvolves s0 (execExpertFfn x0 x1) := by
  unfold execExpertFfn
  repeat' first
    | with_reducible assumption
    | with_reducible apply outEvolves_next
    | with_reducible apply runOperator_evolves
    | split
    | dsimp only
    | unfold Evolves; dsimp only
    | unfold Evolves

theorem execFill_evolves {s0} (x0 x1) (h : Evolves s0 x1) : OutEvolves s0 (execFill x0 x1) := by
  unfold execFill
  repeat' first
    | with_reducible assumption
    | with_reducible apply outEvolves_next
    | with_reducible apply runOperator_evolves
    | split
    | dsimp only
    | unfold Evolves; dsimp only
    | unfold Evolves

theorem execGather_evolves {s0} (x0 x1) (h : Evolves s0 x1) : OutEvolves s0 (execGather x0 x1) := by
  unfold execGather
  repeat' first
    | with_reducible assumption
    | with_reducible apply outEvolves_next
    | with_reducible apply runOperator_evolves
    | split
    | dsimp only
    | unfold Evolves; dsimp only
    | unfold Evolves

theorem execMoeCombine_evolves {s0} (x0 x1) (h : Evolves s0 x1) : OutEvolves s0 (execMoeCombine x0 x1) := by
  unfold execMoeCombine
  repeat' first
    | with_reducible assumption
    | with_reducible apply outEvolves_next
    | with_reducible apply runOperator_evolves
    | split
    | dsimp only
    | unfold Evolves; dsimp only
    | unfold Evolves

theorem execMoeDispatch_evolves {s0} (x0 x1) (h : Evolves s0 x1) : OutEvolves s0 (execMoeDispatch x0 x1) := by
  unfold execMoeDispatch
  repeat' first
    | with_reducible assumption
    | with_reducible apply outEvolves_next
    | with_reducible apply runOperator_evolves
    | split
    | dsimp only
    | unfold Evolves; dsimp only
    | unfold Evolves

theorem execQuantize_evolves {s0} (x0 x1) (h : Evolves s0 x1) : OutEvolves s0 (execQuantize x0 x1) := by
  unfold execQuantize
  repeat' first
    | with_reducible assumption
    | with_reducible apply outEvolves_next
    | with_reducible apply runOperator_evolves
    | split
    | dsimp only
    | unfold Evolves; dsimp only
    | unfold Evolves

theorem execReduce_evolves {s0} (x0 x1) (h : Evolves s0 x1) : OutEvolves s0 (execReduce x0 x1) := by
  unfold execReduce
  repeat' first
    | with_reducible assumption
    | with_reducible apply outEvolves_next
    | with_reducible apply runOperator_evolves
    | split
    | dsimp only
    | unfold Evolves; dsimp only
    | unfold Evolves

theorem execScatterAdd_evolves {s0} (x0 x1) (h : Evolves s0 x1) : OutEvolves s0 (execScatterAdd x0 x1) := by
  unfold execScatterAdd
  repeat' first
    | with_reducible assumption
    | with_reducible apply outEvolves_next
    | with_reducible apply runOperator_evolves
    | split
    | dsimp only
    | unfold Evolves; dsimp only
    | unfold Evolves

theorem execTopk_evolves {s0} (x0 x1) (h : Evolves s0 x1) : OutEvolves s0 (execTopk x0 x1) := by
  unfold execTopk
  repeat' first
    | with_reducible assumption
    | with_reducible apply outEvolves_next
    | with_reducible apply runOperator_evolves
    | split
    | dsimp only
    | unfold Evolves; dsimp only
    | unfold Evolves

theorem noteFar_evolves {s0} (x0 x1 x2 x3) (h : Evolves s0 x0) : Evolves s0 (noteFar x0 x1 x2 x3) := by
  unfold noteFar
  repeat' first
    | with_reducible assumption
    | split
    | dsimp only
    | unfold Evolves; dsimp only
    | unfold Evolves

theorem setBytes_evolves {s0} (x0 x1 x2 x3 x4) (h : Evolves s0 x0) : Evolves s0 (setBytes x0 x1 x2 x3 x4).2.2 := by
  unfold setBytes
  repeat' first
    | with_reducible assumption
    | with_reducible apply hwRead_evolves
    | split
    | dsimp only
    | unfold Evolves; dsimp only
    | unfold Evolves

theorem sendSet_evolves {s0} (x0 : Nat) (x1 x2 x3 x4) (h : Evolves s0 x1) : Evolves s0 (sendSet x0 x1 x2 x3 x4) := by
  induction x0 generalizing x1 x4 with
  | zero => exact id h
  | succ n ih =>
    have k : ∀ i m, Evolves s0 (setBytes x1 x3.owner x3.setPpa i m).2.2 := fun i m => setBytes_evolves _ _ _ _ _ h
    unfold sendSet
    dsimp only
    split
    · split
      · exact ih _ _ (inject_evolves _ _ (k _ _))
      · exact inject_evolves _ _ (k _ _)
    · exact errRsp_evolves _ _ _ _ (logXtu_evolves _ _ _ _ (k _ _))
    · exact errRsp_evolves _ _ _ _ (logXtu_evolves _ _ _ _ (k _ _))

theorem answerSet_evolves {s0} (x0 x1) (h : Evolves s0 x0) : Evolves s0 (answerSet x0 x1) := by
  unfold answerSet
  dsimp only
  generalize hq : readRgn x0 (x1.body % 2 ^ 32 % 2 ^ 18) = q
  have k : Evolves s0 q.2.2 := hq ▸ readRgn_evolves _ _ h
  clear hq
  split
  · exact errRsp_evolves _ _ _ _ h
  split
  · exact errRsp_evolves _ _ _ _ h
  split
  · split
    · exact errRsp_evolves _ _ _ _ k
    · refine sendSet_evolves _ _ _ _ _ ?_
      split
      · exact id k
      · exact noteFar_evolves _ _ _ _ k
  · exact errRsp_evolves _ _ _ _ (logXtu_evolves _ _ _ _ k)

theorem wakeSet_evolves {s0} (x0 x1 x2) (h : Evolves s0 x0) : Evolves s0 (wakeSet x0 x1 x2) := by
  unfold wakeSet
  repeat' first
    | with_reducible assumption
    | with_reducible apply resumeHeld_evolves
    | split
    | dsimp only
    | unfold Evolves; dsimp only
    | unfold Evolves

theorem cacheSetEnt_evolves {s0} (x0 x1 x2) (h : Evolves s0 x0) : Evolves s0 (cacheSetEnt x0 x1 x2) := by
  unfold cacheSetEnt
  repeat' first
    | with_reducible assumption
    | with_reducible apply wakeSet_evolves
    | split
    | dsimp only
    | unfold Evolves; dsimp only
    | unfold Evolves

theorem publishEnd_evolves {s0} (x0 x1 x2 x3) (h : Evolves s0 x0) : Evolves s0 (publishEnd x0 x1 x2 x3) := by
  unfold publishEnd
  repeat' first
    | with_reducible assumption
    | with_reducible apply endDesc_evolves
    | with_reducible apply rcPut_evolves
    | with_reducible apply inject_evolves
    | split
    | dsimp only
    | unfold Evolves; dsimp only
    | unfold Evolves

theorem publishPick_evolves {s0} (x0 x1) (h : Evolves s0 x0) : Evolves s0 (publishPick x0 x1).2 := by
  unfold publishPick
  repeat' first
    | with_reducible assumption
    | split
    | dsimp only
    | unfold Evolves; dsimp only
    | unfold Evolves

theorem trimLive_evolves {s0} (x0) (h : Evolves s0 x0) : Evolves s0 (trimLive x0) := by
  unfold trimLive
  repeat' first
    | with_reducible assumption
    | split
    | dsimp only
    | unfold Evolves; dsimp only
    | unfold Evolves

theorem validateSet_evolves {s0} (x0 : Nat) (x1 x2 x3 x4 x5 x6) (h : Evolves s0 x1) : Evolves s0 (validateSet x0 x1 x2 x3 x4 x5 x6).2 := by
  induction x0 generalizing x1 x4 x5 with
  | zero => exact id h
  | succ n ih =>
    unfold validateSet
    extract_lets k r
    have k : Evolves s0 r.2.2 := evolves_at3 (readRec_evolves _ _ _ _ h) rfl
    clear_value r
    split
    · split
      · exact ih _ _ _ k
      · exact id k
    · exact logXtu_evolves _ _ _ _ k

theorem publishSwap_evolves {s0} (x0 x1 x2) (h : Evolves s0 x0) : Evolves s0 (publishSwap x0 x1 x2).2 := by
  unfold publishSwap
  extract_lets s region i q r s1 v s2 f new s3 far
  have k : Evolves s0 s := trimLive_evolves _ h
  have kq : Evolves s0 q.2.2 := evolves_at3 (readRgn_evolves _ _ k) rfl
  clear_value s q far
  split
  · exact id k
  split
  · split
    · exact id kq
    split
    · exact id kq
    split
    · exact id kq
    have kv : Evolves s0 v.2 := evolves_at2 (validateSet_evolves _ _ _ _ _ _ _ kq) rfl
    clear_value v
    split
    · exact id kv
    have kf : Evolves s0 f.2 := evolves_at2 (freeRetry_evolves _ kv) rfl
    have k3 : Evolves s0 s3 := hwWrite_evolves _ _ _ _ kv
    clear_value f s3
    split
    · exact id kv
    split
    · exact id kf
    · exact trimLive_evolves _ (evolves_keep k3)
  · exact logXtu_evolves _ _ _ _ kq

theorem publishTry_evolves {s0} (x0 x1 x2) (h : Evolves s0 x0) : Evolves s0 (publishTry x0 x1 x2).2 := by
  unfold publishTry
  repeat' first
    | with_reducible assumption
    | with_reducible apply publishSwap_evolves
    | split
    | dsimp only
    | unfold Evolves; dsimp only
    | unfold Evolves

theorem startWithdraw_evolves {s0} (x0 x1 x2 x3 x4) (h : Evolves s0 x0) : Evolves s0 (startWithdraw x0 x1 x2 x3 x4) := by
  unfold startWithdraw
  repeat' first
    | with_reducible assumption
    | with_reducible apply inject_evolves
    | with_reducible refine foldl_evolves _ _ _ (fun _ _ _ => ?_) ?_
    | with_reducible refine foldl2_evolves _ _ _ (fun _ _ _ => ?_) ?_
    | with_reducible refine foldl3_evolves _ _ _ (fun _ _ _ => ?_) ?_
    | with_reducible refine foldl4_evolves _ _ _ (fun _ _ _ => ?_) ?_
    | split
    | dsimp only
    | unfold Evolves; dsimp only
    | unfold Evolves

theorem publishRun_evolves {s0} (x0 x1) (h : Evolves s0 x0) : Evolves s0 (publishRun x0 x1) := by
  unfold publishRun
  repeat' first
    | with_reducible assumption
    | with_reducible apply publishTry_evolves
    | with_reducible apply publishEnd_evolves
    | with_reducible apply startWithdraw_evolves
    | split
    | dsimp only
    | unfold Evolves; dsimp only
    | unfold Evolves

theorem publishNext_evolves {s0} (x0 : Nat) (x1 x2) (h : Evolves s0 x1) : Evolves s0 (publishNext x0 x1 x2) := by
  induction x0 generalizing x1 with
  | zero => exact id h
  | succ n ih =>
    unfold publishNext
    extract_lets c
    have k : Evolves s0 c.2 := evolves_at2 (publishPick_evolves _ _ h) rfl
    clear_value c
    split
    · exact id h
    split
    · exact id k
    · exact ih _ (publishRun_evolves _ _ (evolves_keep k))

theorem publishHome_evolves {s0} (x0 x1 x2 x3 x4 x5) (h : Evolves s0 x0) : Evolves s0 (publishHome x0 x1 x2 x3 x4 x5) := by
  unfold publishHome
  repeat' first
    | with_reducible assumption
    | with_reducible apply publishNext_evolves
    | split
    | dsimp only
    | unfold Evolves; dsimp only
    | unfold Evolves

theorem takeFwd_evolves {s0} (x0 x1 x2) (h : Evolves s0 x0) : Evolves s0 (takeFwd x0 x1 x2) := by
  unfold takeFwd
  repeat' first
    | with_reducible assumption
    | with_reducible apply replayRsp_evolves
    | with_reducible apply publishEnd_evolves
    | with_reducible apply rcFull_evolves
    | with_reducible apply errRsp_evolves
    | with_reducible apply publishHome_evolves
    | split
    | dsimp only
    | unfold Evolves; dsimp only
    | unfold Evolves

theorem execCmdFwd_evolves {s0} (x0 x1 x2) (h : Evolves s0 x2) : OutEvolves s0 (execCmdFwd x0 x1 x2) := by
  unfold execCmdFwd
  repeat' first
    | with_reducible assumption
    | with_reducible apply outEvolves_next
    | with_reducible apply arrives_evolves
    | with_reducible apply takeFwd_evolves
    | split
    | dsimp only
    | unfold Evolves; dsimp only
    | unfold Evolves

theorem releaseEntry_evolves {s0} (x0 x1 x2 x3) (h : Evolves s0 x0) : Evolves s0 (releaseEntry x0 x1 x2 x3) := by
  unfold releaseEntry
  repeat' first
    | with_reducible assumption
    | with_reducible apply inject_evolves
    | split
    | dsimp only
    | unfold Evolves; dsimp only
    | unfold Evolves

theorem publishBack_evolves {s0} (x0 x1 x2) (h : Evolves s0 x0) : Evolves s0 (publishBack x0 x1 x2) := by
  unfold publishBack
  repeat' first
    | with_reducible assumption
    | with_reducible apply releaseEntry_evolves
    | with_reducible apply dropOutst_evolves
    | with_reducible apply noteFathom_evolves
    | with_reducible apply endDesc_evolves
    | split
    | dsimp only
    | unfold Evolves; dsimp only
    | unfold Evolves

theorem lateRsp_evolves {s0} (x0) (h : Evolves s0 x0) : Evolves s0 (lateRsp x0) := by
  unfold lateRsp
  repeat' first
    | with_reducible assumption
    | with_reducible apply bump_evolves
    | split
    | dsimp only
    | unfold Evolves; dsimp only
    | unfold Evolves

theorem execCmdRsp_evolves {s0} (x0 x1 x2) (h : Evolves s0 x2) : OutEvolves s0 (execCmdRsp x0 x1 x2) := by
  unfold execCmdRsp
  repeat' first
    | with_reducible assumption
    | with_reducible apply outEvolves_next
    | with_reducible apply arrives_evolves
    | with_reducible apply publishBack_evolves
    | with_reducible apply lateRsp_evolves
    | split
    | dsimp only
    | unfold Evolves; dsimp only
    | unfold Evolves

theorem forwardPublish_evolves {s0} (x0 x1) (h : Evolves s0 x0) : Evolves s0 (forwardPublish x0 x1) := by
  unfold forwardPublish
  repeat' first
    | with_reducible assumption
    | with_reducible apply sendReq_evolves
    | split
    | dsimp only
    | unfold Evolves; dsimp only
    | unfold Evolves

theorem runPublish_evolves {s0} (x0 x1) (h : Evolves s0 x0) : Evolves s0 (runPublish x0 x1) := by
  unfold runPublish
  repeat' first
    | with_reducible assumption
    | with_reducible apply endDesc_evolves
    | with_reducible apply modDesc_evolves
    | with_reducible apply forwardPublish_evolves
    | with_reducible apply publishHome_evolves
    | split
    | dsimp only
    | unfold Evolves; dsimp only
    | unfold Evolves

theorem execPublish_evolves {s0} (x0 x1) (h : Evolves s0 x1) : OutEvolves s0 (execPublish x0 x1) := by
  unfold execPublish
  repeat' first
    | with_reducible assumption
    | with_reducible apply outEvolves_next
    | with_reducible apply opTake_evolves
    | with_reducible apply runPublish_evolves
    | split
    | dsimp only
    | unfold Evolves; dsimp only
    | unfold Evolves

theorem learnBound_evolves {s0} (x0 x1 x2) (h : Evolves s0 x0) : Evolves s0 (learnBound x0 x1 x2) := by
  unfold learnBound
  repeat' first
    | with_reducible assumption
    | with_reducible apply trimLive_evolves
    | split
    | dsimp only
    | unfold Evolves; dsimp only
    | unfold Evolves

theorem execPublishComplete_evolves {s0} (x0 x1) (h : Evolves s0 x1) : OutEvolves s0 (execPublishComplete x0 x1) := by
  unfold execPublishComplete
  repeat' first
    | with_reducible assumption
    | with_reducible apply outEvolves_next
    | with_reducible apply learnBound_evolves
    | with_reducible apply publishEnd_evolves
    | with_reducible apply publishNext_evolves
    | split
    | dsimp only
    | unfold Evolves; dsimp only
    | unfold Evolves

theorem execSetReq_evolves {s0} (x0 x1 x2) (h : Evolves s0 x2) : OutEvolves s0 (execSetReq x0 x1 x2) := by
  unfold execSetReq
  repeat' first
    | with_reducible assumption
    | with_reducible apply outEvolves_next
    | with_reducible apply arrives_evolves
    | with_reducible apply answerSet_evolves
    | split
    | dsimp only
    | unfold Evolves; dsimp only
    | unfold Evolves

theorem takeSet_evolves {s0} (x0 x1 x2) (h : Evolves s0 x0) : Evolves s0 (takeSet x0 x1 x2) := by
  unfold takeSet
  repeat' first
    | with_reducible assumption
    | with_reducible apply dropOutst_evolves
    | with_reducible apply askSet_evolves
    | with_reducible apply cacheSetEnt_evolves
    | split
    | dsimp only
    | unfold Evolves; dsimp only
    | unfold Evolves

theorem execSetRsp_evolves {s0} (x0 x1 x2) (h : Evolves s0 x2) : OutEvolves s0 (execSetRsp x0 x1 x2) := by
  unfold execSetRsp
  repeat' first
    | with_reducible assumption
    | with_reducible apply outEvolves_next
    | with_reducible apply arrives_evolves
    | with_reducible apply takeSet_evolves
    | with_reducible apply lateRsp_evolves
    | split
    | dsimp only
    | unfold Evolves; dsimp only
    | unfold Evolves

theorem withdrawSet_evolves {s0} (x0 x1 x2) (h : Evolves s0 x0) : Evolves s0 (withdrawSet x0 x1 x2) := by
  unfold withdrawSet
  repeat' first
    | with_reducible assumption
    | split
    | dsimp only
    | unfold Evolves; dsimp only
    | unfold Evolves

theorem execSetWithdraw_evolves {s0} (x0 x1 x2) (h : Evolves s0 x2) : OutEvolves s0 (execSetWithdraw x0 x1 x2) := by
  unfold execSetWithdraw
  repeat' first
    | with_reducible assumption
    | with_reducible apply outEvolves_next
    | with_reducible apply arrives_evolves
    | with_reducible apply withdrawSet_evolves
    | with_reducible apply inject_evolves
    | split
    | dsimp only
    | unfold Evolves; dsimp only
    | unfold Evolves

theorem execWithdrawAck_evolves {s0} (x0 x1 x2) (h : Evolves s0 x2) : OutEvolves s0 (execWithdrawAck x0 x1 x2) := by
  unfold execWithdrawAck
  repeat' first
    | with_reducible assumption
    | with_reducible apply outEvolves_next
    | with_reducible apply arrives_evolves
    | split
    | dsimp only
    | unfold Evolves; dsimp only
    | unfold Evolves

theorem noSet_evolves {s0} (x0 x1 x2) (h : Evolves s0 x0) : Evolves s0 (noSet x0 x1 x2) := by
  unfold noSet
  repeat' first
    | with_reducible assumption
    | with_reducible apply wakeSet_evolves
    | split
    | dsimp only
    | unfold Evolves; dsimp only
    | unfold Evolves

end Sys2Proof.Machine
end

