-- ==== Sys2Proof/Laws/EvolvePool.lean ====
section
/-!
SUPPORT. Laws/EvolvePool.lean: one lemma for each operation that answers a state, over the fabric, the directory, translation and lost memory:
what Evolves says of a machine holds after it too.
-/
namespace Sys2Proof.Machine
open Sys2Proof

theorem atomicBack_evolves {s0} (x0 x1 x2 x3 x4) (h : Evolves s0 x0) : Evolves s0 (atomicBack x0 x1 x2 x3 x4) := by
  unfold atomicBack
  repeat' first
    | with_reducible assumption
    | with_reducible apply noteFathom_evolves
    | with_reducible apply releaseEntry_evolves
    | with_reducible apply dropOutst_evolves
    | with_reducible apply atomicReply_evolves
    | split
    | dsimp only
    | unfold Evolves; dsimp only
    | unfold Evolves

theorem batchBack_evolves {s0} (x0 x1 x2 x3 x4) (h : Evolves s0 x0) : Evolves s0 (batchBack x0 x1 x2 x3 x4) := by
  unfold batchBack
  repeat' first
    | with_reducible assumption
    | with_reducible apply sampleStamp_evolves
    | with_reducible apply noteFathom_evolves
    | with_reducible apply dropOutst_evolves
    | with_reducible apply releaseEntry_evolves
    | with_reducible apply batchOver_evolves
    | split
    | dsimp only
    | unfold Evolves; dsimp only
    | unfold Evolves

theorem clientBack_evolves {s0} (x0 x1 x2 x3) (h : Evolves s0 x0) : Evolves s0 (clientBack x0 x1 x2 x3) := by
  unfold clientBack
  repeat' first
    | with_reducible assumption
    | with_reducible apply stampReq_evolves
    | with_reducible apply pieceBack_evolves
    | with_reducible apply dropOutst_evolves
    | split
    | dsimp only
    | unfold Evolves; dsimp only
    | unfold Evolves

theorem doorApply_evolves {s0} (x0 x1) (h : Evolves s0 x0) : Evolves s0 (doorApply x0 x1) := by
  unfold doorApply
  repeat' first
    | with_reducible assumption
    | with_reducible apply enterWest_evolves
    | with_reducible apply ringDoor_evolves
    | with_reducible apply dropDoorbell_evolves
    | split
    | dsimp only
    | unfold Evolves; dsimp only
    | unfold Evolves

theorem doorAdmit_evolves {s0} (x0 x1 x2) (h : Evolves s0 x0) : Evolves s0 (doorAdmit x0 x1 x2) := by
  unfold doorAdmit
  repeat' first
    | with_reducible assumption
    | with_reducible apply flowDone_evolves
    | with_reducible apply decideCharge_evolves
    | with_reducible apply countCls_evolves
    | with_reducible apply errRsp_evolves
    | with_reducible apply doorApply_evolves
    | with_reducible apply holdWork_evolves
    | split
    | dsimp only
    | unfold Evolves; dsimp only
    | unfold Evolves

theorem doorFlow_evolves {s0} (x0 x1 x2) (h : Evolves s0 x0) : Evolves s0 (doorFlow x0 x1 x2) := by
  unfold doorFlow
  repeat' first
    | with_reducible assumption
    | with_reducible apply doorAdmit_evolves
    | with_reducible apply bump_evolves
    | split
    | dsimp only
    | unfold Evolves; dsimp only
    | unfold Evolves

theorem execAtomicReq_evolves {s0} (x0 x1 x2) (h : Evolves s0 x2) : OutEvolves s0 (execAtomicReq x0 x1 x2) := by
  unfold execAtomicReq
  repeat' first
    | with_reducible assumption
    | with_reducible apply outEvolves_next
    | with_reducible apply takeReq_evolves
    | split
    | dsimp only
    | unfold Evolves; dsimp only
    | unfold Evolves

theorem execAtomicRsp_evolves {s0} (x0 x1 x2) (h : Evolves s0 x2) : OutEvolves s0 (execAtomicRsp x0 x1 x2) := by
  unfold execAtomicRsp
  repeat' first
    | with_reducible assumption
    | with_reducible apply outEvolves_next
    | with_reducible apply arrives_evolves
    | with_reducible apply lateRsp_evolves
    | with_reducible apply clientBack_evolves
    | with_reducible apply atomicBack_evolves
    | with_reducible apply dropOutst_evolves
    | split
    | dsimp only
    | unfold Evolves; dsimp only
    | unfold Evolves

theorem execBatchRsp_evolves {s0} (x0 x1 x2) (h : Evolves s0 x2) : OutEvolves s0 (execBatchRsp x0 x1 x2) := by
  unfold execBatchRsp
  repeat' first
    | with_reducible assumption
    | with_reducible apply outEvolves_next
    | with_reducible apply arrives_evolves
    | with_reducible apply lateRsp_evolves
    | with_reducible apply batchBack_evolves
    | with_reducible apply dropOutst_evolves
    | split
    | dsimp only
    | unfold Evolves; dsimp only
    | unfold Evolves

theorem execCacheRelease_evolves {s0} (x0 x1 x2) (h : Evolves s0 x2) : OutEvolves s0 (execCacheRelease x0 x1 x2) := by
  unfold execCacheRelease
  repeat' first
    | with_reducible assumption
    | with_reducible apply outEvolves_next
    | with_reducible apply arrives_evolves
    | with_reducible apply rcView_evolves
    | split
    | dsimp only
    | unfold Evolves; dsimp only
    | unfold Evolves

theorem writeBack_evolves {s0} (x0 x1 x2) (h : Evolves s0 x0) : Evolves s0 (writeBack x0 x1 x2) := by
  unfold writeBack
  repeat' first
    | with_reducible assumption
    | with_reducible apply dropOutst_evolves
    | with_reducible apply ackDone_evolves
    | with_reducible apply noteEnd_evolves
    | split
    | dsimp only
    | unfold Evolves; dsimp only
    | unfold Evolves

theorem setFail_evolves {s0} (x0 x1 x2) (h : Evolves s0 x0) : Evolves s0 (setFail x0 x1 x2) := by
  unfold setFail
  repeat' first
    | with_reducible assumption
    | with_reducible apply dropOutst_evolves
    | with_reducible apply noSet_evolves
    | with_reducible apply failHeld_evolves
    | split
    | dsimp only
    | unfold Evolves; dsimp only
    | unfold Evolves

theorem failOutst_evolves {s0} (x0 x1 x2 x3) (h : Evolves s0 x0) : Evolves s0 (failOutst x0 x1 x2 x3) := by
  unfold failOutst
  repeat' first
    | with_reducible assumption
    | with_reducible apply pieceBack_evolves
    | with_reducible apply dropOutst_evolves
    | with_reducible apply writeBack_evolves
    | with_reducible apply atomicReply_evolves
    | with_reducible apply batchOver_evolves
    | with_reducible apply endDesc_evolves
    | with_reducible apply setFail_evolves
    | split
    | dsimp only
    | unfold Evolves; dsimp only
    | unfold Evolves

theorem noteLate_evolves {s0} (x0 x1) (h : Evolves s0 x0) : Evolves s0 (noteLate x0 x1) := by
  unfold noteLate
  repeat' first
    | with_reducible assumption
    | split
    | dsimp only
    | unfold Evolves; dsimp only
    | unfold Evolves

theorem execCompletionTimeout_evolves {s0} (x0 x1 x2 x3) (h : Evolves s0 x3) : OutEvolves s0 (execCompletionTimeout x0 x1 x2 x3) := by
  unfold execCompletionTimeout
  repeat' first
    | with_reducible assumption
    | with_reducible apply outEvolves_next
    | with_reducible apply advance_evolves
    | with_reducible apply failOutst_evolves
    | with_reducible apply noteLate_evolves
    | split
    | dsimp only
    | unfold Evolves; dsimp only
    | unfold Evolves

theorem execDoorbellPacket_evolves {s0} (x0 x1 x2) (h : Evolves s0 x2) : OutEvolves s0 (execDoorbellPacket x0 x1 x2) := by
  unfold execDoorbellPacket
  repeat' first
    | with_reducible assumption
    | with_reducible apply outEvolves_next
    | with_reducible apply arrives_evolves
    | with_reducible apply entryChecks_evolves
    | with_reducible apply doorApply_evolves
    | with_reducible apply doorFlow_evolves
    | split
    | dsimp only
    | unfold Evolves; dsimp only
    | unfold Evolves

theorem execErrRsp_evolves {s0} (x0 x1 x2) (h : Evolves s0 x2) : OutEvolves s0 (execErrRsp x0 x1 x2) := by
  unfold execErrRsp
  repeat' first
    | with_reducible assumption
    | with_reducible apply outEvolves_next
    | with_reducible apply arrives_evolves
    | with_reducible apply lateRsp_evolves
    | with_reducible apply failOutst_evolves
    | split
    | dsimp only
    | unfold Evolves; dsimp only
    | unfold Evolves

theorem releasePkt_evolves {s0} (x0 x1 x2) (h : Evolves s0 x0) : Evolves s0 (releasePkt x0 x1 x2) := by
  unfold releasePkt
  repeat' first
    | with_reducible assumption
    | with_reducible apply doorFlow_evolves
    | with_reducible apply entryFlow_evolves
    | split
    | dsimp only
    | unfold Evolves; dsimp only
    | unfold Evolves

theorem execFlowRelease_evolves {s0} (x0 x1) (h : Evolves s0 x1) : OutEvolves s0 (execFlowRelease x0 x1) := by
  unfold execFlowRelease
  repeat' first
    | with_reducible assumption
    | with_reducible apply outEvolves_next
    | with_reducible apply releasePkt_evolves
    | split
    | dsimp only
    | unfold Evolves; dsimp only
    | unfold Evolves

theorem execJobBind_evolves {s0} (x0 x1 x2 x3 x4) (h : Evolves s0 x4) : OutEvolves s0 (execJobBind x0 x1 x2 x3 x4) := by
  unfold execJobBind
  repeat' first
    | with_reducible assumption
    | with_reducible apply outEvolves_next
    | with_reducible apply setF_evolves
    | with_reducible apply setB_evolves
    | split
    | dsimp only
    | unfold Evolves; dsimp only
    | unfold Evolves

theorem flowCmd_evolves {s0} (x0 x1 x2 x3 x4) (h : Evolves s0 x0) : Evolves s0 (flowCmd x0 x1 x2 x3 x4) := by
  unfold flowCmd
  repeat' first
    | with_reducible assumption
    | with_reducible apply setF_evolves
    | split
    | dsimp only
    | unfold Evolves; dsimp only
    | unfold Evolves

theorem execNieFlowClose_evolves {s0} (x0 x1 x2 x3) (h : Evolves s0 x3) : OutEvolves s0 (execNieFlowClose x0 x1 x2 x3) := by
  unfold execNieFlowClose
  repeat' first
    | with_reducible assumption
    | with_reducible apply outEvolves_next
    | with_reducible apply flowCmd_evolves
    | with_reducible apply errRsp_evolves
    | with_reducible refine foldl_evolves _ _ _ (fun _ _ _ => ?_) ?_
    | with_reducible refine foldl2_evolves _ _ _ (fun _ _ _ => ?_) ?_
    | with_reducible refine foldl3_evolves _ _ _ (fun _ _ _ => ?_) ?_
    | with_reducible refine foldl4_evolves _ _ _ (fun _ _ _ => ?_) ?_
    | split
    | dsimp only
    | unfold Evolves; dsimp only
    | unfold Evolves

theorem execNieFlowOpen_evolves {s0} (x0 x1 x2 x3) (h : Evolves s0 x3) : OutEvolves s0 (execNieFlowOpen x0 x1 x2 x3) := by
  unfold execNieFlowOpen
  repeat' first
    | with_reducible assumption
    | with_reducible apply outEvolves_next
    | with_reducible apply flowCmd_evolves
    | split
    | dsimp only
    | unfold Evolves; dsimp only
    | unfold Evolves

theorem execRdReq_evolves {s0} (x0 x1 x2) (h : Evolves s0 x2) : OutEvolves s0 (execRdReq x0 x1 x2) := by
  unfold execRdReq
  repeat' first
    | with_reducible assumption
    | with_reducible apply outEvolves_next
    | with_reducible apply takeReq_evolves
    | split
    | dsimp only
    | unfold Evolves; dsimp only
    | unfold Evolves

theorem execRdRsp_evolves {s0} (x0 x1 x2) (h : Evolves s0 x2) : OutEvolves s0 (execRdRsp x0 x1 x2) := by
  unfold execRdRsp
  repeat' first
    | with_reducible assumption
    | with_reducible apply outEvolves_next
    | with_reducible apply arrives_evolves
    | with_reducible apply lateRsp_evolves
    | with_reducible apply clientBack_evolves
    | with_reducible apply dropOutst_evolves
    | split
    | dsimp only
    | unfold Evolves; dsimp only
    | unfold Evolves

theorem execReplayCacheExpiry_evolves {s0} (x0 x1 x2) (h : Evolves s0 x2) : OutEvolves s0 (execReplayCacheExpiry x0 x1 x2) := by
  unfold execReplayCacheExpiry
  repeat' first
    | with_reducible assumption
    | with_reducible apply outEvolves_next
    | with_reducible apply rcSweep_evolves
    | with_reducible apply advance_evolves
    | split
    | dsimp only
    | unfold Evolves; dsimp only
    | unfold Evolves

theorem takeBatch_evolves {s0} (x0 x1 x2) (h : Evolves s0 x0) : Evolves s0 (takeBatch x0 x1 x2) := by
  unfold takeBatch
  repeat' first
    | with_reducible assumption
    | with_reducible apply replayRsp_evolves
    | with_reducible apply rcFull_evolves
    | with_reducible apply errRsp_evolves
    | with_reducible apply addDesc_evolves
    | with_reducible apply batchFail_evolves
    | with_reducible apply runBatch_evolves
    | split
    | dsimp only
    | unfold Evolves; dsimp only
    | unfold Evolves

theorem execTileBatch_evolves {s0} (x0 x1 x2 x3) (h : Evolves s0 x3) : OutEvolves s0 (execTileBatch x0 x1 x2 x3) := by
  unfold execTileBatch
  repeat' first
    | with_reducible assumption
    | with_reducible apply outEvolves_next
    | with_reducible apply arrives_evolves
    | with_reducible apply takeBatch_evolves
    | split
    | dsimp only
    | unfold Evolves; dsimp only
    | unfold Evolves

theorem execWrReq_evolves {s0} (x0 x1 x2) (h : Evolves s0 x2) : OutEvolves s0 (execWrReq x0 x1 x2) := by
  unfold execWrReq
  repeat' first
    | with_reducible assumption
    | with_reducible apply outEvolves_next
    | with_reducible apply takeReq_evolves
    | split
    | dsimp only
    | unfold Evolves; dsimp only
    | unfold Evolves

theorem execWrRsp_evolves {s0} (x0 x1 x2) (h : Evolves s0 x2) : OutEvolves s0 (execWrRsp x0 x1 x2) := by
  unfold execWrRsp
  repeat' first
    | with_reducible assumption
    | with_reducible apply outEvolves_next
    | with_reducible apply arrives_evolves
    | with_reducible apply lateRsp_evolves
    | with_reducible apply clientBack_evolves
    | with_reducible apply writeBack_evolves
    | split
    | dsimp only
    | unfold Evolves; dsimp only
    | unfold Evolves

theorem endFlush_evolves {s0} (x0 x1) (h : Evolves s0 x0) : Evolves s0 (endFlush x0 x1) := by
  unfold endFlush
  repeat' first
    | with_reducible assumption
    | with_reducible apply putEnt_evolves
    | with_reducible apply settleDir_evolves
    | with_reducible refine foldl_evolves _ _ _ (fun _ _ _ => ?_) ?_
    | with_reducible refine foldl2_evolves _ _ _ (fun _ _ _ => ?_) ?_
    | with_reducible refine foldl3_evolves _ _ _ (fun _ _ _ => ?_) ?_
    | with_reducible refine foldl4_evolves _ _ _ (fun _ _ _ => ?_) ?_
    | split
    | dsimp only
    | unfold Evolves; dsimp only
    | unfold Evolves

theorem entryLost_evolves {s0} (x0 x1) (h : Evolves s0 x0) : Evolves s0 (entryLost x0 x1) := by
  unfold entryLost
  repeat' first
    | with_reducible assumption
    | with_reducible apply startFlush_evolves
    | with_reducible apply putEnt_evolves
    | with_reducible apply endFlush_evolves
    | split
    | dsimp only
    | unfold Evolves; dsimp only
    | unfold Evolves

theorem cachingReq_evolves {s0} (x0 x1 x2 x3) (h : Evolves s0 x0) : Evolves s0 (cachingReq x0 x1 x2 x3) := by
  unfold cachingReq
  repeat' first
    | with_reducible assumption
    | with_reducible apply entryLost_evolves
    | with_reducible apply takeReq_evolves
    | split
    | dsimp only
    | unfold Evolves; dsimp only
    | unfold Evolves

theorem commitDir_evolves {s0} (x0) (h : Evolves s0 x0) : Evolves s0 (commitDir x0) := by
  unfold commitDir
  repeat' first
    | with_reducible assumption
    | with_reducible apply commitTable_evolves
    | split
    | dsimp only
    | unfold Evolves; dsimp only
    | unfold Evolves

theorem execAgentRelease_evolves {s0} (x0 x1) (h : Evolves s0 x1) : OutEvolves s0 (execAgentRelease x0 x1) := by
  unfold execAgentRelease
  repeat' first
    | with_reducible assumption
    | with_reducible apply outEvolves_next
    | with_reducible apply setF_evolves
    | with_reducible apply putEnt_evolves
    | with_reducible apply settleDir_evolves
    | with_reducible apply setB_evolves
    | with_reducible refine foldl_evolves _ _ _ (fun _ _ _ => ?_) ?_
    | with_reducible refine foldl2_evolves _ _ _ (fun _ _ _ => ?_) ?_
    | with_reducible refine foldl3_evolves _ _ _ (fun _ _ _ => ?_) ?_
    | with_reducible refine foldl4_evolves _ _ _ (fun _ _ _ => ?_) ?_
    | split
    | dsimp only
    | unfold Evolves; dsimp only
    | unfold Evolves

theorem execBinvRange_evolves {s0} (x0 x1 x2) (h : Evolves s0 x2) : OutEvolves s0 (execBinvRange x0 x1 x2) := by
  unfold execBinvRange
  repeat' first
    | with_reducible assumption
    | with_reducible apply outEvolves_next
    | with_reducible apply setF_evolves
    | with_reducible apply setB_evolves
    | with_reducible apply startBinv_evolves
    | with_reducible apply settleDir_evolves
    | with_reducible refine foldl_evolves _ _ _ (fun _ _ _ => ?_) ?_
    | with_reducible refine foldl2_evolves _ _ _ (fun _ _ _ => ?_) ?_
    | with_reducible refine foldl3_evolves _ _ _ (fun _ _ _ => ?_) ?_
    | with_reducible refine foldl4_evolves _ _ _ (fun _ _ _ => ?_) ?_
    | split
    | dsimp only
    | unfold Evolves; dsimp only
    | unfold Evolves

theorem sender_evolves {s0} (x0 x1) (h : Evolves s0 x0) : Evolves s0 (sender x0 x1).2 := by
  unfold sender
  repeat' first
    | with_reducible assumption
    | with_reducible apply bump_evolves
    | split
    | dsimp only
    | unfold Evolves; dsimp only
    | unfold Evolves

theorem stepTxn_evolves {s0} (x0 x1) (h : Evolves s0 x0) : Evolves s0 (stepTxn x0 x1) := by
  unfold stepTxn
  repeat' first
    | with_reducible assumption
    | with_reducible apply advTxn_evolves
    | with_reducible apply settleDir_evolves
    | split
    | dsimp only
    | unfold Evolves; dsimp only
    | unfold Evolves

theorem modTxn_evolves {s0} (x0 x1 x2) (h : Evolves s0 x0) : Evolves s0 (modTxn x0 x1 x2) := by
  unfold modTxn
  repeat' first
    | with_reducible assumption
    | split
    | dsimp only
    | unfold Evolves; dsimp only
    | unfold Evolves

theorem execCompAck_evolves {s0} (x0 x1 x2) (h : Evolves s0 x2) : OutEvolves s0 (execCompAck x0 x1 x2) := by
  unfold execCompAck
  repeat' first
    | with_reducible assumption
    | with_reducible apply outEvolves_next
    | with_reducible apply arrives_evolves
    | with_reducible apply sender_evolves
    | with_reducible apply stepTxn_evolves
    | with_reducible apply modTxn_evolves
    | split
    | dsimp only
    | unfold Evolves; dsimp only
    | unfold Evolves

theorem execCompAckTimeout_evolves {s0} (x0 x1) (h : Evolves s0 x1) : OutEvolves s0 (execCompAckTimeout x0 x1) := by
  unfold execCompAckTimeout
  repeat' first
    | with_reducible assumption
    | with_reducible apply outEvolves_next
    | with_reducible apply logDir_evolves
    | with_reducible apply advance_evolves
    | with_reducible apply stepTxn_evolves
    | with_reducible apply modTxn_evolves
    | split
    | dsimp only
    | unfold Evolves; dsimp only
    | unfold Evolves

theorem execDirCommit_evolves {s0} (x0) (h : Evolves s0 x0) : OutEvolves s0 (execDirCommit x0) := by
  unfold execDirCommit
  repeat' first
    | with_reducible assumption
    | with_reducible apply outEvolves_next
    | with_reducible apply commitDir_evolves
    | split
    | dsimp only
    | unfold Evolves; dsimp only
    | unfold Evolves

theorem execEvictClean_evolves {s0} (x0 x1 x2) (h : Evolves s0 x2) : OutEvolves s0 (execEvictClean x0 x1 x2) := by
  unfold execEvictClean
  repeat' first
    | with_reducible assumption
    | with_reducible apply outEvolves_next
    | with_reducible apply arrives_evolves
    | with_reducible apply sender_evolves
    | with_reducible apply settleDir_evolves
    | with_reducible apply putEnt_evolves
    | split
    | dsimp only
    | unfold Evolves; dsimp only
    | unfold Evolves

theorem execHoldExpiry_evolves {s0} (x0 x1) (h : Evolves s0 x1) : OutEvolves s0 (execHoldExpiry x0 x1) := by
  unfold execHoldExpiry
  repeat' first
    | with_reducible assumption
    | with_reducible apply outEvolves_next
    | with_reducible apply settleDir_evolves
    | with_reducible apply advance_evolves
    | split
    | dsimp only
    | unfold Evolves; dsimp only
    | unfold Evolves

theorem execRdOwn_evolves {s0} (x0 x1 x2 x3) (h : Evolves s0 x3) : OutEvolves s0 (execRdOwn x0 x1 x2 x3) := by
  unfold execRdOwn
  repeat' first
    | with_reducible assumption
    | with_reducible apply outEvolves_next
    | with_reducible apply cachingReq_evolves
    | split
    | dsimp only
    | unfold Evolves; dsimp only
    | unfold Evolves

theorem execRdShared_evolves {s0} (x0 x1 x2 x3) (h : Evolves s0 x3) : OutEvolves s0 (execRdShared x0 x1 x2 x3) := by
  unfold execRdShared
  repeat' first
    | with_reducible assumption
    | with_reducible apply outEvolves_next
    | with_reducible apply cachingReq_evolves
    | split
    | dsimp only
    | unfold Evolves; dsimp only
    | unfold Evolves

theorem markFailed_evolves {s0} (x0 x1 x2) (h : Evolves s0 x0) : Evolves s0 (markFailed x0 x1 x2) := by
  unfold markFailed
  repeat' first
    | with_reducible assumption
    | with_reducible apply logDir_evolves
    | with_reducible apply setB_evolves
    | split
    | dsimp only
    | unfold Evolves; dsimp only
    | unfold Evolves

theorem failTxn_evolves {s0} (x0 x1 x2 x3) (h : Evolves s0 x0) : Evolves s0 (failTxn x0 x1 x2 x3) := by
  unfold failTxn
  repeat' first
    | with_reducible assumption
    | with_reducible apply putEnt_evolves
    | with_reducible apply closeTxn_evolves
    | with_reducible apply dirSettle_evolves
    | with_reducible apply afterDir_evolves
    | split
    | dsimp only
    | unfold Evolves; dsimp only
    | unfold Evolves

theorem modFlush_evolves {s0} (x0 x1 x2) (h : Evolves s0 x0) : Evolves s0 (modFlush x0 x1 x2) := by
  unfold modFlush
  repeat' first
    | with_reducible assumption
    | with_reducible apply endFlush_evolves
    | split
    | dsimp only
    | unfold Evolves; dsimp only
    | unfold Evolves

theorem flushGone_evolves {s0} (x0 x1 x2) (h : Evolves s0 x0) : Evolves s0 (flushGone x0 x1 x2) := by
  unfold flushGone
  repeat' first
    | with_reducible assumption
    | with_reducible apply modFlush_evolves
    | split
    | dsimp only
    | unfold Evolves; dsimp only
    | unfold Evolves

theorem execSnoopTimeout_evolves {s0} (x0 x1 x2) (h : Evolves s0 x2) : OutEvolves s0 (execSnoopTimeout x0 x1 x2) := by
  unfold execSnoopTimeout
  repeat' first
    | with_reducible assumption
    | with_reducible apply outEvolves_next
    | with_reducible apply markFailed_evolves
    | with_reducible apply advance_evolves
    | with_reducible apply failTxn_evolves
    | with_reducible apply putEnt_evolves
    | with_reducible apply stepTxn_evolves
    | with_reducible apply modTxn_evolves
    | with_reducible apply flushGone_evolves
    | split
    | dsimp only
    | unfold Evolves; dsimp only
    | unfold Evolves

theorem takeSnp_evolves {s0} (x0 x1 x2 x3 x4) (h : Evolves s0 x0) : Evolves s0 (takeSnp x0 x1 x2 x3 x4) := by
  unfold takeSnp
  repeat' first
    | with_reducible assumption
    | with_reducible apply failTxn_evolves
    | with_reducible apply bump_evolves
    | with_reducible apply storeBack_evolves
    | with_reducible apply putEnt_evolves
    | with_reducible apply modTxn_evolves
    | with_reducible apply stepTxn_evolves
    | split
    | dsimp only
    | unfold Evolves; dsimp only
    | unfold Evolves

theorem flushRsp_evolves {s0} (x0 x1 x2 x3) (h : Evolves s0 x0) : Evolves s0 (flushRsp x0 x1 x2 x3) := by
  unfold flushRsp
  repeat' first
    | with_reducible assumption
    | with_reducible apply modFlush_evolves
    | split
    | dsimp only
    | unfold Evolves; dsimp only
    | unfold Evolves

theorem execSnpRsp_evolves {s0} (x0 x1 x2) (h : Evolves s0 x2) : OutEvolves s0 (execSnpRsp x0 x1 x2) := by
  unfold execSnpRsp
  repeat' first
    | with_reducible assumption
    | with_reducible apply outEvolves_next
    | with_reducible apply arrives_evolves
    | with_reducible apply sender_evolves
    | with_reducible apply takeSnp_evolves
    | with_reducible apply flushRsp_evolves
    | split
    | dsimp only
    | unfold Evolves; dsimp only
    | unfold Evolves

theorem execUpgrade_evolves {s0} (x0 x1 x2 x3) (h : Evolves s0 x3) : OutEvolves s0 (execUpgrade x0 x1 x2 x3) := by
  unfold execUpgrade
  repeat' first
    | with_reducible assumption
    | with_reducible apply outEvolves_next
    | with_reducible apply cachingReq_evolves
    | split
    | dsimp only
    | unfold Evolves; dsimp only
    | unfold Evolves

theorem flushWb_evolves {s0} (x0 x1 x2) (h : Evolves s0 x0) : Evolves s0 (flushWb x0 x1 x2) := by
  unfold flushWb
  repeat' first
    | with_reducible assumption
    | with_reducible apply modFlush_evolves
    | split
    | dsimp only
    | unfold Evolves; dsimp only
    | unfold Evolves

theorem wbAck_evolves {s0} (x0 x1 x2) (h : Evolves s0 x0) : Evolves s0 (wbAck x0 x1 x2) := by
  unfold wbAck
  repeat' first
    | with_reducible assumption
    | with_reducible apply cohSend_evolves
    | split
    | dsimp only
    | unfold Evolves; dsimp only
    | unfold Evolves

theorem wbIntoTxn_evolves {s0} (x0 x1 x2 x3) (h : Evolves s0 x0) : Evolves s0 (wbIntoTxn x0 x1 x2 x3) := by
  unfold wbIntoTxn
  repeat' first
    | with_reducible assumption
    | with_reducible apply storeBack_evolves
    | with_reducible apply modTxn_evolves
    | split
    | dsimp only
    | unfold Evolves; dsimp only
    | unfold Evolves

theorem takeWb_evolves {s0} (x0 x1 x2) (h : Evolves s0 x0) : Evolves s0 (takeWb x0 x1 x2) := by
  unfold takeWb
  repeat' first
    | with_reducible assumption
    | with_reducible apply bump_evolves
    | with_reducible apply flushWb_evolves
    | with_reducible apply wbAck_evolves
    | with_reducible apply storeBack_evolves
    | with_reducible apply logDir_evolves
    | with_reducible apply stepTxn_evolves
    | with_reducible apply wbIntoTxn_evolves
    | with_reducible apply putEnt_evolves
    | with_reducible apply settleDir_evolves
    | split
    | dsimp only
    | unfold Evolves; dsimp only
    | unfold Evolves

theorem execWbData_evolves {s0} (x0 x1 x2) (h : Evolves s0 x2) : OutEvolves s0 (execWbData x0 x1 x2) := by
  unfold execWbData
  repeat' first
    | with_reducible assumption
    | with_reducible apply outEvolves_next
    | with_reducible apply arrives_evolves
    | with_reducible apply sender_evolves
    | with_reducible apply takeWb_evolves
    | with_reducible apply wbAck_evolves
    | split
    | dsimp only
    | unfold Evolves; dsimp only
    | unfold Evolves

theorem abortCaching_evolves {s0} (x0 x1) (h : Evolves s0 x0) : Evolves s0 (abortCaching x0 x1) := by
  unfold abortCaching
  repeat' first
    | with_reducible assumption
    | with_reducible apply cohErr_evolves
    | with_reducible apply stepTxn_evolves
    | split
    | dsimp only
    | unfold Evolves; dsimp only
    | unfold Evolves

theorem abortReq_evolves {s0} (x0 x1 x2) (h : Evolves s0 x0) : Evolves s0 (abortReq x0 x1 x2) := by
  unfold abortReq
  repeat' first
    | with_reducible assumption
    | with_reducible apply answerReq_evolves
    | split
    | dsimp only
    | unfold Evolves; dsimp only
    | unfold Evolves

theorem abortFlight_evolves {s0} (x0 x1 x2) (h : Evolves s0 x0) : Evolves s0 (abortFlight x0 x1 x2) := by
  unfold abortFlight
  repeat' first
    | with_reducible assumption
    | with_reducible apply abortReq_evolves
    | with_reducible apply endTile_evolves
    | with_reducible apply stopDma_evolves
    | split
    | dsimp only
    | unfold Evolves; dsimp only
    | unfold Evolves

theorem atsFail_evolves {s0} (x0 x1 x2) (h : Evolves s0 x0) : Evolves s0 (atsFail x0 x1 x2) := by
  unfold atsFail
  repeat' first
    | with_reducible assumption
    | with_reducible apply failPiece_evolves
    | with_reducible apply failMig_evolves
    | with_reducible apply queueError_evolves
    | with_reducible apply recordsLost_evolves
    | split
    | dsimp only
    | unfold Evolves; dsimp only
    | unfold Evolves

theorem atsFinish_evolves {s0} (x0) (h : Evolves s0 x0) : Evolves s0 (atsFinish x0) := by
  unfold atsFinish
  repeat' first
    | with_reducible assumption
    | with_reducible apply emit_evolves
    | with_reducible refine foldl_evolves _ _ _ (fun _ _ _ => ?_) ?_
    | with_reducible refine foldl2_evolves _ _ _ (fun _ _ _ => ?_) ?_
    | with_reducible refine foldl3_evolves _ _ _ (fun _ _ _ => ?_) ?_
    | with_reducible refine foldl4_evolves _ _ _ (fun _ _ _ => ?_) ?_
    | split
    | dsimp only
    | unfold Evolves; dsimp only
    | unfold Evolves

theorem atsGo_evolves {s0} (x0 x1) (h : Evolves s0 x0) : Evolves s0 (atsGo x0 x1) := by
  unfold atsGo
  repeat' first
    | with_reducible assumption
    | with_reducible apply migGo_evolves
    | with_reducible apply recordsGo_evolves
    | split
    | dsimp only
    | unfold Evolves; dsimp only
    | unfold Evolves

theorem atsPut_evolves {s0} (x0 x1) (h : Evolves s0 x0) : Evolves s0 (atsPut x0 x1) := by
  unfold atsPut
  repeat' first
    | with_reducible assumption
    | split
    | dsimp only
    | unfold Evolves; dsimp only
    | unfold Evolves

theorem execAtsInvalidationRequest_evolves {s0} (x0 x1 x2 x3 x4 x5) (h : Evolves s0 x5) : OutEvolves s0 (execAtsInvalidationRequest x0 x1 x2 x3 x4 x5) := by
  unfold execAtsInvalidationRequest
  repeat' first
    | with_reducible assumption
    | with_reducible apply outEvolves_next
    | split
    | dsimp only
    | unfold Evolves; dsimp only
    | unfold Evolves

theorem execAtsTranslationCompletion_evolves {s0} (x0 x1 x2 x3 x4 x5 x6) (h : Evolves s0 x6) : OutEvolves s0 (execAtsTranslationCompletion x0 x1 x2 x3 x4 x5 x6) := by
  unfold execAtsTranslationCompletion
  repeat' first
    | with_reducible assumption
    | with_reducible apply outEvolves_next
    | with_reducible apply atsGo_evolves
    | with_reducible apply atsPut_evolves
    | with_reducible apply atsFail_evolves
    | with_reducible apply emit_evolves
    | with_reducible refine foldl_evolves _ _ _ (fun _ _ _ => ?_) ?_
    | with_reducible refine foldl2_evolves _ _ _ (fun _ _ _ => ?_) ?_
    | with_reducible refine foldl3_evolves _ _ _ (fun _ _ _ => ?_) ?_
    | with_reducible refine foldl4_evolves _ _ _ (fun _ _ _ => ?_) ?_
    | split
    | dsimp only
    | unfold Evolves; dsimp only
    | unfold Evolves

theorem rcmd_evolves {s0} (x0 x1 x2 x3 x4 x5) (h : Evolves s0 x0) : Evolves s0 (rcmd x0 x1 x2 x3 x4 x5) := by
  unfold rcmd
  repeat' first
    | with_reducible assumption
    | with_reducible apply setF_evolves
    | split
    | dsimp only
    | unfold Evolves; dsimp only
    | unfold Evolves

theorem issueRcmd_evolves {s0} (x0 x1 x2 x3 x4 x5 x6) (x7 : State → State) (h : Evolves s0 x0) (hf : ∀ s, Evolves s0 s → Evolves s0 (x7 s)) :
    Evolves s0 (issueRcmd x0 x1 x2 x3 x4 x5 x6 x7) := by
  unfold issueRcmd
  extract_lets r s
  have k : Evolves s0 s := rcmd_evolves _ _ _ _ _ _ h
  clear_value s
  split
  · exact id k
  · exact hf _ (evolves_keep k)

theorem startInval_evolves {s0} (x0 x1 x2 x3 x4) (h : Evolves s0 x0) : Evolves s0 (startInval x0 x1 x2 x3 x4) := by
  unfold startInval
  repeat' first
    | with_reducible assumption
    | with_reducible apply cacheDrop_evolves
    | split
    | dsimp only
    | unfold Evolves; dsimp only
    | unfold Evolves

theorem execInvalidateRange_evolves {s0} (x0 x1 x2 x3 x4) (h : Evolves s0 x4) : OutEvolves s0 (execInvalidateRange x0 x1 x2 x3 x4) := by
  unfold execInvalidateRange
  repeat' first
    | with_reducible assumption
    | with_reducible apply outEvolves_next
    | with_reducible apply issueRcmd_evolves
    | with_reducible apply startInval_evolves
    | (intro)
    | split
    | dsimp only
    | unfold Evolves; dsimp only
    | unfold Evolves

theorem execInvalidateTenant_evolves {s0} (x0 x1 x2) (h : Evolves s0 x2) : OutEvolves s0 (execInvalidateTenant x0 x1 x2) := by
  unfold execInvalidateTenant
  repeat' first
    | with_reducible assumption
    | with_reducible apply outEvolves_next
    | with_reducible apply issueRcmd_evolves
    | with_reducible apply startInval_evolves
    | (intro)
    | split
    | dsimp only
    | unfold Evolves; dsimp only
    | unfold Evolves

theorem xtuDone_evolves {s0} (x0 x1 x2 x3) (h : Evolves s0 x0) : Evolves s0 (xtuDone x0 x1 x2 x3) := by
  unfold xtuDone
  repeat' first
    | with_reducible assumption
    | with_reducible apply ringPush_evolves
    | split
    | dsimp only
    | unfold Evolves; dsimp only
    | unfold Evolves

theorem execInvalidationComplete_evolves {s0} (x0 x1) (h : Evolves s0 x1) : OutEvolves s0 (execInvalidationComplete x0 x1) := by
  unfold execInvalidationComplete
  repeat' first
    | with_reducible assumption
    | with_reducible apply outEvolves_next
    | with_reducible apply advance_evolves
    | with_reducible apply xtuDone_evolves
    | with_reducible refine foldl_evolves _ _ _ (fun _ _ _ => ?_) ?_
    | with_reducible refine foldl2_evolves _ _ _ (fun _ _ _ => ?_) ?_
    | with_reducible refine foldl3_evolves _ _ _ (fun _ _ _ => ?_) ?_
    | with_reducible refine foldl4_evolves _ _ _ (fun _ _ _ => ?_) ?_
    | split
    | dsimp only
    | unfold Evolves; dsimp only
    | unfold Evolves

theorem loadSlot_evolves {s0} (x0 x1 x2) (h : Evolves s0 x0) : Evolves s0 (loadSlot x0 x1 x2) := by
  unfold loadSlot
  repeat' first
    | with_reducible assumption
    | with_reducible apply setF_evolves
    | with_reducible apply setB_evolves
    | split
    | dsimp only
    | unfold Evolves; dsimp only
    | unfold Evolves

theorem execKeySlotLoaded_evolves {s0} (x0 x1) (h : Evolves s0 x1) : OutEvolves s0 (execKeySlotLoaded x0 x1) := by
  unfold execKeySlotLoaded
  repeat' first
    | with_reducible assumption
    | with_reducible apply outEvolves_next
    | with_reducible apply loadSlot_evolves
    | with_reducible apply resumeHeld_evolves
    | split
    | dsimp only
    | unfold Evolves; dsimp only
    | unfold Evolves

theorem modInval_evolves {s0} (x0 x1 x2) (h : Evolves s0 x0) : Evolves s0 (modInval x0 x1 x2) := by
  unfold modInval
  repeat' first
    | with_reducible assumption
    | split
    | dsimp only
    | unfold Evolves; dsimp only
    | unfold Evolves

theorem notice_evolves {s0} (x0 x1 x2) (h : Evolves s0 x0) : Evolves s0 (notice x0 x1 x2) := by
  unfold notice
  repeat' first
    | with_reducible assumption
    | with_reducible apply modInval_evolves
    | with_reducible apply stopDesc_evolves
    | with_reducible apply atsFinish_evolves
    | with_reducible apply ackInvals_evolves
    | with_reducible refine foldl_evolves _ _ _ (fun _ _ _ => ?_) ?_
    | with_reducible refine foldl2_evolves _ _ _ (fun _ _ _ => ?_) ?_
    | with_reducible refine foldl3_evolves _ _ _ (fun _ _ _ => ?_) ?_
    | with_reducible refine foldl4_evolves _ _ _ (fun _ _ _ => ?_) ?_
    | split
    | dsimp only
    | unfold Evolves; dsimp only
    | unfold Evolves

theorem noticeOf_evolves {s0} (x0 x1 x2) (h : Evolves s0 x0) : Evolves s0 (noticeOf x0 x1 x2) := by
  unfold noticeOf
  repeat' first
    | with_reducible assumption
    | with_reducible apply notice_evolves
    | split
    | dsimp only
    | unfold Evolves; dsimp only
    | unfold Evolves

theorem execLeaseNotice_evolves {s0} (x0 x1 x2 x3) (h : Evolves s0 x3) : OutEvolves s0 (execLeaseNotice x0 x1 x2 x3) := by
  unfold execLeaseNotice
  repeat' first
    | with_reducible assumption
    | with_reducible apply outEvolves_next
    | with_reducible apply noticeOf_evolves
    | with_reducible refine foldl_evolves _ _ _ (fun _ _ _ => ?_) ?_
    | with_reducible refine foldl2_evolves _ _ _ (fun _ _ _ => ?_) ?_
    | with_reducible refine foldl3_evolves _ _ _ (fun _ _ _ => ?_) ?_
    | with_reducible refine foldl4_evolves _ _ _ (fun _ _ _ => ?_) ?_
    | split
    | dsimp only
    | unfold Evolves; dsimp only
    | unfold Evolves

theorem execMigEnClear_evolves {s0} (x0) (h : Evolves s0 x0) : OutEvolves s0 (execMigEnClear x0) := by
  unfold execMigEnClear
  repeat' first
    | with_reducible assumption
    | with_reducible apply outEvolves_next
    | with_reducible apply setB_evolves
    | with_reducible apply setF_evolves
    | with_reducible apply failHeld_evolves
    | split
    | dsimp only
    | unfold Evolves; dsimp only
    | unfold Evolves

theorem execPageRequestResponse_evolves {s0} (x0 x1 x2) (h : Evolves s0 x2) : OutEvolves s0 (execPageRequestResponse x0 x1 x2) := by
  unfold execPageRequestResponse
  repeat' first
    | with_reducible assumption
    | with_reducible apply outEvolves_next
    | with_reducible apply emit_evolves
    | with_reducible apply atsFail_evolves
    | split
    | dsimp only
    | unfold Evolves; dsimp only
    | unfold Evolves

theorem execPriTimeout_evolves {s0} (x0 x1) (h : Evolves s0 x1) : OutEvolves s0 (execPriTimeout x0 x1) := by
  unfold execPriTimeout
  repeat' first
    | with_reducible assumption
    | with_reducible apply outEvolves_next
    | with_reducible apply atsFail_evolves
    | with_reducible apply advance_evolves
    | split
    | dsimp only
    | unfold Evolves; dsimp only
    | unfold Evolves

theorem execResmapClear_evolves {s0} (x0 x1 x2 x3) (h : Evolves s0 x3) : OutEvolves s0 (execResmapClear x0 x1 x2 x3) := by
  unfold execResmapClear
  repeat' first
    | with_reducible assumption
    | with_reducible apply outEvolves_next
    | with_reducible apply issueRcmd_evolves
    | with_reducible apply xtuDone_evolves
    | with_reducible apply setResident_evolves
    | with_reducible refine foldl_evolves _ _ _ (fun _ _ _ => ?_) ?_
    | with_reducible refine foldl2_evolves _ _ _ (fun _ _ _ => ?_) ?_
    | with_reducible refine foldl3_evolves _ _ _ (fun _ _ _ => ?_) ?_
    | with_reducible refine foldl4_evolves _ _ _ (fun _ _ _ => ?_) ?_
    | (intro)
    | split
    | dsimp only
    | unfold Evolves; dsimp only
    | unfold Evolves

theorem revAnswer_evolves {s0} (x0 x1 x2) (h : Evolves s0 x0) : Evolves s0 (revAnswer x0 x1 x2) := by
  unfold revAnswer
  repeat' first
    | with_reducible assumption
    | with_reducible apply xtuDone_evolves
    | with_reducible apply endDesc_evolves
    | split
    | dsimp only
    | unfold Evolves; dsimp only
    | unfold Evolves

theorem raiseRev_evolves {s0} (x0 x1 x2 x3 x4) (h : Evolves s0 x0) : Evolves s0 (raiseRev x0 x1 x2 x3 x4) := by
  unfold raiseRev
  repeat' first
    | with_reducible assumption
    | with_reducible apply hwWrite_evolves
    | split
    | dsimp only
    | unfold Evolves; dsimp only
    | unfold Evolves

theorem startRevoke_evolves {s0} (x0 x1 x2 x3) (h : Evolves s0 x0) : Evolves s0 (startRevoke x0 x1 x2 x3) := by
  unfold startRevoke
  repeat' first
    | with_reducible assumption
    | with_reducible apply searchTable_evolves
    | with_reducible apply revAnswer_evolves
    | with_reducible apply logXtu_evolves
    | with_reducible apply raiseRev_evolves
    | with_reducible apply failHeld_evolves
    | split
    | dsimp only
    | unfold Evolves; dsimp only
    | unfold Evolves

theorem runRevoke_evolves {s0} (x0 x1) (h : Evolves s0 x0) : Evolves s0 (runRevoke x0 x1) := by
  unfold runRevoke
  repeat' first
    | with_reducible assumption
    | with_reducible apply endDesc_evolves
    | with_reducible apply startRevoke_evolves
    | with_reducible apply modDesc_evolves
    | split
    | dsimp only
    | unfold Evolves; dsimp only
    | unfold Evolves

theorem revokeBy_evolves {s0} (x0 x1) (h : Evolves s0 x0) : Evolves s0 (revokeBy x0 x1) := by
  unfold revokeBy
  split
  · rename_i o
    have k : Evolves s0 (opTake x0 81 o).2 := opTake_evolves _ _ _ h
    split
    · rename_i e; rw [e] at k; exact id k
    · rename_i e; rw [e] at k; exact runRevoke_evolves _ _ k
  · exact issueRcmd_evolves _ _ _ _ _ _ _ _ h (fun s h => startRevoke_evolves _ _ _ _ h)

theorem execRevoke_evolves {s0} (x0 x1) (h : Evolves s0 x1) : OutEvolves s0 (execRevoke x0 x1) := by
  unfold execRevoke
  repeat' first
    | with_reducible assumption
    | with_reducible apply outEvolves_next
    | with_reducible apply revokeBy_evolves
    | split
    | dsimp only
    | unfold Evolves; dsimp only
    | unfold Evolves

theorem execRevokeDrainDone_evolves {s0} (x0 x1 x2) (h : Evolves s0 x2) : OutEvolves s0 (execRevokeDrainDone x0 x1 x2) := by
  unfold execRevokeDrainDone
  repeat' first
    | with_reducible assumption
    | with_reducible apply outEvolves_next
    | with_reducible apply revAnswer_evolves
    | with_reducible refine foldl_evolves _ _ _ (fun _ _ _ => ?_) ?_
    | with_reducible refine foldl2_evolves _ _ _ (fun _ _ _ => ?_) ?_
    | with_reducible refine foldl3_evolves _ _ _ (fun _ _ _ => ?_) ?_
    | with_reducible refine foldl4_evolves _ _ _ (fun _ _ _ => ?_) ?_
    | split
    | dsimp only
    | unfold Evolves; dsimp only
    | unfold Evolves

theorem execRevokeStragglerTimeout_evolves {s0} (x0 x1 x2) (h : Evolves s0 x2) : OutEvolves s0 (execRevokeStragglerTimeout x0 x1 x2) := by
  have k : ∀ t, Evolves s0 (advance x2 t) := fun t => advance_evolves _ _ h
  unfold execRevokeStragglerTimeout
  split
  · exact id h
  · rename_i v _
    have k := k (v.startNs + 2000000)
    generalize advance x2 (v.startNs + 2000000) = s at k
    exact outEvolves_next (evolves_keep (foldl_evolves _ _ _ (fun s f h => abortCaching_evolves _ _ h) (foldl_evolves _ _ _ (fun s f h => abortFlight_evolves _ _ _ h) (evolves_keep k))))

theorem execTableSwap_evolves {s0} (x0 x1 x2 x3 x4) (h : Evolves s0 x4) : OutEvolves s0 (execTableSwap x0 x1 x2 x3 x4) := by
  unfold execTableSwap
  repeat' first
    | with_reducible assumption
    | with_reducible apply outEvolves_next
    | with_reducible apply issueRcmd_evolves
    | with_reducible apply setF_evolves
    | with_reducible apply xtuDone_evolves
    | with_reducible apply cacheDropTenant_evolves
    | (intro)
    | split
    | dsimp only
    | unfold Evolves; dsimp only
    | unfold Evolves

theorem logSec_evolves {s0} (x0 x1 x2 x3) (h : Evolves s0 x0) : Evolves s0 (logSec x0 x1 x2 x3) := by
  unfold logSec
  repeat' first
    | with_reducible assumption
    | with_reducible apply logErr_evolves
    | split
    | dsimp only
    | unfold Evolves; dsimp only
    | unfold Evolves

theorem refuseCreate_evolves {s0} (x0 x1) (h : Evolves s0 x0) : Evolves s0 (refuseCreate x0 x1) := by
  unfold refuseCreate
  repeat' first
    | with_reducible assumption
    | with_reducible apply logXtu_evolves
    | split
    | dsimp only
    | unfold Evolves; dsimp only
    | unfold Evolves

theorem execTenantCreate_evolves {s0} (x0 x1 x2 x3) (h : Evolves s0 x3) : OutEvolves s0 (execTenantCreate x0 x1 x2 x3) := by
  unfold execTenantCreate
  repeat' first
    | with_reducible assumption
    | with_reducible apply outEvolves_next
    | with_reducible apply logSec_evolves
    | with_reducible apply refuseCreate_evolves
    | with_reducible apply setF_evolves
    | with_reducible apply setB_evolves
    | split
    | dsimp only
    | unfold Evolves; dsimp only
    | unfold Evolves

theorem execTenantKeyDestroy_evolves {s0} (x0 x1) (h : Evolves s0 x1) : OutEvolves s0 (execTenantKeyDestroy x0 x1) := by
  unfold execTenantKeyDestroy
  repeat' first
    | with_reducible assumption
    | with_reducible apply outEvolves_next
    | with_reducible apply setF_evolves
    | with_reducible apply cacheDropTenant_evolves
    | with_reducible apply bumpSat_evolves
    | with_reducible apply ringPush_evolves
    | split
    | dsimp only
    | unfold Evolves; dsimp only
    | unfold Evolves

theorem goneHold_evolves {s0} (x0 x1) (h : Evolves s0 x0) : Evolves s0 (goneHold x0 x1) := by
  unfold goneHold
  repeat' first
    | with_reducible assumption
    | with_reducible apply refuseReq_evolves
    | with_reducible apply stopDesc_evolves
    | with_reducible apply stopDma_evolves
    | split
    | dsimp only
    | unfold Evolves; dsimp only
    | unfold Evolves

theorem stopTenant_evolves {s0} (x0 x1) (h : Evolves s0 x0) : Evolves s0 (stopTenant x0 x1).2 := by
  unfold stopTenant
  repeat' first
    | with_reducible assumption
    | with_reducible apply goneHold_evolves
    | with_reducible apply holdView_evolves
    | with_reducible apply failWhere_evolves
    | with_reducible apply stopDesc_evolves
    | with_reducible apply errRsp_evolves
    | with_reducible refine foldl_evolves _ _ _ (fun _ _ _ => ?_) ?_
    | with_reducible refine foldl2_evolves _ _ _ (fun _ _ _ => ?_) ?_
    | with_reducible refine foldl3_evolves _ _ _ (fun _ _ _ => ?_) ?_
    | with_reducible refine foldl4_evolves _ _ _ (fun _ _ _ => ?_) ?_
    | split
    | dsimp only
    | unfold Evolves; dsimp only
    | unfold Evolves

theorem execTenantRetire_evolves {s0} (x0 x1) (h : Evolves s0 x1) : OutEvolves s0 (execTenantRetire x0 x1) := by
  unfold execTenantRetire
  repeat' first
    | with_reducible assumption
    | with_reducible apply outEvolves_next
    | with_reducible apply setF_evolves
    | with_reducible apply stopTenant_evolves
    | split
    | dsimp only
    | unfold Evolves; dsimp only
    | unfold Evolves

theorem execTranslationMiss_evolves {s0} (x0 x1 x2) (h : Evolves s0 x2) : OutEvolves s0 (execTranslationMiss x0 x1 x2) := by
  unfold execTranslationMiss
  repeat' first
    | with_reducible assumption
    | with_reducible apply outEvolves_next
    | with_reducible apply findRec_evolves
    | split
    | dsimp only
    | unfold Evolves; dsimp only
    | unfold Evolves

theorem execXtuMigDone_evolves {s0} (x0 x1 x2) (h : Evolves s0 x2) : OutEvolves s0 (execXtuMigDone x0 x1 x2) := by
  unfold execXtuMigDone
  repeat' first
    | with_reducible assumption
    | with_reducible apply outEvolves_next
    | with_reducible apply resumeHeld_evolves
    | with_reducible apply setResident_evolves
    | with_reducible apply failHeld_evolves
    | split
    | dsimp only
    | unfold Evolves; dsimp only
    | unfold Evolves

theorem loseStructs_evolves {s0} (x0) (h : Evolves s0 x0) : Evolves s0 (loseStructs x0) := by
  unfold loseStructs
  repeat' first
    | with_reducible assumption
    | with_reducible apply markLost_evolves
    | with_reducible apply fatalTenant_evolves
    | with_reducible apply logErr_evolves
    | with_reducible refine foldl_evolves _ _ _ (fun _ _ _ => ?_) ?_
    | with_reducible refine foldl2_evolves _ _ _ (fun _ _ _ => ?_) ?_
    | with_reducible refine foldl3_evolves _ _ _ (fun _ _ _ => ?_) ?_
    | with_reducible refine foldl4_evolves _ _ _ (fun _ _ _ => ?_) ?_
    | split
    | dsimp only
    | unfold Evolves; dsimp only
    | unfold Evolves

theorem loseMaps_evolves {s0} (x0) (h : Evolves s0 x0) : Evolves s0 (loseMaps x0) := by
  unfold loseMaps
  repeat' first
    | with_reducible assumption
    | with_reducible apply logRas_evolves
    | with_reducible apply loseMapGran_evolves
    | with_reducible refine foldl_evolves _ _ _ (fun _ _ _ => ?_) ?_
    | with_reducible refine foldl2_evolves _ _ _ (fun _ _ _ => ?_) ?_
    | with_reducible refine foldl3_evolves _ _ _ (fun _ _ _ => ?_) ?_
    | with_reducible refine foldl4_evolves _ _ _ (fun _ _ _ => ?_) ?_
    | split
    | dsimp only
    | unfold Evolves; dsimp only
    | unfold Evolves

theorem afterLoss_evolves {s0} (x0) (h : Evolves s0 x0) : Evolves s0 (afterLoss x0) := by
  unfold afterLoss
  repeat' first
    | with_reducible assumption
    | with_reducible apply loseStructs_evolves
    | with_reducible apply loseMaps_evolves
    | split
    | dsimp only
    | unfold Evolves; dsimp only
    | unfold Evolves

theorem loseChannels_evolves {s0} (x0 x1 x2) (h : Evolves s0 x0) : Evolves s0 (loseChannels x0 x1 x2) :=
  afterLoss_evolves _ (evolves_lostCh h _ (nwf_foldl _ (fun _ _ h => nwf_nset h _ _) _))

theorem loseMember_evolves {s0} (x0 x1 x2) (h : Evolves s0 x0) : Evolves s0 (loseMember x0 x1 x2) := by
  have h1 : Evolves s0 (setF { x0 with ras := { x0.ras with lostMember := some x1 } } Reg.parStatus_state 5) := setF_evolves _ _ _ _ (evolves_keep h)
  unfold loseMember
  dsimp only
  generalize setF { x0 with ras := { x0.ras with lostMember := some x1 } } Reg.parStatus_state 5 = s at h1
  split
  · exact afterLoss_evolves _ (evolves_keep h1)
  · exact afterLoss_evolves _ (evolves_lostCh h1 _ (nwf_foldl _ (fun _ _ h => nwf_nset h _ _) _))

theorem declareFailed_evolves {s0} (x0 x1) (h : Evolves s0 x0) : Evolves s0 (declareFailed x0 x1) := by
  unfold declareFailed
  repeat' first
    | with_reducible assumption
    | with_reducible apply logRasStack_evolves
    | with_reducible apply setF_evolves
    | with_reducible apply loseChannels_evolves
    | with_reducible apply loseMember_evolves
    | split
    | dsimp only
    | unfold Evolves; dsimp only
    | unfold Evolves

theorem stackGone_evolves {s0} (x0 x1 x2) (h : Evolves s0 x0) : Evolves s0 (stackGone x0 x1 x2) := by
  unfold stackGone
  repeat' first
    | with_reducible assumption
    | with_reducible apply declareFailed_evolves
    | with_reducible apply loseChannels_evolves
    | split
    | dsimp only
    | unfold Evolves; dsimp only
    | unfold Evolves

end Sys2Proof.Machine
end

