-- ==== Sys2Proof/Laws/EvolveStack.lean ====
section
/-!
SUPPORT. Laws/EvolveStack.lean: one lemma for each operation that answers a state, over the memory system, scrubbing, the flash, admission and security:
what Evolves says of a machine holds after it too.
-/
namespace Sys2Proof.Machine
open Sys2Proof

theorem accessRow_evolves {s0} (x0 x1 x2 x3) (h : Evolves s0 x0) : Evolves s0 (accessRow x0 x1 x2 x3) := by
  unfold accessRow
  repeat' first
    | with_reducible assumption
    | split
    | dsimp only
    | unfold Evolves; dsimp only
    | unfold Evolves

theorem ackOut_evolves {s0} (x0 x1 x2) (h : Evolves s0 x0) : Evolves s0 (ackOut x0 x1 x2) := by
  unfold ackOut
  repeat' first
    | with_reducible assumption
    | split
    | dsimp only
    | unfold Evolves; dsimp only
    | unfold Evolves

theorem ackWrite_evolves {s0} (x0 x1 x2 x3) (h : Evolves s0 x0) : Evolves s0 (ackWrite x0 x1 x2 x3) := by
  unfold ackWrite
  split
  · exact ackOut_evolves _ _ _ h
  split
  · exact { h with mem := h.mem }
  · exact ackOut_evolves _ _ _ h

theorem bridgeDir_evolves {s0} (x0 x1 x2 x3) (h : Evolves s0 x0) : Evolves s0 (bridgeDir x0 x1 x2 x3).2 := by
  unfold bridgeDir
  repeat' first
    | with_reducible assumption
    | with_reducible apply bump_evolves
    | split
    | dsimp only
    | unfold Evolves; dsimp only
    | unfold Evolves

theorem bridge_evolves {s0} (x0 x1 x2) (h : Evolves s0 x0) : Evolves s0 (bridge x0 x1 x2).2 := by
  unfold bridge
  repeat' first
    | with_reducible assumption
    | with_reducible apply bridgeDir_evolves
    | split
    | dsimp only
    | unfold Evolves; dsimp only
    | unfold Evolves

theorem commitSmc_evolves {s0} (x0) (h : Evolves s0 x0) : Evolves s0 (commitSmc x0) := by
  unfold commitSmc
  repeat' first
    | with_reducible assumption
    | with_reducible apply commitTable_evolves
    | split
    | dsimp only
    | unfold Evolves; dsimp only
    | unfold Evolves

theorem commitXbar_evolves {s0} (x0) (h : Evolves s0 x0) : Evolves s0 (commitXbar x0) := by
  unfold commitXbar
  extract_lets s ch v1 s1 v2 v3 v4 s2 v5 s3 v6 v7 s4 v8 s5 v9 s6
  have k0 : Evolves s0 s := commitTable_evolves _ _ h
  clear_value s
  have k1 : Evolves s0 s1 := by
    unfold s1
    split
    · exact evolves_keep k0
    · exact k0
  clear_value s1
  have k2 : Evolves s0 s2 := by
    unfold s2
    split
    · exact evolves_keep k1
    · exact k1
  clear_value s2
  have k3 : Evolves s0 s3 := by
    unfold s3
    split
    · exact evolves_keep k2
    · exact k2
  clear_value s3
  have k4 : Evolves s0 s4 := by
    unfold s4
    split
    · exact evolves_keep k3
    · exact k3
  clear_value s4
  have k5 : Evolves s0 s5 := by
    unfold s5
    split
    · exact evolves_keep k4
    · exact k4
  clear_value s5
  have k6 : Evolves s0 s6 := by
    unfold s6
    split
    · exact evolves_keep k5
    · exact k5
  clear_value s6
  split
  · exact evolves_keep k6
  · exact k6

theorem countBridge_evolves {s0} (x0 x1 x2) (h : Evolves s0 x0) : Evolves s0 (countBridge x0 x1 x2) := by
  unfold countBridge
  repeat' first
    | with_reducible assumption
    | with_reducible apply bump_evolves
    | split
    | dsimp only
    | unfold Evolves; dsimp only
    | unfold Evolves

theorem takeLink_evolves {s0} (x0 x1 x2) (h : Evolves s0 x0) : Evolves s0 (takeLink x0 x1 x2) := by
  unfold takeLink
  repeat' first
    | with_reducible assumption
    | split
    | dsimp only
    | unfold Evolves; dsimp only
    | unfold Evolves

theorem grantReq_evolves {s0} (x0 x1 x2 x3) (h : Evolves s0 x0) : Evolves s0 (grantReq x0 x1 x2 x3) := by
  unfold grantReq
  extract_lets st p u s sa sb key was sc x
  have ks : Evolves s0 s := by
    show Evolves s0 (if _ then _ else _)
    split
    · exact bump_evolves _ _ _ _ h
    · exact id h
  clear_value s
  have kb : Evolves s0 sb := countBridge_evolves _ _ _ (attribOwn_evolves _ _ (takeLink_evolves _ _ _ (accessRow_evolves _ _ _ _ ks)))
  clear_value sb
  have kc : Evolves s0 sc := memStoreBlock_evolves _ _ _ _ _ kb
  have kx : Evolves s0 x.2 := evolves_at2 (memReadX_evolves _ _ _ _ _ kb) rfl
  clear_value sc x
  split
  · split
    · exact ackOut_evolves _ _ _ kb
    · exact ackWrite_evolves _ _ _ _ (memStore_evolves _ _ _ _ _ kb)
  split
  · split
    · exact ackOut_evolves _ _ _ kb
    split
    · exact ackOut_evolves _ _ _ kc
    · exact ackWrite_evolves _ _ _ _ kc
  · exact ackOut_evolves _ _ _ kx

theorem execChannelGrant_evolves {s0} (x0 x1 x2 x3 x4) (h : Evolves s0 x4) : OutEvolves s0 (execChannelGrant x0 x1 x2 x3 x4) := by
  unfold execChannelGrant
  repeat' first
    | with_reducible assumption
    | with_reducible apply outEvolves_next
    | with_reducible apply bridge_evolves
    | with_reducible apply zLineError_evolves
    | with_reducible apply grantReq_evolves
    | split
    | dsimp only
    | unfold Evolves; dsimp only
    | unfold Evolves

theorem removeChannel_evolves {s0} (x0 x1 x2) (h : Evolves s0 x0) : Evolves s0 (removeChannel x0 x1 x2) := by
  unfold removeChannel
  repeat' first
    | with_reducible assumption
    | with_reducible apply setF_evolves
    | with_reducible apply logErr_evolves
    | with_reducible apply stackGone_evolves
    | split
    | dsimp only
    | unfold Evolves; dsimp only
    | unfold Evolves

theorem retrainChannel_evolves {s0} (x0 x1 x2 x3) (h : Evolves s0 x0) : Evolves s0 (retrainChannel x0 x1 x2 x3) := by
  unfold retrainChannel
  repeat' first
    | with_reducible assumption
    | with_reducible apply removeChannel_evolves
    | split
    | dsimp only
    | unfold Evolves; dsimp only
    | unfold Evolves

theorem execChannelRetrain_evolves {s0} (x0 x1 x2 x3 x4) (h : Evolves s0 x4) : OutEvolves s0 (execChannelRetrain x0 x1 x2 x3 x4) := by
  unfold execChannelRetrain
  repeat' first
    | with_reducible assumption
    | with_reducible apply outEvolves_next
    | with_reducible apply setF_evolves
    | with_reducible apply advance_evolves
    | with_reducible apply retrainChannel_evolves
    | split
    | dsimp only
    | unfold Evolves; dsimp only
    | unfold Evolves

theorem execOpenMaxExpiry_evolves {s0} (x0 x1 x2 x3 x4) (h : Evolves s0 x4) : OutEvolves s0 (execOpenMaxExpiry x0 x1 x2 x3 x4) := by
  unfold execOpenMaxExpiry
  repeat' first
    | with_reducible assumption
    | with_reducible apply outEvolves_next
    | with_reducible apply advance_evolves
    | split
    | dsimp only
    | unfold Evolves; dsimp only
    | unfold Evolves

theorem execParityDelta_evolves {s0} (x0 x1) (h : Evolves s0 x1) : OutEvolves s0 (execParityDelta x0 x1) := by
  unfold execParityDelta
  split
  · exact id h
  · rename_i d _
    exact outEvolves_next (evolves_keep (evolves_mem_keep h (x1.mem.deltas.erase d) x1.mem.prot x1.mem.spare))

theorem execRefresh_evolves {s0} (x0 x1 x2 x3 x4 x5) (h : Evolves s0 x5) : OutEvolves s0 (execRefresh x0 x1 x2 x3 x4 x5) := by
  unfold execRefresh
  repeat' first
    | with_reducible assumption
    | with_reducible apply outEvolves_next
    | with_reducible apply advance_evolves
    | with_reducible apply telEvent_evolves
    | split
    | dsimp only
    | unfold Evolves; dsimp only
    | unfold Evolves

theorem execSmcCommit_evolves {s0} (x0) (h : Evolves s0 x0) : OutEvolves s0 (execSmcCommit x0) := by
  unfold execSmcCommit
  repeat' first
    | with_reducible assumption
    | with_reducible apply outEvolves_next
    | with_reducible apply commitSmc_evolves
    | split
    | dsimp only
    | unfold Evolves; dsimp only
    | unfold Evolves

theorem lockLayout_evolves {s0} (x0) (h : Evolves s0 x0) : Evolves s0 (lockLayout x0) := by
  unfold lockLayout
  repeat' first
    | with_reducible assumption
    | with_reducible apply setF_evolves
    | with_reducible apply setB_evolves
    | with_reducible refine foldl_evolves _ _ _ (fun _ _ _ => ?_) ?_
    | with_reducible refine foldl2_evolves _ _ _ (fun _ _ _ => ?_) ?_
    | with_reducible refine foldl3_evolves _ _ _ (fun _ _ _ => ?_) ?_
    | with_reducible refine foldl4_evolves _ _ _ (fun _ _ _ => ?_) ?_
    | split
    | dsimp only
    | unfold Evolves; dsimp only
    | unfold Evolves

theorem execSmcLock_evolves {s0} (x0) (h : Evolves s0 x0) : OutEvolves s0 (execSmcLock x0) := by
  unfold execSmcLock
  repeat' first
    | with_reducible assumption
    | with_reducible apply outEvolves_next
    | with_reducible apply lockLayout_evolves
    | split
    | dsimp only
    | unfold Evolves; dsimp only
    | unfold Evolves

theorem retrainPass_evolves {s0} (x0 x1 x2) (h : Evolves s0 x0) : Evolves s0 (retrainPass x0 x1 x2) := by
  unfold retrainPass
  repeat' first
    | with_reducible assumption
    | with_reducible apply retrainChannel_evolves
    | with_reducible apply setB_evolves
    | with_reducible refine foldl_evolves _ _ _ (fun _ _ _ => ?_) ?_
    | with_reducible refine foldl2_evolves _ _ _ (fun _ _ _ => ?_) ?_
    | with_reducible refine foldl3_evolves _ _ _ (fun _ _ _ => ?_) ?_
    | with_reducible refine foldl4_evolves _ _ _ (fun _ _ _ => ?_) ?_
    | split
    | dsimp only
    | unfold Evolves; dsimp only
    | unfold Evolves

theorem execSmcRetrainNow_evolves {s0} (x0 x1 x2) (h : Evolves s0 x2) : OutEvolves s0 (execSmcRetrainNow x0 x1 x2) := by
  unfold execSmcRetrainNow
  repeat' first
    | with_reducible assumption
    | with_reducible apply outEvolves_next
    | with_reducible apply retrainPass_evolves
    | split
    | dsimp only
    | unfold Evolves; dsimp only
    | unfold Evolves

theorem execStackNoResponse_evolves {s0} (x0 x1) (h : Evolves s0 x1) : OutEvolves s0 (execStackNoResponse x0 x1) := by
  unfold execStackNoResponse
  repeat' first
    | with_reducible assumption
    | with_reducible apply outEvolves_next
    | with_reducible apply stackGone_evolves
    | with_reducible apply logRasStack_evolves
    | with_reducible apply setF_evolves
    | split
    | dsimp only
    | unfold Evolves; dsimp only
    | unfold Evolves

theorem execXbarCommit_evolves {s0} (x0) (h : Evolves s0 x0) : OutEvolves s0 (execXbarCommit x0) := by
  unfold execXbarCommit
  repeat' first
    | with_reducible assumption
    | with_reducible apply outEvolves_next
    | with_reducible apply commitXbar_evolves
    | split
    | dsimp only
    | unfold Evolves; dsimp only
    | unfold Evolves

theorem zmapReady_evolves {s0} (x0) (h : Evolves s0 x0) : Evolves s0 (zmapReady x0) := by
  unfold zmapReady
  repeat' first
    | with_reducible assumption
    | with_reducible apply setB_evolves
    | with_reducible apply zeroMemory_evolves
    | with_reducible apply resumeHeld_evolves
    | split
    | dsimp only
    | unfold Evolves; dsimp only
    | unfold Evolves

theorem execZmapReady_evolves {s0} (x0) (h : Evolves s0 x0) : OutEvolves s0 (execZmapReady x0) := by
  unfold execZmapReady
  repeat' first
    | with_reducible assumption
    | with_reducible apply outEvolves_next
    | with_reducible apply zmapReady_evolves
    | split
    | dsimp only
    | unfold Evolves; dsimp only
    | unfold Evolves

theorem scrubCe_evolves {s0} (x0 x1 x2) (h : Evolves s0 x0) : Evolves s0 (scrubCe x0 x1 x2) := by
  unfold scrubCe
  repeat' first
    | with_reducible assumption
    | with_reducible apply logCe_evolves
    | with_reducible apply bump_evolves
    | split
    | dsimp only
    | unfold Evolves; dsimp only
    | unfold Evolves

theorem scrubPoison_evolves {s0} (x0 x1) (h : Evolves s0 x0) : Evolves s0 (scrubPoison x0 x1) := by
  unfold scrubPoison
  repeat' first
    | with_reducible assumption
    | with_reducible apply uePoison_evolves
    | split
    | dsimp only
    | unfold Evolves; dsimp only
    | unfold Evolves

theorem scrubUe_evolves {s0} (x0 x1) (h : Evolves s0 x0) : Evolves s0 (scrubUe x0 x1).2 := by
  unfold scrubUe
  repeat' first
    | with_reducible assumption
    | with_reducible apply noteUe_evolves
    | with_reducible apply scrubPoison_evolves
    | with_reducible apply settleDeltas_evolves
    | with_reducible apply bump_evolves
    | with_reducible apply logRas_evolves
    | with_reducible apply putMeta_evolves
    | split
    | dsimp only
    | unfold Evolves; dsimp only
    | unfold Evolves

theorem copyCodeword_evolves {s0} (x0 x1) (h : Evolves s0 x0) : Evolves s0 (copyCodeword x0 x1) := by
  unfold copyCodeword
  repeat' first
    | with_reducible assumption
    | with_reducible apply putMeta_evolves
    | with_reducible apply scrubCe_evolves
    | with_reducible apply scrubUe_evolves
    | split
    | dsimp only
    | unfold Evolves; dsimp only
    | unfold Evolves

theorem endPass_evolves {s0} (x0 x1) (h : Evolves s0 x0) : Evolves s0 (endPass x0 x1) := by
  unfold endPass
  split
  · exact setF_evolves _ _ _ _ h
  · extract_lets began late s1 s2
    have k : Evolves s0 s1 := by
      refine bump_evolves _ _ _ _ ?_
      split
      · exact bumpSat_evolves _ _ _ _ h
      · exact id h
    clear_value s1
    exact setF_evolves _ _ _ _ (evolves_keep k)

theorem repairWrite_evolves {s0} (x0 x1 x2) (h : Evolves s0 x0) : Evolves s0 (repairWrite x0 x1 x2) := by
  unfold repairWrite
  repeat' first
    | with_reducible assumption
    | with_reducible apply bump_evolves
    | with_reducible apply putMeta_evolves
    | split
    | dsimp only
    | unfold Evolves; dsimp only
    | unfold Evolves

theorem writeRepairs_evolves {s0} (x0 x1) (h : Evolves s0 x0) : Evolves s0 (writeRepairs x0 x1) := by
  unfold writeRepairs
  repeat' first
    | with_reducible assumption
    | with_reducible apply repairWrite_evolves
    | with_reducible refine foldl_evolves _ _ _ (fun _ _ _ => ?_) ?_
    | with_reducible refine foldl2_evolves _ _ _ (fun _ _ _ => ?_) ?_
    | with_reducible refine foldl3_evolves _ _ _ (fun _ _ _ => ?_) ?_
    | with_reducible refine foldl4_evolves _ _ _ (fun _ _ _ => ?_) ?_
    | split
    | dsimp only
    | unfold Evolves; dsimp only
    | unfold Evolves

theorem mistralCodeword_evolves {s0} (x0 x1 x2) (h : Evolves s0 x0) : Evolves s0 (mistralCodeword x0 x1 x2) := by
  unfold mistralCodeword
  repeat' first
    | with_reducible assumption
    | with_reducible apply bump_evolves
    | with_reducible apply scrubCe_evolves
    | with_reducible apply scrubUe_evolves
    | split
    | dsimp only
    | unfold Evolves; dsimp only
    | unfold Evolves

theorem execMistralRead_evolves {s0} (x0 x1 x2 x3) (h : Evolves s0 x3) : OutEvolves s0 (execMistralRead x0 x1 x2 x3) := by
  unfold execMistralRead
  repeat' first
    | with_reducible assumption
    | with_reducible apply outEvolves_next
    | with_reducible apply attribOwn_evolves
    | with_reducible apply writeRepairs_evolves
    | with_reducible apply mistralCodeword_evolves
    | with_reducible apply endPass_evolves
    | split
    | dsimp only
    | unfold Evolves; dsimp only
    | unfold Evolves

theorem parRetire_evolves {s0} (x0 x1) (h : Evolves s0 x0) : Evolves s0 (parRetire x0 x1) := by
  unfold parRetire
  repeat' first
    | with_reducible assumption
    | with_reducible apply setF_evolves
    | with_reducible apply declareFailed_evolves
    | split
    | dsimp only
    | unfold Evolves; dsimp only
    | unfold Evolves

theorem execParRetire_evolves {s0} (x0 x1) (h : Evolves s0 x1) : OutEvolves s0 (execParRetire x0 x1) := by
  unfold execParRetire
  repeat' first
    | with_reducible assumption
    | with_reducible apply outEvolves_next
    | with_reducible apply parRetire_evolves
    | split
    | dsimp only
    | unfold Evolves; dsimp only
    | unfold Evolves

theorem execRebuildUnit_evolves {s0} (x0 x1) (h : Evolves s0 x1) : OutEvolves s0 (execRebuildUnit x0 x1) := by
  have k1 : ∀ p, Evolves s0 (settleDeltas x1 p) := fun p => settleDeltas_evolves _ _ h
  unfold execRebuildUnit
  split
  · exact id h
  rename_i st _
  dsimp only
  split
  · exact id h
  have k2 : ∀ p m, Evolves s0 (if canReconstruct (settleDeltas x1 p) p = true then
        putMeta (bump (settleDeltas x1 p) Reg.parRecon_count) (p / 64) m
      else logRas (poisonInPlace (bump (settleDeltas x1 p) Reg.parUnrecov_count) (p / 64)) 12 p) := by
    intro p m
    have k := k1 p
    generalize settleDeltas x1 p = s at k
    split
    · exact putMeta_evolves _ _ _ (bump_evolves _ _ _ _ k)
    · exact logRas_evolves _ _ _ (poisonInPlace_evolves _ _ (bump_evolves _ _ _ _ k))
  have k2 := k2 ((st * 32 + x0 % 32) * chanBytes + rebuildPtr x1 (x0 % 32))
    { metaAt (settleDeltas x1 ((st * 32 + x0 % 32) * chanBytes + rebuildPtr x1 (x0 % 32)))
        (((st * 32 + x0 % 32) * chanBytes + rebuildPtr x1 (x0 % 32)) / 64) with errs := [] }
  generalize (if canReconstruct (settleDeltas x1 _) _ = true then _ else _ : State) = s at k2 ⊢
  generalize rebuildPtr x1 (x0 % 32) + 64 = z
  have k4 : Evolves s0 (setF { s with ras := { s.ras with rebuilt := nput s.ras.rebuilt (x0 % 32) z } } Reg.parRebuild_frames_done
     (framesDone { s with ras := { s.ras with rebuilt := nput s.ras.rebuilt (x0 % 32) z } })) := setF_evolves _ _ _ _ (evolves_keep k2)
  generalize setF { s with ras := { s.ras with rebuilt := nput s.ras.rebuilt (x0 % 32) z } } Reg.parRebuild_frames_done
     (framesDone { s with ras := { s.ras with rebuilt := nput s.ras.rebuilt (x0 % 32) z } }) = s' at k4 ⊢
  split
  · exact outEvolves_next (logRasStack_evolves _ _ _ (setF_evolves _ _ _ _ (evolves_keep k4)))
  · exact id k4

theorem execRowRepair_evolves {s0} (x0 x1 x2 x3 x4 x5 x6) (h : Evolves s0 x6) : OutEvolves s0 (execRowRepair x0 x1 x2 x3 x4 x5 x6) := by
  unfold execRowRepair
  repeat' first
    | with_reducible assumption
    | with_reducible apply outEvolves_next
    | with_reducible apply logRas_evolves
    | with_reducible apply copyCodeword_evolves
    | with_reducible apply setB_evolves
    | with_reducible refine foldl_evolves _ _ _ (fun _ _ _ => ?_) ?_
    | with_reducible refine foldl2_evolves _ _ _ (fun _ _ _ => ?_) ?_
    | with_reducible refine foldl3_evolves _ _ _ (fun _ _ _ => ?_) ?_
    | with_reducible refine foldl4_evolves _ _ _ (fun _ _ _ => ?_) ?_
    | split
    | dsimp only
    | unfold Evolves; dsimp only
    | unfold Evolves

theorem scrubPlan_evolves {s0} (x0 : List Nat) (x1 x2 x3) (h : Evolves s0 x1) : Evolves s0 (scrubPlan x0 x1 x2 x3).2.2.2.2 := by
  induction x0 generalizing x1 x3 with
  | nil => exact id h
  | cons a as ih =>
    have k : Evolves s0 (xlate x1 x2 a .rd x3).2.2 := xlate_evolves _ _ _ _ _ h
    unfold scrubPlan
    dsimp only
    split
    · split
      · exact ih _ _ k
      · exact ih _ _ k
    · exact ih _ _ k
    · exact id k
    · split
      · exact ih _ _ k
      · exact id k

theorem scrubGuard_evolves {s0} (x0 x1 x2 x3 x4 x5) (h : Evolves s0 x0) : Evolves s0 (scrubGuard x0 x1 x2 x3 x4 x5).2 := by
  unfold scrubGuard
  repeat' first
    | with_reducible assumption
    | with_reducible apply yieldGran_evolves
    | with_reducible apply settleDeltas_evolves
    | with_reducible apply putMeta_evolves
    | with_reducible apply bump_evolves
    | with_reducible apply poisonInPlace_evolves
    | split
    | dsimp only
    | unfold Evolves; dsimp only
    | unfold Evolves

theorem scrubGran_evolves {s0} (x0 x1 x2 x3 x4 x5) (h : Evolves s0 x0) : Evolves s0 (scrubGran x0 x1 x2 x3 x4 x5).2 := by
  unfold scrubGran
  repeat' first
    | with_reducible assumption
    | with_reducible apply bump_evolves
    | with_reducible apply reconstruct_evolves
    | with_reducible apply poisonInPlace_evolves
    | with_reducible apply scrubGuard_evolves
    | with_reducible apply scrubCe_evolves
    | with_reducible apply repairWrite_evolves
    | with_reducible apply yieldGran_evolves
    | with_reducible apply scrubUe_evolves
    | split
    | dsimp only
    | unfold Evolves; dsimp only
    | unfold Evolves

theorem scrubEll_evolves {s0} (x0 x1 x2 x3 x4 x5 x6) (h : Evolves s0 x0) : Evolves s0 (scrubEll x0 x1 x2 x3 x4 x5 x6).2 := by
  unfold scrubEll
  extract_lets r
  have k : Evolves s0 r.2 := by
    refine foldl2_evolves _ _ _ (fun s i h => ?_) h
    extract_lets y at_
    split
    · split
      · exact id h
      · exact id h
    split
    · exact id h
    extract_lets q
    have kq : Evolves s0 q.2 := evolves_at2 (scrubGran_evolves _ _ _ _ _ _ h) rfl
    clear_value q
    split
    · split <;> exact id h
    · exact id kq
  clear_value r
  exact id k

theorem runScrub_evolves {s0} (x0 x1 x2 x3) (h : Evolves s0 x0) : Evolves s0 (runScrub x0 x1 x2 x3) := by
  unfold runScrub
  repeat' first
    | with_reducible assumption
    | with_reducible apply endDesc_evolves
    | with_reducible apply xlate_evolves
    | with_reducible apply attrib_evolves
    | with_reducible apply scrubPlan_evolves
    | with_reducible apply setBinds_evolves
    | with_reducible apply holdItem_evolves
    | with_reducible apply modDesc_evolves
    | with_reducible apply busyFin_evolves
    | with_reducible apply scrubEll_evolves
    | with_reducible apply issueAll_evolves
    | with_reducible apply descCheck_evolves
    | with_reducible refine foldl_evolves _ _ _ (fun _ _ _ => ?_) ?_
    | with_reducible refine foldl2_evolves _ _ _ (fun _ _ _ => ?_) ?_
    | with_reducible refine foldl3_evolves _ _ _ (fun _ _ _ => ?_) ?_
    | with_reducible refine foldl4_evolves _ _ _ (fun _ _ _ => ?_) ?_
    | split
    | dsimp only
    | unfold Evolves; dsimp only
    | unfold Evolves

theorem execScrubRange_evolves {s0} (x0 x1) (h : Evolves s0 x1) : OutEvolves s0 (execScrubRange x0 x1) := by
  unfold execScrubRange
  repeat' first
    | with_reducible assumption
    | with_reducible apply outEvolves_next
    | with_reducible apply opTake_evolves
    | with_reducible apply runScrub_evolves
    | split
    | dsimp only
    | unfold Evolves; dsimp only
    | unfold Evolves

theorem execUeLimitExceeded_evolves {s0} (x0 x1) (h : Evolves s0 x1) : OutEvolves s0 (execUeLimitExceeded x0 x1) := by
  unfold execUeLimitExceeded
  repeat' first
    | with_reducible assumption
    | with_reducible apply outEvolves_next
    | with_reducible apply declareFailed_evolves
    | split
    | dsimp only
    | unfold Evolves; dsimp only
    | unfold Evolves

theorem buildReport_evolves {s0} (x0 x1 x2) (h : Evolves s0 x0) : Evolves s0 (buildReport x0 x1 x2) := by
  unfold buildReport
  repeat' first
    | with_reducible assumption
    | split
    | dsimp only
    | unfold Evolves; dsimp only
    | unfold Evolves

theorem setEnc_evolves {s0} (x0 x1 x2) (h : Evolves s0 x0) : Evolves s0 (setEnc x0 x1 x2) := by
  unfold setEnc
  repeat' first
    | with_reducible assumption
    | with_reducible apply setF_evolves
    | split
    | dsimp only
    | unfold Evolves; dsimp only
    | unfold Evolves

theorem setVc_evolves {s0} (x0 x1 x2 x3) (h : Evolves s0 x0) : Evolves s0 (setVc x0 x1 x2 x3) := by
  unfold setVc
  repeat' first
    | with_reducible assumption
    | with_reducible apply setF_evolves
    | split
    | dsimp only
    | unfold Evolves; dsimp only
    | unfold Evolves

theorem fieldApply_evolves {s0} (x0 x1 x2 x3) (h : Evolves s0 x0) : Evolves s0 (fieldApply x0 x1 x2 x3) := by
  unfold fieldApply
  repeat' first
    | with_reducible assumption
    | with_reducible apply setF_evolves
    | with_reducible apply setEnc_evolves
    | with_reducible apply setVc_evolves
    | split
    | dsimp only
    | unfold Evolves; dsimp only
    | unfold Evolves

theorem flashErase_evolves {s0} (x0 x1 x2) (h : Evolves s0 x0) : Evolves s0 (flashErase x0 x1 x2) := by
  unfold flashErase
  repeat' first
    | with_reducible assumption
    | split
    | dsimp only
    | unfold Evolves; dsimp only
    | unfold Evolves

theorem flashWrite_evolves {s0} (x0 x1 x2) (h : Evolves s0 x0) : Evolves s0 (flashWrite x0 x1 x2) := by
  unfold flashWrite
  repeat' first
    | with_reducible assumption
    | with_reducible refine foldl_evolves _ _ _ (fun _ _ _ => ?_) ?_
    | with_reducible refine foldl2_evolves _ _ _ (fun _ _ _ => ?_) ?_
    | with_reducible refine foldl3_evolves _ _ _ (fun _ _ _ => ?_) ?_
    | with_reducible refine foldl4_evolves _ _ _ (fun _ _ _ => ?_) ?_
    | split
    | dsimp only
    | unfold Evolves; dsimp only
    | unfold Evolves

theorem readVaric_evolves {s0} (x0 x1) (h : Evolves s0 x0) : Evolves s0 (readVaric x0 x1).2 := by
  unfold readVaric
  repeat' first
    | with_reducible assumption
    | with_reducible apply setF_evolves
    | with_reducible apply buildReport_evolves
    | split
    | dsimp only
    | unfold Evolves; dsimp only
    | unfold Evolves

theorem writeHeader_evolves {s0} (x0 x1 x2) (h : Evolves s0 x0) : Evolves s0 (writeHeader x0 x1 x2) := by
  unfold writeHeader
  repeat' first
    | with_reducible assumption
    | with_reducible apply flashWrite_evolves
    | with_reducible apply flashErase_evolves
    | split
    | dsimp only
    | unfold Evolves; dsimp only
    | unfold Evolves

theorem bktResult_evolves {s0} (x0 x1 x2) (h : Evolves s0 x0) : Evolves s0 (bktResult x0 x1 x2) := by
  unfold bktResult
  repeat' first
    | with_reducible assumption
    | with_reducible apply setF_evolves
    | split
    | dsimp only
    | unfold Evolves; dsimp only
    | unfold Evolves

theorem bktRead_evolves {s0} (x0 x1) (h : Evolves s0 x0) : Evolves s0 (bktRead x0 x1) := by
  unfold bktRead
  repeat' first
    | with_reducible assumption
    | with_reducible apply bktResult_evolves
    | with_reducible apply setF_evolves
    | with_reducible apply setB_evolves
    | split
    | dsimp only
    | unfold Evolves; dsimp only
    | unfold Evolves

theorem bktWrite_evolves {s0} (x0 x1) (h : Evolves s0 x0) : Evolves s0 (bktWrite x0 x1) := by
  unfold bktWrite
  repeat' first
    | with_reducible assumption
    | with_reducible apply bktResult_evolves
    | with_reducible apply setBkt_evolves
    | split
    | dsimp only
    | unfold Evolves; dsimp only
    | unfold Evolves

theorem goTile_evolves {s0} (x0 x1 x2) (h : Evolves s0 x0) : Evolves s0 (goTile x0 x1 x2) := by
  unfold goTile
  repeat' first
    | with_reducible assumption
    | with_reducible apply descCheck_evolves
    | with_reducible apply sendBatches_evolves
    | with_reducible apply queueTile_evolves
    | split
    | dsimp only
    | unfold Evolves; dsimp only
    | unfold Evolves

theorem letGo_evolves {s0} (x0 x1) (h : Evolves s0 x0) : Evolves s0 (letGo x0 x1) := by
  unfold letGo
  repeat' first
    | with_reducible assumption
    | with_reducible apply translateReq_evolves
    | with_reducible apply doorApply_evolves
    | with_reducible apply releaseDesc_evolves
    | with_reducible apply goTile_evolves
    | with_reducible apply modRun_evolves
    | split
    | dsimp only
    | unfold Evolves; dsimp only
    | unfold Evolves

theorem decideAgain_evolves {s0} (x0 x1) (h : Evolves s0 x0) : Evolves s0 (decideAgain x0 x1) := by
  unfold decideAgain
  repeat' first
    | with_reducible assumption
    | with_reducible apply decideCharge_evolves
    | with_reducible apply redoWork_evolves
    | with_reducible apply countCls_evolves
    | with_reducible apply modDesc_evolves
    | with_reducible apply letGo_evolves
    | with_reducible apply holdWork_evolves
    | split
    | dsimp only
    | unfold Evolves; dsimp only
    | unfold Evolves

theorem execAdmBktRead_evolves {s0} (x0 x1) (h : Evolves s0 x1) : OutEvolves s0 (execAdmBktRead x0 x1) := by
  unfold execAdmBktRead
  repeat' first
    | with_reducible assumption
    | with_reducible apply outEvolves_next
    | with_reducible apply bktRead_evolves
    | split
    | dsimp only
    | unfold Evolves; dsimp only
    | unfold Evolves

theorem execAdmBktWrite_evolves {s0} (x0 x1 x2 x3 x4 x5 x6 x7) (h : Evolves s0 x7) : OutEvolves s0 (execAdmBktWrite x0 x1 x2 x3 x4 x5 x6 x7) := by
  unfold execAdmBktWrite
  repeat' first
    | with_reducible assumption
    | with_reducible apply outEvolves_next
    | with_reducible apply setF_evolves
    | with_reducible apply setB_evolves
    | with_reducible apply bktWrite_evolves
    | split
    | dsimp only
    | unfold Evolves; dsimp only
    | unfold Evolves

theorem execAdmRedecide_evolves {s0} (x0) (h : Evolves s0 x0) : OutEvolves s0 (execAdmRedecide x0) := by
  unfold execAdmRedecide
  repeat' first
    | with_reducible assumption
    | with_reducible apply outEvolves_next
    | with_reducible apply decideAgain_evolves
    | with_reducible apply advance_evolves
    | with_reducible refine foldl_evolves _ _ _ (fun _ _ _ => ?_) ?_
    | with_reducible refine foldl2_evolves _ _ _ (fun _ _ _ => ?_) ?_
    | with_reducible refine foldl3_evolves _ _ _ (fun _ _ _ => ?_) ?_
    | with_reducible refine foldl4_evolves _ _ _ (fun _ _ _ => ?_) ?_
    | split
    | dsimp only
    | unfold Evolves; dsimp only
    | unfold Evolves

theorem execAdmRelease_evolves {s0} (x0) (h : Evolves s0 x0) : OutEvolves s0 (execAdmRelease x0) := by
  unfold execAdmRelease
  repeat' first
    | with_reducible assumption
    | with_reducible apply outEvolves_next
    | with_reducible apply holdView_evolves
    | with_reducible apply advance_evolves
    | with_reducible apply letGo_evolves
    | with_reducible refine foldl_evolves _ _ _ (fun _ _ _ => ?_) ?_
    | with_reducible refine foldl2_evolves _ _ _ (fun _ _ _ => ?_) ?_
    | with_reducible refine foldl3_evolves _ _ _ (fun _ _ _ => ?_) ?_
    | with_reducible refine foldl4_evolves _ _ _ (fun _ _ _ => ?_) ?_
    | split
    | dsimp only
    | unfold Evolves; dsimp only
    | unfold Evolves

theorem execFathomUpdate_evolves {s0} (x0 x1) (h : Evolves s0 x1) : OutEvolves s0 (execFathomUpdate x0 x1) := by
  unfold execFathomUpdate
  repeat' first
    | with_reducible assumption
    | with_reducible apply outEvolves_next
    | with_reducible apply setF_evolves
    | with_reducible refine foldl_evolves _ _ _ (fun _ _ _ => ?_) ?_
    | with_reducible refine foldl2_evolves _ _ _ (fun _ _ _ => ?_) ?_
    | with_reducible refine foldl3_evolves _ _ _ (fun _ _ _ => ?_) ?_
    | with_reducible refine foldl4_evolves _ _ _ (fun _ _ _ => ?_) ?_
    | split
    | dsimp only
    | unfold Evolves; dsimp only
    | unfold Evolves

theorem secView_evolves {s0} (x0) (h : Evolves s0 x0) : Evolves s0 (secView x0) := by
  unfold secView
  repeat' first
    | with_reducible assumption
    | with_reducible apply setB_evolves
    | with_reducible apply setF_evolves
    | split
    | dsimp only
    | unfold Evolves; dsimp only
    | unfold Evolves

theorem xmssReserve_evolves {s0} (x0 x1) (h : Evolves s0 x0) : Evolves s0 (xmssReserve x0 x1).2 := by
  unfold xmssReserve
  extract_lets new fu s1 a b older seq r sc s2
  have k1 : Evolves s0 s1 := evolves_floor h _
  have k2 : Evolves s0 s2 := evolves_keep k1
  clear_value s2
  split
  · exact secView_evolves _ (logSec_evolves _ _ _ _ k2)
  · exact secView_evolves _ (evolves_keep k2)

theorem xmssSign_evolves {s0} (x0 x1 x2) (h : Evolves s0 x0) : Evolves s0 (xmssSign x0 x1 x2).2 := by
  unfold xmssSign
  repeat' first
    | with_reducible assumption
    | with_reducible apply xmssReserve_evolves
    | with_reducible apply secView_evolves
    | split
    | dsimp only
    | unfold Evolves; dsimp only
    | unfold Evolves

theorem attestReport_evolves {s0} (x0 x1 x2 x3) (h : Evolves s0 x0) : Evolves s0 (attestReport x0 x1 x2 x3).2 := by
  unfold attestReport
  repeat' first
    | with_reducible assumption
    | with_reducible apply xmssSign_evolves
    | split
    | dsimp only
    | unfold Evolves; dsimp only
    | unfold Evolves

theorem linkView_evolves {s0} (x0 x1) (h : Evolves s0 x0) : Evolves s0 (linkView x0 x1) := by
  unfold linkView
  repeat' first
    | with_reducible assumption
    | with_reducible apply setB_evolves
    | with_reducible apply setF_evolves
    | split
    | dsimp only
    | unfold Evolves; dsimp only
    | unfold Evolves

theorem dropKeys_evolves {s0} (x0 x1) (h : Evolves s0 x0) : Evolves s0 (dropKeys x0 x1) := by
  unfold dropKeys
  repeat' first
    | with_reducible assumption
    | with_reducible apply linkView_evolves
    | split
    | dsimp only
    | unfold Evolves; dsimp only
    | unfold Evolves

theorem eraseGran_evolves {s0} (x0 x1) (h : Evolves s0 x0) : Evolves s0 (eraseGran x0 x1) := by
  unfold eraseGran
  repeat' first
    | with_reducible assumption
    | with_reducible apply cancelRepair_evolves
    | with_reducible apply materialise_evolves
    | with_reducible apply putMeta_evolves
    | with_reducible apply putBytes_evolves
    | split
    | dsimp only
    | unfold Evolves; dsimp only
    | unfold Evolves

theorem eraseEll_evolves {s0} (x0 x1 x2) (h : Evolves s0 x0) : Evolves s0 (eraseEll x0 x1 x2) := by
  unfold eraseEll
  repeat' first
    | with_reducible assumption
    | with_reducible apply eraseGran_evolves
    | with_reducible apply setZbit_evolves
    | with_reducible refine foldl_evolves _ _ _ (fun _ _ _ => ?_) ?_
    | with_reducible refine foldl2_evolves _ _ _ (fun _ _ _ => ?_) ?_
    | with_reducible refine foldl3_evolves _ _ _ (fun _ _ _ => ?_) ?_
    | with_reducible refine foldl4_evolves _ _ _ (fun _ _ _ => ?_) ?_
    | split
    | dsimp only
    | unfold Evolves; dsimp only
    | unfold Evolves

theorem kcmd_evolves {s0} (x0 x1 x2 x3 x4) (h : Evolves s0 x0) : Evolves s0 (kcmd x0 x1 x2 x3 x4) := by
  unfold kcmd
  repeat' first
    | with_reducible assumption
    | with_reducible apply setF_evolves
    | split
    | dsimp only
    | unfold Evolves; dsimp only
    | unfold Evolves

theorem eraseRange_evolves {s0} (x0 x1 x2 x3 x4 x5) (h : Evolves s0 x0) : Evolves s0 (eraseRange x0 x1 x2 x3 x4 x5) := by
  unfold eraseRange
  repeat' first
    | with_reducible assumption
    | with_reducible apply kcmd_evolves
    | with_reducible apply setF_evolves
    | split
    | dsimp only
    | unfold Evolves; dsimp only
    | unfold Evolves

theorem execDebugGrant_evolves {s0} (x0 x1) (h : Evolves s0 x1) : OutEvolves s0 (execDebugGrant x0 x1) := by
  unfold execDebugGrant
  repeat' first
    | with_reducible assumption
    | with_reducible apply outEvolves_next
    | with_reducible apply logSec_evolves
    | with_reducible apply secView_evolves
    | with_reducible apply setB_evolves
    | split
    | dsimp only
    | unfold Evolves; dsimp only
    | unfold Evolves

theorem secDone_evolves {s0} (x0 x1 x2 x3) (h : Evolves s0 x0) : Evolves s0 (secDone x0 x1 x2 x3) := by
  unfold secDone
  repeat' first
    | with_reducible assumption
    | with_reducible apply ringPush_evolves
    | split
    | dsimp only
    | unfold Evolves; dsimp only
    | unfold Evolves

theorem execEraseComplete_evolves {s0} (x0 x1) (h : Evolves s0 x1) : OutEvolves s0 (execEraseComplete x0 x1) := by
  unfold execEraseComplete
  repeat' first
    | with_reducible assumption
    | with_reducible apply outEvolves_next
    | with_reducible apply eraseEll_evolves
    | with_reducible apply secDone_evolves
    | with_reducible refine foldl_evolves _ _ _ (fun _ _ _ => ?_) ?_
    | with_reducible refine foldl2_evolves _ _ _ (fun _ _ _ => ?_) ?_
    | with_reducible refine foldl3_evolves _ _ _ (fun _ _ _ => ?_) ?_
    | with_reducible refine foldl4_evolves _ _ _ (fun _ _ _ => ?_) ?_
    | split
    | dsimp only
    | unfold Evolves; dsimp only
    | unfold Evolves

theorem execEraseRange_evolves {s0} (x0 x1 x2 x3 x4 x5) (h : Evolves s0 x5) : OutEvolves s0 (execEraseRange x0 x1 x2 x3 x4 x5) := by
  unfold execEraseRange
  repeat' first
    | with_reducible assumption
    | with_reducible apply outEvolves_next
    | with_reducible apply eraseRange_evolves
    | split
    | dsimp only
    | unfold Evolves; dsimp only
    | unfold Evolves

theorem execIdentityReady_evolves {s0} (x0) (h : Evolves s0 x0) : OutEvolves s0 (execIdentityReady x0) := by
  unfold execIdentityReady
  repeat' first
    | with_reducible assumption
    | with_reducible apply outEvolves_next
    | with_reducible apply setB_evolves
    | split
    | dsimp only
    | unfold Evolves; dsimp only
    | unfold Evolves

theorem pairSet_evolves {s0} (x0 x1 x2) (h : Evolves s0 x0) : Evolves s0 (pairSet x0 x1 x2) := by
  unfold pairSet
  repeat' first
    | with_reducible assumption
    | with_reducible apply kcmd_evolves
    | with_reducible apply setF_evolves
    | with_reducible apply secDone_evolves
    | with_reducible apply linkView_evolves
    | with_reducible refine foldl_evolves _ _ _ (fun _ _ _ => ?_) ?_
    | with_reducible refine foldl2_evolves _ _ _ (fun _ _ _ => ?_) ?_
    | with_reducible refine foldl3_evolves _ _ _ (fun _ _ _ => ?_) ?_
    | with_reducible refine foldl4_evolves _ _ _ (fun _ _ _ => ?_) ?_
    | split
    | dsimp only
    | unfold Evolves; dsimp only
    | unfold Evolves

theorem execPairSet_evolves {s0} (x0 x1 x2) (h : Evolves s0 x2) : OutEvolves s0 (execPairSet x0 x1 x2) := by
  unfold execPairSet
  repeat' first
    | with_reducible assumption
    | with_reducible apply outEvolves_next
    | with_reducible apply pairSet_evolves
    | split
    | dsimp only
    | unfold Evolves; dsimp only
    | unfold Evolves

theorem execSpdmGetCapabilities_evolves {s0} (x0) (h : Evolves s0 x0) : OutEvolves s0 (execSpdmGetCapabilities x0) := by
  unfold execSpdmGetCapabilities
  repeat' first
    | with_reducible assumption
    | with_reducible apply outEvolves_next
    | with_reducible apply emit_evolves
    | split
    | dsimp only
    | unfold Evolves; dsimp only
    | unfold Evolves

theorem execSpdmGetMeasurements_evolves {s0} (x0 x1 x2 x3) (h : Evolves s0 x3) : OutEvolves s0 (execSpdmGetMeasurements x0 x1 x2 x3) := by
  unfold execSpdmGetMeasurements
  repeat' first
    | with_reducible assumption
    | with_reducible apply outEvolves_next
    | with_reducible apply emit_evolves
    | with_reducible apply attestReport_evolves
    | split
    | dsimp only
    | unfold Evolves; dsimp only
    | unfold Evolves

theorem execSpdmGetVersion_evolves {s0} (x0) (h : Evolves s0 x0) : OutEvolves s0 (execSpdmGetVersion x0) := by
  unfold execSpdmGetVersion
  repeat' first
    | with_reducible assumption
    | with_reducible apply outEvolves_next
    | with_reducible apply emit_evolves
    | split
    | dsimp only
    | unfold Evolves; dsimp only
    | unfold Evolves

theorem execSpdmNegotiateAlgorithms_evolves {s0} (x0) (h : Evolves s0 x0) : OutEvolves s0 (execSpdmNegotiateAlgorithms x0) := by
  unfold execSpdmNegotiateAlgorithms
  repeat' first
    | with_reducible assumption
    | with_reducible apply outEvolves_next
    | with_reducible apply emit_evolves
    | split
    | dsimp only
    | unfold Evolves; dsimp only
    | unfold Evolves

theorem execTrngHealthFail_evolves {s0} (x0) (h : Evolves s0 x0) : OutEvolves s0 (execTrngHealthFail x0) := by
  unfold execTrngHealthFail
  repeat' first
    | with_reducible assumption
    | with_reducible apply outEvolves_next
    | with_reducible apply secView_evolves
    | with_reducible apply logSec_evolves
    | with_reducible apply setB_evolves
    | split
    | dsimp only
    | unfold Evolves; dsimp only
    | unfold Evolves

theorem xmssStart_evolves {s0} (x0) (h : Evolves s0 x0) : Evolves s0 (xmssStart x0) := by
  unfold xmssStart
  repeat' first
    | with_reducible assumption
    | with_reducible apply secView_evolves
    | split
    | dsimp only
    | unfold Evolves; dsimp only
    | unfold Evolves

end Sys2Proof.Machine
end

