-- ==== Sys2Proof/Laws/EvolveLink.lean ====
section
/-!
SUPPORT. Laws/EvolveLink.lean: one lemma for each operation that answers a state, over the router, the links, the domains, the host interface and power:
what Evolves says of a machine holds after it too.
-/
namespace Sys2Proof.Machine
open Sys2Proof

theorem setOut_evolves {s0} (x0 x1 x2) (h : Evolves s0 x0) : Evolves s0 (setOut x0 x1 x2) := by
  unfold setOut
  repeat' first
    | with_reducible assumption
    | split
    | dsimp only
    | unfold Evolves; dsimp only
    | unfold Evolves

theorem setIn_evolves {s0} (x0 x1 x2) (h : Evolves s0 x0) : Evolves s0 (setIn x0 x1 x2) := by
  unfold setIn
  repeat' first
    | with_reducible assumption
    | split
    | dsimp only
    | unfold Evolves; dsimp only
    | unfold Evolves

theorem modPort_evolves {s0} (x0 x1 x2) (h : Evolves s0 x0) : Evolves s0 (modPort x0 x1 x2) := by
  unfold modPort
  repeat' first
    | with_reducible assumption
    | split
    | dsimp only
    | unfold Evolves; dsimp only
    | unfold Evolves

theorem updXoff_evolves {s0} (x0 x1) (h : Evolves s0 x0) : Evolves s0 (updXoff x0 x1) := by
  unfold updXoff
  repeat' first
    | with_reducible assumption
    | with_reducible apply modPort_evolves
    | with_reducible refine foldl_evolves _ _ _ (fun _ _ _ => ?_) ?_
    | with_reducible refine foldl2_evolves _ _ _ (fun _ _ _ => ?_) ?_
    | with_reducible refine foldl3_evolves _ _ _ (fun _ _ _ => ?_) ?_
    | with_reducible refine foldl4_evolves _ _ _ (fun _ _ _ => ?_) ?_
    | split
    | dsimp only
    | unfold Evolves; dsimp only
    | unfold Evolves

theorem passHead_evolves {s0} (x0 x1 x2) (h : Evolves s0 x0) : Evolves s0 (passHead x0 x1 x2) := by
  unfold passHead
  repeat' first
    | with_reducible assumption
    | with_reducible apply setOut_evolves
    | with_reducible apply setIn_evolves
    | with_reducible apply bump_evolves
    | with_reducible apply updXoff_evolves
    | split
    | dsimp only
    | unfold Evolves; dsimp only
    | unfold Evolves

theorem allocate_evolves {s0} (x0 x1) (h : Evolves s0 x0) : Evolves s0 (allocate x0 x1) := by
  unfold allocate
  repeat' first
    | with_reducible assumption
    | with_reducible apply passHead_evolves
    | split
    | dsimp only
    | unfold Evolves; dsimp only
    | unfold Evolves

theorem allocAll_evolves {s0} (x0 x1) (h : Evolves s0 x1) : Evolves s0 (allocAll x0 x1) := by
  induction x0 generalizing x1 with
  | zero => exact id h
  | succ n ih =>
    unfold allocAll
    split
    · exact id h
    · exact ih _ (foldl_evolves _ _ _ (fun s a h => allocate_evolves s a h) h)

theorem commitRouter_evolves {s0} (x0) (h : Evolves s0 x0) : Evolves s0 (commitRouter x0) := by
  unfold commitRouter
  repeat' first
    | with_reducible assumption
    | with_reducible apply commitTable_evolves
    | split
    | dsimp only
    | unfold Evolves; dsimp only
    | unfold Evolves

theorem removePkt_evolves {s0} (x0 x1) (h : Evolves s0 x0) : Evolves s0 (removePkt x0 x1) := by
  unfold removePkt
  repeat' first
    | with_reducible assumption
    | with_reducible refine foldl_evolves _ _ _ (fun _ _ _ => ?_) ?_
    | with_reducible refine foldl2_evolves _ _ _ (fun _ _ _ => ?_) ?_
    | with_reducible refine foldl3_evolves _ _ _ (fun _ _ _ => ?_) ?_
    | with_reducible refine foldl4_evolves _ _ _ (fun _ _ _ => ?_) ?_
    | split
    | dsimp only
    | unfold Evolves; dsimp only
    | unfold Evolves

theorem routerSettle_evolves {s0} (x0) (h : Evolves s0 x0) : Evolves s0 (routerSettle x0) := by
  unfold routerSettle
  repeat' first
    | with_reducible assumption
    | with_reducible apply allocAll_evolves
    | split
    | dsimp only
    | unfold Evolves; dsimp only
    | unfold Evolves

theorem dropPkt_evolves {s0} (x0 x1) (h : Evolves s0 x0) : Evolves s0 (dropPkt x0 x1) := by
  unfold dropPkt
  repeat' first
    | with_reducible assumption
    | with_reducible apply bump_evolves
    | with_reducible apply removePkt_evolves
    | with_reducible apply routerSettle_evolves
    | with_reducible apply updXoff_evolves
    | split
    | dsimp only
    | unfold Evolves; dsimp only
    | unfold Evolves

theorem edgePkt_evolves {s0} (x0 x1 x2) (h : Evolves s0 x0) : Evolves s0 (edgePkt x0 x1 x2).2 := by
  unfold edgePkt
  repeat' first
    | with_reducible assumption
    | with_reducible apply bump_evolves
    | with_reducible apply entryJob_evolves
    | split
    | dsimp only
    | unfold Evolves; dsimp only
    | unfold Evolves

theorem enterPkt_evolves {s0} (x0 x1 x2) (h : Evolves s0 x0) : Evolves s0 (enterPkt x0 x1 x2).2 := by
  unfold enterPkt
  repeat' first
    | with_reducible assumption
    | with_reducible apply updXoff_evolves
    | with_reducible apply setIn_evolves
    | split
    | dsimp only
    | unfold Evolves; dsimp only
    | unfold Evolves

theorem epochAck_evolves {s0} (x0 x1 x2 x3) (h : Evolves s0 x0) : Evolves s0 (epochAck x0 x1 x2 x3) := by
  unfold epochAck
  repeat' first
    | with_reducible assumption
    | with_reducible apply inject_evolves
    | split
    | dsimp only
    | unfold Evolves; dsimp only
    | unfold Evolves

theorem setHalf_evolves {s0} (x0 x1 x2) (h : Evolves s0 x0) : Evolves s0 (setHalf x0 x1 x2) := by
  unfold setHalf
  repeat' first
    | with_reducible assumption
    | with_reducible apply setF_evolves
    | split
    | dsimp only
    | unfold Evolves; dsimp only
    | unfold Evolves

theorem execEpochFlip_evolves {s0} (x0 x1 x2) (h : Evolves s0 x2) : OutEvolves s0 (execEpochFlip x0 x1 x2) := by
  unfold execEpochFlip
  repeat' first
    | with_reducible assumption
    | with_reducible apply outEvolves_next
    | with_reducible apply arrives_evolves
    | with_reducible apply epochAck_evolves
    | with_reducible apply setHalf_evolves
    | with_reducible apply setB_evolves
    | split
    | dsimp only
    | unfold Evolves; dsimp only
    | unfold Evolves

theorem execEpochRetire_evolves {s0} (x0) (h : Evolves s0 x0) : OutEvolves s0 (execEpochRetire x0) := by
  unfold execEpochRetire
  repeat' first
    | with_reducible assumption
    | with_reducible apply outEvolves_next
    | with_reducible apply advance_evolves
    | with_reducible apply setHalf_evolves
    | with_reducible apply epochAck_evolves
    | split
    | dsimp only
    | unfold Evolves; dsimp only
    | unfold Evolves

theorem execHeaderHoldTimeout_evolves {s0} (x0 x1) (h : Evolves s0 x1) : OutEvolves s0 (execHeaderHoldTimeout x0 x1) := by
  unfold execHeaderHoldTimeout
  repeat' first
    | with_reducible assumption
    | with_reducible apply outEvolves_next
    | with_reducible apply dropPkt_evolves
    | with_reducible apply advance_evolves
    | split
    | dsimp only
    | unfold Evolves; dsimp only
    | unfold Evolves

theorem modPkt_evolves {s0} (x0 x1 x2) (h : Evolves s0 x0) : Evolves s0 (modPkt x0 x1 x2) := by
  unfold modPkt
  repeat' first
    | with_reducible assumption
    | split
    | dsimp only
    | unfold Evolves; dsimp only
    | unfold Evolves

theorem routePkt_evolves {s0} (x0 x1) (h : Evolves s0 x0) : Evolves s0 (routePkt x0 x1) := by
  unfold routePkt
  repeat' first
    | with_reducible assumption
    | with_reducible apply dropPkt_evolves
    | with_reducible apply routerSettle_evolves
    | with_reducible apply updXoff_evolves
    | with_reducible apply bump_evolves
    | with_reducible apply removePkt_evolves
    | with_reducible apply edgePkt_evolves
    | with_reducible apply modPkt_evolves
    | split
    | dsimp only
    | unfold Evolves; dsimp only
    | unfold Evolves

theorem execPacketHeaderArrival_evolves {s0} (x0 x1 x2) (h : Evolves s0 x2) : OutEvolves s0 (execPacketHeaderArrival x0 x1 x2) := by
  unfold execPacketHeaderArrival
  repeat' first
    | with_reducible assumption
    | with_reducible apply outEvolves_next
    | with_reducible apply routePkt_evolves
    | with_reducible apply enterPkt_evolves
    | split
    | dsimp only
    | unfold Evolves; dsimp only
    | unfold Evolves

theorem tblWrite_evolves {s0} (x0 x1) (h : Evolves s0 x0) : Evolves s0 (tblWrite x0 x1) := by
  unfold tblWrite
  repeat' first
    | with_reducible assumption
    | with_reducible apply setB_evolves
    | split
    | dsimp only
    | unfold Evolves; dsimp only
    | unfold Evolves

theorem execRouteTableWrite_evolves {s0} (x0 x1 x2 x3) (h : Evolves s0 x3) : OutEvolves s0 (execRouteTableWrite x0 x1 x2 x3) := by
  unfold execRouteTableWrite
  repeat' first
    | with_reducible assumption
    | with_reducible apply outEvolves_next
    | with_reducible apply tblWrite_evolves
    | with_reducible apply setF_evolves
    | with_reducible apply setB_evolves
    | split
    | dsimp only
    | unfold Evolves; dsimp only
    | unfold Evolves

theorem execRouterCommit_evolves {s0} (x0) (h : Evolves s0 x0) : OutEvolves s0 (execRouterCommit x0) := by
  unfold execRouterCommit
  repeat' first
    | with_reducible assumption
    | with_reducible apply outEvolves_next
    | with_reducible apply commitRouter_evolves
    | split
    | dsimp only
    | unfold Evolves; dsimp only
    | unfold Evolves

theorem sinkAborted_evolves {s0} (x0 x1) (h : Evolves s0 x0) : Evolves s0 (sinkAborted x0 x1) := by
  unfold sinkAborted
  repeat' first
    | with_reducible assumption
    | with_reducible apply removePkt_evolves
    | split
    | dsimp only
    | unfold Evolves; dsimp only
    | unfold Evolves

theorem abortPkt_evolves {s0} (x0 x1) (h : Evolves s0 x0) : Evolves s0 (abortPkt x0 x1) := by
  unfold abortPkt
  repeat' first
    | with_reducible assumption
    | with_reducible apply sinkAborted_evolves
    | with_reducible apply modPkt_evolves
    | split
    | dsimp only
    | unfold Evolves; dsimp only
    | unfold Evolves

theorem abortPort_evolves {s0} (x0 x1) (h : Evolves s0 x0) : Evolves s0 (abortPort x0 x1) := by
  unfold abortPort
  repeat' first
    | with_reducible assumption
    | with_reducible apply bump_evolves
    | with_reducible apply abortPkt_evolves
    | with_reducible apply routerSettle_evolves
    | with_reducible apply removePkt_evolves
    | with_reducible apply dropPkt_evolves
    | with_reducible refine foldl_evolves _ _ _ (fun _ _ _ => ?_) ?_
    | with_reducible refine foldl2_evolves _ _ _ (fun _ _ _ => ?_) ?_
    | with_reducible refine foldl3_evolves _ _ _ (fun _ _ _ => ?_) ?_
    | with_reducible refine foldl4_evolves _ _ _ (fun _ _ _ => ?_) ?_
    | split
    | dsimp only
    | unfold Evolves; dsimp only
    | unfold Evolves

theorem queueLctl_evolves {s0} (x0 x1 x2 x3) (h : Evolves s0 x0) : Evolves s0 (queueLctl x0 x1 x2 x3) := by
  unfold queueLctl
  repeat' first
    | with_reducible assumption
    | with_reducible apply modPort_evolves
    | split
    | dsimp only
    | unfold Evolves; dsimp only
    | unfold Evolves

theorem askReplay_evolves {s0} (x0 x1) (h : Evolves s0 x0) : Evolves s0 (askReplay x0 x1) := by
  unfold askReplay
  repeat' first
    | with_reducible assumption
    | with_reducible apply queueLctl_evolves
    | with_reducible apply modPort_evolves
    | split
    | dsimp only
    | unfold Evolves; dsimp only
    | unfold Evolves

theorem beginRekey_evolves {s0} (x0 x1) (h : Evolves s0 x0) : Evolves s0 (beginRekey x0 x1) := by
  unfold beginRekey
  repeat' first
    | with_reducible assumption
    | with_reducible apply modPort_evolves
    | split
    | dsimp only
    | unfold Evolves; dsimp only
    | unfold Evolves

theorem putFrame_evolves {s0} (x0 x1 x2 x3) (h : Evolves s0 x0) : Evolves s0 (putFrame x0 x1 x2 x3) := by
  unfold putFrame
  repeat' first
    | with_reducible assumption
    | with_reducible apply modPort_evolves
    | split
    | dsimp only
    | unfold Evolves; dsimp only
    | unfold Evolves

theorem logFpt_evolves {s0} (x0 x1 x2 x3) (h : Evolves s0 x0) : Evolves s0 (logFpt x0 x1 x2 x3) := by
  unfold logFpt
  repeat' first
    | with_reducible assumption
    | with_reducible apply logErr_evolves
    | split
    | dsimp only
    | unfold Evolves; dsimp only
    | unfold Evolves

theorem startRetrain_evolves {s0} (x0 x1) (h : Evolves s0 x0) : Evolves s0 (startRetrain x0 x1) := by
  unfold startRetrain
  repeat' first
    | with_reducible assumption
    | with_reducible apply putFrame_evolves
    | with_reducible apply setF_evolves
    | with_reducible apply logFpt_evolves
    | with_reducible apply modPort_evolves
    | split
    | dsimp only
    | unfold Evolves; dsimp only
    | unfold Evolves

theorem beginReplay_evolves {s0} (x0 x1 x2) (h : Evolves s0 x0) : Evolves s0 (beginReplay x0 x1 x2) := by
  unfold beginReplay
  repeat' first
    | with_reducible assumption
    | with_reducible apply bump_evolves
    | with_reducible apply modPort_evolves
    | with_reducible apply setB_evolves
    | with_reducible apply startRetrain_evolves
    | split
    | dsimp only
    | unfold Evolves; dsimp only
    | unfold Evolves

theorem freeFrames_evolves {s0} (x0 x1 x2) (h : Evolves s0 x0) : Evolves s0 (freeFrames x0 x1 x2) := by
  unfold freeFrames
  repeat' first
    | with_reducible assumption
    | with_reducible apply modPort_evolves
    | with_reducible apply setB_evolves
    | split
    | dsimp only
    | unfold Evolves; dsimp only
    | unfold Evolves

theorem guardErr_evolves {s0} (x0 x1) (h : Evolves s0 x0) : Evolves s0 (guardErr x0 x1) := by
  unfold guardErr
  repeat' first
    | with_reducible assumption
    | with_reducible apply inject_evolves
    | split
    | dsimp only
    | unfold Evolves; dsimp only
    | unfold Evolves

theorem linkDown_evolves {s0} (x0 x1 x2) (h : Evolves s0 x0) : Evolves s0 (linkDown x0 x1 x2) := by
  unfold linkDown
  repeat' first
    | with_reducible assumption
    | with_reducible apply setF_evolves
    | with_reducible apply bumpSat_evolves
    | with_reducible apply setB_evolves
    | with_reducible apply abortPort_evolves
    | with_reducible apply dropKeys_evolves
    | with_reducible apply modPort_evolves
    | with_reducible apply updXoff_evolves
    | with_reducible apply logFpt_evolves
    | split
    | dsimp only
    | unfold Evolves; dsimp only
    | unfold Evolves

theorem noteRtt_evolves {s0} (x0 x1 x2) (h : Evolves s0 x0) : Evolves s0 (noteRtt x0 x1 x2) := by
  unfold noteRtt
  repeat' first
    | with_reducible assumption
    | with_reducible apply modPort_evolves
    | with_reducible apply setF_evolves
    | with_reducible apply setB_evolves
    | with_reducible apply logFpt_evolves
    | with_reducible refine foldl_evolves _ _ _ (fun _ _ _ => ?_) ?_
    | with_reducible refine foldl2_evolves _ _ _ (fun _ _ _ => ?_) ?_
    | with_reducible refine foldl3_evolves _ _ _ (fun _ _ _ => ?_) ?_
    | with_reducible refine foldl4_evolves _ _ _ (fun _ _ _ => ?_) ?_
    | split
    | dsimp only
    | unfold Evolves; dsimp only
    | unfold Evolves

theorem takeAck_evolves {s0} (x0 x1 x2) (h : Evolves s0 x0) : Evolves s0 (takeAck x0 x1 x2) := by
  unfold takeAck
  repeat' first
    | with_reducible assumption
    | with_reducible apply freeFrames_evolves
    | with_reducible apply bump_evolves
    | with_reducible apply evolves_free
    | split
    | dsimp only
    | unfold Evolves; dsimp only
    | unfold Evolves

theorem takeEcho_evolves {s0} (x0 x1 x2) (h : Evolves s0 x0) : Evolves s0 (takeEcho x0 x1 x2) := by
  unfold takeEcho
  repeat' first
    | with_reducible assumption
    | with_reducible apply noteRtt_evolves
    | split
    | dsimp only
    | unfold Evolves; dsimp only
    | unfold Evolves

theorem takeFlit_evolves {s0} (x0 x1 x2) (h : Evolves s0 x0) : Evolves s0 (takeFlit x0 x1 x2) := by
  have hp : ∀ s (p : Nat), Evolves s0 s → Evolves s0 (abortPkt s p) := fun s p h => abortPkt_evolves _ _ h
  have hm : ∀ s (p : Nat) f, Evolves s0 s → Evolves s0 (modPort s p f) := fun s p f h => modPort_evolves _ _ _ h
  unfold takeFlit
  split
  · exact hm _ _ _ (enterPkt_evolves _ _ _ h)
  split
  · split
    · exact id h
    extract_lets g good old s1 s2 s3 full
    have k1 : Evolves s0 s1 := by
      unfold s1
      split
      · exact id h
      split
      · exact modPkt_evolves _ _ _ h
      · exact id h
    clear_value s1
    have k2 : Evolves s0 s2 := by
      unfold s2
      split
      · split
        · exact guardErr_evolves _ _ k1
        · exact id k1
      · exact id k1
    clear_value s2
    have k3 : Evolves s0 s3 := by
      unfold s3
      split
      · exact id k1
      · exact hp _ _ k2
    clear_value s3 full
    split
    · exact hm _ _ _ k3
    · exact id k3
  · exact id h

theorem takeReplayReq_evolves {s0} (x0 x1 x2) (h : Evolves s0 x0) : Evolves s0 (takeReplayReq x0 x1 x2) := by
  unfold takeReplayReq
  repeat' first
    | with_reducible assumption
    | with_reducible apply bump_evolves
    | with_reducible apply freeFrames_evolves
    | with_reducible apply beginReplay_evolves
    | with_reducible apply evolves_free
    | split
    | dsimp only
    | unfold Evolves; dsimp only
    | unfold Evolves

theorem takeLctl_evolves {s0} (x0 x1 x2) (h : Evolves s0 x0) : Evolves s0 (takeLctl x0 x1 x2) := by
  unfold takeLctl
  repeat' first
    | with_reducible assumption
    | with_reducible apply takeReplayReq_evolves
    | with_reducible apply startRetrain_evolves
    | with_reducible apply queueLctl_evolves
    | with_reducible apply takeEcho_evolves
    | split
    | dsimp only
    | unfold Evolves; dsimp only
    | unfold Evolves

theorem deliver_evolves {s0} (x0 x1 x2) (h : Evolves s0 x0) : Evolves s0 (deliver x0 x1 x2) := by
  unfold deliver
  repeat' first
    | with_reducible assumption
    | with_reducible apply updXoff_evolves
    | with_reducible apply takeFlit_evolves
    | with_reducible refine foldl_evolves _ _ _ (fun _ _ _ => ?_) ?_
    | with_reducible refine foldl2_evolves _ _ _ (fun _ _ _ => ?_) ?_
    | with_reducible refine foldl3_evolves _ _ _ (fun _ _ _ => ?_) ?_
    | with_reducible refine foldl4_evolves _ _ _ (fun _ _ _ => ?_) ?_
    | split
    | dsimp only
    | unfold Evolves; dsimp only
    | unfold Evolves

theorem tagFail_evolves {s0} (x0 x1 x2) (h : Evolves s0 x0) : Evolves s0 (tagFail x0 x1 x2) := by
  unfold tagFail
  repeat' first
    | with_reducible assumption
    | with_reducible apply bump_evolves
    | with_reducible apply modPort_evolves
    | with_reducible apply linkDown_evolves
    | with_reducible apply logFpt_evolves
    | split
    | dsimp only
    | unfold Evolves; dsimp only
    | unfold Evolves

theorem closeSegment_evolves {s0} (x0 x1 x2 x3) (h : Evolves s0 x0) : Evolves s0 (closeSegment x0 x1 x2 x3) := by
  unfold closeSegment
  repeat' first
    | with_reducible assumption
    | with_reducible apply tagFail_evolves
    | with_reducible apply modPort_evolves
    | with_reducible apply deliver_evolves
    | split
    | dsimp only
    | unfold Evolves; dsimp only
    | unfold Evolves

theorem acceptFrame_evolves {s0} (x0 x1 x2) (h : Evolves s0 x0) : Evolves s0 (acceptFrame x0 x1 x2) := by
  unfold acceptFrame
  repeat' first
    | with_reducible assumption
    | with_reducible apply modPort_evolves
    | with_reducible apply askReplay_evolves
    | with_reducible apply bump_evolves
    | with_reducible apply deliver_evolves
    | with_reducible apply closeSegment_evolves
    | with_reducible apply updXoff_evolves
    | split
    | dsimp only
    | unfold Evolves; dsimp only
    | unfold Evolves

theorem runLanes_evolves {s0 s t : State} {p a b : Nat} (h : Evolves s0 s) (e : runLanes s p a b = some t) : Evolves s0 t := by
  unfold runLanes at e
  extract_lets rx tx al rs ts r4 t4 s1 at e
  have k1 : Evolves s0 s1 := setF_evolves _ _ _ _ (setF_evolves _ _ _ _ h)
  clear_value s1
  split at e
  · rename_i x y _ _
    extract_lets s2 s3 s4 s5 s6 at e
    have k3 : Evolves s0 s3 := setB_evolves _ _ _ _ (setF_evolves _ _ _ _ (setB_evolves _ _ _ _ (setF_evolves _ _ _ _ k1)))
    clear_value s3
    have k4 : Evolves s0 s4 := by
      show Evolves s0 (if _ then _ else _)
      split
      · exact logFpt_evolves _ _ _ _ k3
      · exact k3
    clear_value s4
    have k5 : Evolves s0 s5 := by
      show Evolves s0 (if _ then _ else _)
      split
      · exact logFpt_evolves _ _ _ _ k4
      · exact k4
    clear_value s5
    have k6 : Evolves s0 s6 := by
      show Evolves s0 (if _ then _ else _)
      split
      · exact logFpt_evolves _ _ _ _ k5
      · exact k5
    clear_value s6
    cases e
    split
    · exact logFpt_evolves _ _ _ _ k6
    · exact k6
  · cases e
theorem newInstance_evolves {s0} (x0 x1 x2) (h : Evolves s0 x0) : Evolves s0 (newInstance x0 x1 x2) := by
  have hl : ∀ {s a b t}, runLanes s x1 a b = some t → Evolves s0 s → Evolves s0 t := fun e h => runLanes_evolves h e
  unfold newInstance
  split
  · exact linkDown_evolves _ _ _ (logFpt_evolves _ _ _ _ h)
  extract_lets both secret s
  have k : Evolves s0 s := by
    show Evolves s0 (if _ then _ else _)
    split
    · exact logSec_evolves _ _ _ _ h
    · exact id h
  clear_value s secret
  split
  · exact linkDown_evolves _ _ _ (logFpt_evolves _ _ _ _ k)
  split
  · exact linkDown_evolves _ _ _ k
  · rename_i t e
    have k := hl e k
    have kb := freshBytes_evolves 32 t k
    generalize freshBytes 32 t = b at kb
    extract_lets s1 nonce peer s2 s3 s4 sc s5 s6
    have k4 : Evolves s0 s4 := setF_evolves _ _ _ _ (setB_evolves _ _ _ _ (setB_evolves _ _ _ _ (setB_evolves _ _ _ _ (setF_evolves _ _ _ _ (setF_evolves _ _ _ _ kb)))))
    clear_value s4
    have k5 : Evolves s0 s5 := by
      unfold s5
      cases secret with
      | none => exact id k4
      | some k => exact evolves_keep k4
    clear_value s5
    exact logFpt_evolves _ _ _ _ (noteRtt_evolves _ _ _ (linkView_evolves _ _ (modPort_evolves _ _ _ k5)))

theorem configEnd_evolves {s0} (x0 x1 x2) (h : Evolves s0 x0) : Evolves s0 (configEnd x0 x1 x2) := by
  unfold configEnd
  repeat' first
    | with_reducible assumption
    | with_reducible apply newInstance_evolves
    | with_reducible apply modPort_evolves
    | split
    | dsimp only
    | unfold Evolves; dsimp only
    | unfold Evolves

theorem creditRetrain_evolves {s0} (x0 x1) (h : Evolves s0 x0) : Evolves s0 (creditRetrain x0 x1) := by
  unfold creditRetrain
  repeat' first
    | with_reducible assumption
    | with_reducible apply modPkt_evolves
    | with_reducible refine foldl_evolves _ _ _ (fun _ _ _ => ?_) ?_
    | with_reducible refine foldl2_evolves _ _ _ (fun _ _ _ => ?_) ?_
    | with_reducible refine foldl3_evolves _ _ _ (fun _ _ _ => ?_) ?_
    | with_reducible refine foldl4_evolves _ _ _ (fun _ _ _ => ?_) ?_
    | split
    | dsimp only
    | unfold Evolves; dsimp only
    | unfold Evolves

theorem dataFlitOf_evolves {s0} (x0 x1 x2 x3) (h : Evolves s0 x0) : Evolves s0 (dataFlitOf x0 x1 x2 x3).2 := by
  unfold dataFlitOf
  repeat' first
    | with_reducible assumption
    | with_reducible apply freshBytes_evolves
    | split
    | dsimp only
    | unfold Evolves; dsimp only
    | unfold Evolves

theorem execAutoUpTimer_evolves {s0} (x0 x1) (h : Evolves s0 x1) : OutEvolves s0 (execAutoUpTimer x0 x1) := by
  unfold execAutoUpTimer
  repeat' first
    | with_reducible assumption
    | with_reducible apply outEvolves_next
    | with_reducible apply advance_evolves
    | with_reducible apply modPort_evolves
    | with_reducible apply setF_evolves
    | split
    | dsimp only
    | unfold Evolves; dsimp only
    | unfold Evolves

theorem execConfigDone_evolves {s0} (x0 x1 x2) (h : Evolves s0 x2) : OutEvolves s0 (execConfigDone x0 x1 x2) := by
  unfold execConfigDone
  repeat' first
    | with_reducible assumption
    | with_reducible apply outEvolves_next
    | with_reducible apply configEnd_evolves
    | split
    | dsimp only
    | unfold Evolves; dsimp only
    | unfold Evolves

theorem execDetectSignal_evolves {s0} (x0 x1) (h : Evolves s0 x1) : OutEvolves s0 (execDetectSignal x0 x1) := by
  unfold execDetectSignal
  repeat' first
    | with_reducible assumption
    | with_reducible apply outEvolves_next
    | with_reducible apply setF_evolves
    | with_reducible apply setB_evolves
    | with_reducible apply modPort_evolves
    | split
    | dsimp only
    | unfold Evolves; dsimp only
    | unfold Evolves

theorem execFrameReceive_evolves {s0} (x0 x1 x2 x3 x4) (h : Evolves s0 x4) : OutEvolves s0 (execFrameReceive x0 x1 x2 x3 x4) := by
  unfold execFrameReceive
  repeat' first
    | with_reducible assumption
    | with_reducible apply outEvolves_next
    | with_reducible apply bump_evolves
    | with_reducible apply askReplay_evolves
    | with_reducible apply takeAck_evolves
    | with_reducible apply modPort_evolves
    | with_reducible apply takeLctl_evolves
    | with_reducible apply acceptFrame_evolves
    | with_reducible refine foldl_evolves _ _ _ (fun _ _ _ => ?_) ?_
    | with_reducible refine foldl2_evolves _ _ _ (fun _ _ _ => ?_) ?_
    | with_reducible refine foldl3_evolves _ _ _ (fun _ _ _ => ?_) ?_
    | with_reducible refine foldl4_evolves _ _ _ (fun _ _ _ => ?_) ?_
    | split
    | dsimp only
    | unfold Evolves; dsimp only
    | unfold Evolves

theorem sendReplay_evolves {s0} (x0 x1 x2 x3) (h : Evolves s0 x0) : Evolves s0 (sendReplay x0 x1 x2 x3) := by
  unfold sendReplay
  repeat' first
    | with_reducible assumption
    | with_reducible apply setB_evolves
    | with_reducible apply modPort_evolves
    | with_reducible apply putFrame_evolves
    | split
    | dsimp only
    | unfold Evolves; dsimp only
    | unfold Evolves

theorem takeNext_evolves {s0} (x0 x1 x2) (h : Evolves s0 x0) : Evolves s0 (takeNext x0 x1 x2).2 := by
  unfold takeNext
  repeat' first
    | with_reducible assumption
    | with_reducible apply guardErr_evolves
    | with_reducible apply modPkt_evolves
    | with_reducible apply dataFlitOf_evolves
    | with_reducible apply bump_evolves
    | with_reducible apply routerSettle_evolves
    | with_reducible apply removePkt_evolves
    | split
    | dsimp only
    | unfold Evolves; dsimp only
    | unfold Evolves

theorem pickFlit_evolves {s0} (x0 x1 x2) (h : Evolves s0 x0) : Evolves s0 (pickFlit x0 x1 x2).2 := by
  unfold pickFlit
  repeat' first
    | with_reducible assumption
    | with_reducible apply takeNext_evolves
    | with_reducible apply bump_evolves
    | split
    | dsimp only
    | unfold Evolves; dsimp only
    | unfold Evolves

theorem gather_evolves {s0} (x0 : Nat) (x1 x2 x3) (h : Evolves s0 x1) : Evolves s0 (gather x0 x1 x2 x3).2.2 := by
  induction x0 generalizing x1 x3 with
  | zero => exact id h
  | succ n ih =>
    have k : Evolves s0 (pickFlit x1 x2 x3).2 := pickFlit_evolves _ _ _ h
    unfold gather
    dsimp only
    split
    · exact id k
    · exact ih _ _ k

theorem sendSeq_evolves {s0} (x0 x1 x2 x3) (h : Evolves s0 x0) : Evolves s0 (sendSeq x0 x1 x2 x3) := by
  unfold sendSeq
  repeat' first
    | with_reducible assumption
    | with_reducible apply bump_evolves
    | with_reducible apply modPort_evolves
    | with_reducible apply putFrame_evolves
    | split
    | dsimp only
    | unfold Evolves; dsimp only
    | unfold Evolves

theorem sendEnc_evolves {s0} (x0 x1 x2 x3) (h : Evolves s0 x0) : Evolves s0 (sendEnc x0 x1 x2 x3) := by
  unfold sendEnc
  repeat' first
    | with_reducible assumption
    | with_reducible apply sendSeq_evolves
    | with_reducible apply modPort_evolves
    | split
    | dsimp only
    | unfold Evolves; dsimp only
    | unfold Evolves

theorem sendNew_evolves {s0} (x0 x1) (h : Evolves s0 x0) : Evolves s0 (sendNew x0 x1) := by
  unfold sendNew
  repeat' first
    | with_reducible assumption
    | with_reducible apply putFrame_evolves
    | with_reducible apply gather_evolves
    | with_reducible apply sendEnc_evolves
    | with_reducible apply sendSeq_evolves
    | split
    | dsimp only
    | unfold Evolves; dsimp only
    | unfold Evolves

theorem execFrameTransmit_evolves {s0} (x0 x1) (h : Evolves s0 x1) : OutEvolves s0 (execFrameTransmit x0 x1) := by
  unfold execFrameTransmit
  repeat' first
    | with_reducible assumption
    | with_reducible apply outEvolves_next
    | with_reducible apply updXoff_evolves
    | with_reducible apply putFrame_evolves
    | with_reducible apply modPort_evolves
    | with_reducible apply sendReplay_evolves
    | with_reducible apply sendNew_evolves
    | split
    | dsimp only
    | unfold Evolves; dsimp only
    | unfold Evolves

theorem execKeyPhaseSwitch_evolves {s0} (x0 x1) (h : Evolves s0 x1) : OutEvolves s0 (execKeyPhaseSwitch x0 x1) := by
  unfold execKeyPhaseSwitch
  repeat' first
    | with_reducible assumption
    | with_reducible apply outEvolves_next
    | with_reducible apply setB_evolves
    | with_reducible apply linkView_evolves
    | with_reducible apply modPort_evolves
    | split
    | dsimp only
    | unfold Evolves; dsimp only
    | unfold Evolves

theorem execLaneErrorLimit_evolves {s0} (x0 x1 x2) (h : Evolves s0 x2) : OutEvolves s0 (execLaneErrorLimit x0 x1 x2) := by
  unfold execLaneErrorLimit
  repeat' first
    | with_reducible assumption
    | with_reducible apply outEvolves_next
    | with_reducible apply startRetrain_evolves
    | with_reducible apply setF_evolves
    | split
    | dsimp only
    | unfold Evolves; dsimp only
    | unfold Evolves

theorem linkRekey_evolves {s0} (x0 x1 x2) (h : Evolves s0 x0) : Evolves s0 (linkRekey x0 x1 x2) := by
  unfold linkRekey
  repeat' first
    | with_reducible assumption
    | with_reducible apply kcmd_evolves
    | with_reducible apply secDone_evolves
    | with_reducible apply beginRekey_evolves
    | split
    | dsimp only
    | unfold Evolves; dsimp only
    | unfold Evolves

theorem execLinkRekey_evolves {s0} (x0 x1 x2) (h : Evolves s0 x2) : OutEvolves s0 (execLinkRekey x0 x1 x2) := by
  unfold execLinkRekey
  repeat' first
    | with_reducible assumption
    | with_reducible apply outEvolves_next
    | with_reducible apply linkRekey_evolves
    | split
    | dsimp only
    | unfold Evolves; dsimp only
    | unfold Evolves

theorem execLossOfSignal_evolves {s0} (x0 x1 x2) (h : Evolves s0 x2) : OutEvolves s0 (execLossOfSignal x0 x1 x2) := by
  unfold execLossOfSignal
  repeat' first
    | with_reducible assumption
    | with_reducible apply outEvolves_next
    | with_reducible apply startRetrain_evolves
    | split
    | dsimp only
    | unfold Evolves; dsimp only
    | unfold Evolves

theorem portDisable_evolves {s0} (x0 x1) (h : Evolves s0 x0) : Evolves s0 (portDisable x0 x1) := by
  unfold portDisable
  repeat' first
    | with_reducible assumption
    | with_reducible apply setB_evolves
    | with_reducible apply linkDown_evolves
    | split
    | dsimp only
    | unfold Evolves; dsimp only
    | unfold Evolves

theorem execPortDisable_evolves {s0} (x0 x1) (h : Evolves s0 x1) : OutEvolves s0 (execPortDisable x0 x1) := by
  unfold execPortDisable
  repeat' first
    | with_reducible assumption
    | with_reducible apply outEvolves_next
    | with_reducible apply portDisable_evolves
    | split
    | dsimp only
    | unfold Evolves; dsimp only
    | unfold Evolves

theorem portEnable_evolves {s0} (x0 x1) (h : Evolves s0 x0) : Evolves s0 (portEnable x0 x1) := by
  unfold portEnable
  repeat' first
    | with_reducible assumption
    | with_reducible apply setB_evolves
    | with_reducible apply modPort_evolves
    | with_reducible apply setF_evolves
    | split
    | dsimp only
    | unfold Evolves; dsimp only
    | unfold Evolves

theorem execPortEnable_evolves {s0} (x0 x1) (h : Evolves s0 x1) : OutEvolves s0 (execPortEnable x0 x1) := by
  unfold execPortEnable
  repeat' first
    | with_reducible assumption
    | with_reducible apply outEvolves_next
    | with_reducible apply portEnable_evolves
    | split
    | dsimp only
    | unfold Evolves; dsimp only
    | unfold Evolves

theorem portRetrain_evolves {s0} (x0 x1) (h : Evolves s0 x0) : Evolves s0 (portRetrain x0 x1) := by
  unfold portRetrain
  repeat' first
    | with_reducible assumption
    | with_reducible apply startRetrain_evolves
    | with_reducible apply setB_evolves
    | split
    | dsimp only
    | unfold Evolves; dsimp only
    | unfold Evolves

theorem execPortRetrain_evolves {s0} (x0 x1) (h : Evolves s0 x1) : OutEvolves s0 (execPortRetrain x0 x1) := by
  unfold execPortRetrain
  repeat' first
    | with_reducible assumption
    | with_reducible apply outEvolves_next
    | with_reducible apply portRetrain_evolves
    | split
    | dsimp only
    | unfold Evolves; dsimp only
    | unfold Evolves

theorem execRekeyTimer_evolves {s0} (x0 x1) (h : Evolves s0 x1) : OutEvolves s0 (execRekeyTimer x0 x1) := by
  unfold execRekeyTimer
  repeat' first
    | with_reducible assumption
    | with_reducible apply outEvolves_next
    | with_reducible apply beginRekey_evolves
    | with_reducible apply advance_evolves
    | split
    | dsimp only
    | unfold Evolves; dsimp only
    | unfold Evolves

theorem execReplayReq_evolves {s0} (x0 x1 x2) (h : Evolves s0 x2) : OutEvolves s0 (execReplayReq x0 x1 x2) := by
  unfold execReplayReq
  repeat' first
    | with_reducible assumption
    | with_reducible apply outEvolves_next
    | with_reducible apply takeReplayReq_evolves
    | split
    | dsimp only
    | unfold Evolves; dsimp only
    | unfold Evolves

theorem execReplayReqResendTimeout_evolves {s0} (x0 x1) (h : Evolves s0 x1) : OutEvolves s0 (execReplayReqResendTimeout x0 x1) := by
  unfold execReplayReqResendTimeout
  repeat' first
    | with_reducible assumption
    | with_reducible apply outEvolves_next
    | with_reducible apply modPort_evolves
    | with_reducible apply advance_evolves
    | split
    | dsimp only
    | unfold Evolves; dsimp only
    | unfold Evolves

theorem execReplayTimeout_evolves {s0} (x0 x1) (h : Evolves s0 x1) : OutEvolves s0 (execReplayTimeout x0 x1) := by
  unfold execReplayTimeout
  repeat' first
    | with_reducible assumption
    | with_reducible apply outEvolves_next
    | with_reducible apply advance_evolves
    | with_reducible apply beginReplay_evolves
    | with_reducible apply modPort_evolves
    | split
    | dsimp only
    | unfold Evolves; dsimp only
    | unfold Evolves

theorem execRetrainDone_evolves {s0} (x0 x1 x2) (h : Evolves s0 x2) : OutEvolves s0 (execRetrainDone x0 x1 x2) := by
  have hl : ∀ {s a b t}, runLanes s x0 a b = some t → Evolves s0 s → Evolves s0 t := fun e h => runLanes_evolves h e
  unfold execRetrainDone
  split
  · exact id h
  extract_lets q d same
  split
  · exact linkDown_evolves _ _ _ (logFpt_evolves _ _ _ _ h)
  split
  · exact linkDown_evolves _ _ _ (logFpt_evolves _ _ _ _ h)
  split
  · exact linkDown_evolves _ _ _ h
  · rename_i t e
    have k := hl e h
    clear_value d
    extract_lets s1 s2 s3 s4 s5 s6
    have k1 : Evolves s0 s1 := creditRetrain_evolves _ _ k
    clear_value s1
    have k3 : Evolves s0 s3 := freeFrames_evolves _ _ _ (setB_evolves _ _ _ _ (setF_evolves _ _ _ _ k1))
    clear_value s3
    have k4 : Evolves s0 s4 := modPort_evolves _ _ _ k3
    clear_value s4
    have k6 : Evolves s0 s6 := noteRtt_evolves _ _ _ (setB_evolves _ _ _ _ (logFpt_evolves _ _ _ _ k4))
    clear_value s6
    refine outEvolves_next ?_
    split
    · exact id k6
    · exact beginReplay_evolves _ _ _ k6

theorem execRetrainReq_evolves {s0} (x0 x1) (h : Evolves s0 x1) : OutEvolves s0 (execRetrainReq x0 x1) := by
  unfold execRetrainReq
  repeat' first
    | with_reducible assumption
    | with_reducible apply outEvolves_next
    | with_reducible apply startRetrain_evolves
    | split
    | dsimp only
    | unfold Evolves; dsimp only
    | unfold Evolves

theorem execRetrainTimeout_evolves {s0} (x0 x1) (h : Evolves s0 x1) : OutEvolves s0 (execRetrainTimeout x0 x1) := by
  unfold execRetrainTimeout
  repeat' first
    | with_reducible assumption
    | with_reducible apply outEvolves_next
    | with_reducible apply advance_evolves
    | with_reducible apply linkDown_evolves
    | with_reducible apply creditRetrain_evolves
    | split
    | dsimp only
    | unfold Evolves; dsimp only
    | unfold Evolves

theorem execRttEcho_evolves {s0} (x0 x1 x2) (h : Evolves s0 x2) : OutEvolves s0 (execRttEcho x0 x1 x2) := by
  unfold execRttEcho
  repeat' first
    | with_reducible assumption
    | with_reducible apply outEvolves_next
    | with_reducible apply takeEcho_evolves
    | split
    | dsimp only
    | unfold Evolves; dsimp only
    | unfold Evolves

theorem execRttProbe_evolves {s0} (x0 x1 x2) (h : Evolves s0 x2) : OutEvolves s0 (execRttProbe x0 x1 x2) := by
  unfold execRttProbe
  repeat' first
    | with_reducible assumption
    | with_reducible apply outEvolves_next
    | with_reducible apply queueLctl_evolves
    | split
    | dsimp only
    | unfold Evolves; dsimp only
    | unfold Evolves

theorem execRttProbeTimer_evolves {s0} (x0 x1) (h : Evolves s0 x1) : OutEvolves s0 (execRttProbeTimer x0 x1) := by
  unfold execRttProbeTimer
  repeat' first
    | with_reducible assumption
    | with_reducible apply outEvolves_next
    | with_reducible apply queueLctl_evolves
    | split
    | dsimp only
    | unfold Evolves; dsimp only
    | unfold Evolves

theorem execTrainDone_evolves {s0} (x0 x1 x2) (h : Evolves s0 x2) : OutEvolves s0 (execTrainDone x0 x1 x2) := by
  unfold execTrainDone
  repeat' first
    | with_reducible assumption
    | with_reducible apply outEvolves_next
    | with_reducible apply modPort_evolves
    | with_reducible apply setF_evolves
    | split
    | dsimp only
    | unfold Evolves; dsimp only
    | unfold Evolves

theorem execTrngHealthPass_evolves {s0} (x0) (h : Evolves s0 x0) : OutEvolves s0 (execTrngHealthPass x0) := by
  unfold execTrngHealthPass
  repeat' first
    | with_reducible assumption
    | with_reducible apply outEvolves_next
    | with_reducible apply secView_evolves
    | with_reducible apply setB_evolves
    | with_reducible apply configEnd_evolves
    | with_reducible refine foldl_evolves _ _ _ (fun _ _ _ => ?_) ?_
    | with_reducible refine foldl2_evolves _ _ _ (fun _ _ _ => ?_) ?_
    | with_reducible refine foldl3_evolves _ _ _ (fun _ _ _ => ?_) ?_
    | with_reducible refine foldl4_evolves _ _ _ (fun _ _ _ => ?_) ?_
    | split
    | dsimp only
    | unfold Evolves; dsimp only
    | unfold Evolves

theorem logHif_evolves {s0} (x0 x1 x2) (h : Evolves s0 x0) : Evolves s0 (logHif x0 x1 x2) := by
  unfold logHif
  repeat' first
    | with_reducible assumption
    | with_reducible apply logErr_evolves
    | split
    | dsimp only
    | unfold Evolves; dsimp only
    | unfold Evolves

theorem logMgt_evolves {s0} (x0 x1 x2 x3) (h : Evolves s0 x0) : Evolves s0 (logMgt x0 x1 x2 x3) := by
  unfold logMgt
  repeat' first
    | with_reducible assumption
    | with_reducible apply logErr_evolves
    | split
    | dsimp only
    | unfold Evolves; dsimp only
    | unfold Evolves

theorem recordAccess_evolves {s0} (x0 x1 x2 x3) (h : Evolves s0 x0) : Evolves s0 (recordAccess x0 x1 x2 x3) := by
  unfold recordAccess
  repeat' first
    | with_reducible assumption
    | with_reducible apply logErr_evolves
    | with_reducible apply setB_evolves
    | with_reducible apply setF_evolves
    | split
    | dsimp only
    | unfold Evolves; dsimp only
    | unfold Evolves

theorem setPd_evolves {s0} (x0 x1 x2) (h : Evolves s0 x0) : Evolves s0 (setPd x0 x1 x2) := by
  unfold setPd
  repeat' first
    | with_reducible assumption
    | with_reducible apply setF_evolves
    | split
    | dsimp only
    | unfold Evolves; dsimp only
    | unfold Evolves

theorem rspIrq_evolves {s0} (x0) (h : Evolves s0 x0) : Evolves s0 (rspIrq x0) := by
  unfold rspIrq
  repeat' first
    | with_reducible assumption
    | with_reducible apply emit_evolves
    | split
    | dsimp only
    | unfold Evolves; dsimp only
    | unfold Evolves

theorem fifoFill_evolves {s0} (x0) (h : Evolves s0 x0) : Evolves s0 (fifoFill x0) := by
  unfold fifoFill
  repeat' first
    | with_reducible assumption
    | with_reducible apply rspIrq_evolves
    | split
    | dsimp only
    | unfold Evolves; dsimp only
    | unfold Evolves

theorem answer_evolves {s0} (x0 x1 x2 x3 x4) (h : Evolves s0 x0) : Evolves s0 (answer x0 x1 x2 x3 x4) := by
  unfold answer
  repeat' first
    | with_reducible assumption
    | with_reducible apply fifoFill_evolves
    | with_reducible apply emit_evolves
    | split
    | dsimp only
    | unfold Evolves; dsimp only
    | unfold Evolves

theorem setHostCfg_evolves {s0} (x0 x1) (h : Evolves s0 x0) : Evolves s0 (setHostCfg x0 x1) := by
  unfold setHostCfg
  repeat' first
    | with_reducible assumption
    | split
    | dsimp only
    | unfold Evolves; dsimp only
    | unfold Evolves

theorem dropResponses_evolves {s0} (x0) (h : Evolves s0 x0) : Evolves s0 (dropResponses x0) := by
  unfold dropResponses
  repeat' first
    | with_reducible assumption
    | split
    | dsimp only
    | unfold Evolves; dsimp only
    | unfold Evolves

theorem dlDown_evolves {s0} (x0) (h : Evolves s0 x0) : Evolves s0 (dlDown x0) := by
  unfold dlDown
  repeat' first
    | with_reducible assumption
    | with_reducible apply setHostCfg_evolves
    | with_reducible apply setB_evolves
    | with_reducible apply setF_evolves
    | with_reducible apply bumpSat_evolves
    | with_reducible apply atsFail_evolves
    | with_reducible apply hostFail_evolves
    | with_reducible apply logHif_evolves
    | with_reducible apply dropResponses_evolves
    | with_reducible refine foldl_evolves _ _ _ (fun _ _ _ => ?_) ?_
    | with_reducible refine foldl2_evolves _ _ _ (fun _ _ _ => ?_) ?_
    | with_reducible refine foldl3_evolves _ _ _ (fun _ _ _ => ?_) ?_
    | with_reducible refine foldl4_evolves _ _ _ (fun _ _ _ => ?_) ?_
    | split
    | dsimp only
    | unfold Evolves; dsimp only
    | unfold Evolves

theorem execBlockUnavailableTimeout_evolves {s0} (x0 x1 x2 x3) (h : Evolves s0 x3) : OutEvolves s0 (execBlockUnavailableTimeout x0 x1 x2 x3) := by
  unfold execBlockUnavailableTimeout
  repeat' first
    | with_reducible assumption
    | with_reducible apply outEvolves_next
    | with_reducible apply recordAccess_evolves
    | with_reducible apply emit_evolves
    | split
    | dsimp only
    | unfold Evolves; dsimp only
    | unfold Evolves

theorem execD3hotTransition_evolves {s0} (x0 x1 x2) (h : Evolves s0 x2) : OutEvolves s0 (execD3hotTransition x0 x1 x2) := by
  unfold execD3hotTransition
  repeat' first
    | with_reducible assumption
    | with_reducible apply outEvolves_next
    | split
    | dsimp only
    | unfold Evolves; dsimp only
    | unfold Evolves

theorem withdrawHost_evolves {s0} (x0 x1) (h : Evolves s0 x0) : Evolves s0 (withdrawHost x0 x1) := by
  unfold withdrawHost
  repeat' first
    | with_reducible assumption
    | with_reducible refine foldl_evolves _ _ _ (fun _ _ _ => ?_) ?_
    | with_reducible refine foldl2_evolves _ _ _ (fun _ _ _ => ?_) ?_
    | with_reducible refine foldl3_evolves _ _ _ (fun _ _ _ => ?_) ?_
    | with_reducible refine foldl4_evolves _ _ _ (fun _ _ _ => ?_) ?_
    | split
    | dsimp only
    | unfold Evolves; dsimp only
    | unfold Evolves

theorem resetFn_evolves {s0} (x0 x1) (h : Evolves s0 x0) : Evolves s0 (resetFn x0 x1) := by
  unfold resetFn
  repeat' first
    | with_reducible assumption
    | with_reducible apply abortQueue_evolves
    | with_reducible apply withdrawHost_evolves
    | with_reducible apply atsFail_evolves
    | with_reducible apply setHostCfg_evolves
    | with_reducible apply logHif_evolves
    | with_reducible refine foldl_evolves _ _ _ (fun _ _ _ => ?_) ?_
    | with_reducible refine foldl2_evolves _ _ _ (fun _ _ _ => ?_) ?_
    | with_reducible refine foldl3_evolves _ _ _ (fun _ _ _ => ?_) ?_
    | with_reducible refine foldl4_evolves _ _ _ (fun _ _ _ => ?_) ?_
    | split
    | dsimp only
    | unfold Evolves; dsimp only
    | unfold Evolves

theorem keepVfs_evolves {s0} (x0 x1) (h : Evolves s0 x0) : Evolves s0 (keepVfs x0 x1) := by
  unfold keepVfs
  repeat' first
    | with_reducible assumption
    | with_reducible apply resetFn_evolves
    | with_reducible refine foldl_evolves _ _ _ (fun _ _ _ => ?_) ?_
    | with_reducible refine foldl2_evolves _ _ _ (fun _ _ _ => ?_) ?_
    | with_reducible refine foldl3_evolves _ _ _ (fun _ _ _ => ?_) ?_
    | with_reducible refine foldl4_evolves _ _ _ (fun _ _ _ => ?_) ?_
    | split
    | dsimp only
    | unfold Evolves; dsimp only
    | unfold Evolves

theorem execFunctionLevelReset_evolves {s0} (x0 x1) (h : Evolves s0 x1) : OutEvolves s0 (execFunctionLevelReset x0 x1) := by
  unfold execFunctionLevelReset
  repeat' first
    | with_reducible assumption
    | with_reducible apply outEvolves_next
    | with_reducible apply dropResponses_evolves
    | with_reducible apply resetFn_evolves
    | with_reducible apply keepVfs_evolves
    | split
    | dsimp only
    | unfold Evolves; dsimp only
    | unfold Evolves

theorem mbxPop_evolves {s0} (x0) (h : Evolves s0 x0) : Evolves s0 (mbxPop x0) := by
  unfold mbxPop
  repeat' first
    | with_reducible assumption
    | with_reducible apply fifoFill_evolves
    | split
    | dsimp only
    | unfold Evolves; dsimp only
    | unfold Evolves

theorem execHifMbxPop_evolves {s0} (x0) (h : Evolves s0 x0) : OutEvolves s0 (execHifMbxPop x0) := by
  unfold execHifMbxPop
  repeat' first
    | with_reducible assumption
    | with_reducible apply outEvolves_next
    | with_reducible apply mbxPop_evolves
    | split
    | dsimp only
    | unfold Evolves; dsimp only
    | unfold Evolves

theorem mbxEnqueue_evolves {s0} (x0 x1 x2) (h : Evolves s0 x0) : Evolves s0 (mbxEnqueue x0 x1 x2) := by
  unfold mbxEnqueue
  repeat' first
    | with_reducible assumption
    | split
    | dsimp only
    | unfold Evolves; dsimp only
    | unfold Evolves

theorem mbxSubmit_evolves {s0} (x0) (h : Evolves s0 x0) : Evolves s0 (mbxSubmit x0) := by
  unfold mbxSubmit
  repeat' first
    | with_reducible assumption
    | with_reducible apply setF_evolves
    | with_reducible apply logHif_evolves
    | with_reducible apply mbxEnqueue_evolves
    | split
    | dsimp only
    | unfold Evolves; dsimp only
    | unfold Evolves

theorem execHifMbxSubmit_evolves {s0} (x0 x1) (h : Evolves s0 x1) : OutEvolves s0 (execHifMbxSubmit x0 x1) := by
  unfold execHifMbxSubmit
  repeat' first
    | with_reducible assumption
    | with_reducible apply outEvolves_next
    | with_reducible apply mbxSubmit_evolves
    | with_reducible apply setF_evolves
    | with_reducible refine foldl_evolves _ _ _ (fun _ _ _ => ?_) ?_
    | with_reducible refine foldl2_evolves _ _ _ (fun _ _ _ => ?_) ?_
    | with_reducible refine foldl3_evolves _ _ _ (fun _ _ _ => ?_) ?_
    | with_reducible refine foldl4_evolves _ _ _ (fun _ _ _ => ?_) ?_
    | split
    | dsimp only
    | unfold Evolves; dsimp only
    | unfold Evolves

theorem execMctpMessage_evolves {s0} (x0 x1 x2 x3) (h : Evolves s0 x3) : OutEvolves s0 (execMctpMessage x0 x1 x2 x3) := by
  unfold execMctpMessage
  repeat' first
    | with_reducible assumption
    | with_reducible apply outEvolves_next
    | with_reducible apply emit_evolves
    | with_reducible apply logHif_evolves
    | with_reducible apply mbxEnqueue_evolves
    | split
    | dsimp only
    | unfold Evolves; dsimp only
    | unfold Evolves

theorem execPcieLinkDown_evolves {s0} (x0) (h : Evolves s0 x0) : OutEvolves s0 (execPcieLinkDown x0) := by
  unfold execPcieLinkDown
  repeat' first
    | with_reducible assumption
    | with_reducible apply outEvolves_next
    | with_reducible apply dlDown_evolves
    | split
    | dsimp only
    | unfold Evolves; dsimp only
    | unfold Evolves

theorem linkTrain_evolves {s0} (x0 x1 x2 x3) (h : Evolves s0 x0) : Evolves s0 (linkTrain x0 x1 x2 x3) := by
  unfold linkTrain
  repeat' first
    | with_reducible assumption
    | with_reducible apply setF_evolves
    | with_reducible apply setB_evolves
    | split
    | dsimp only
    | unfold Evolves; dsimp only
    | unfold Evolves

theorem execPcieLinkUp_evolves {s0} (x0 x1 x2 x3) (h : Evolves s0 x3) : OutEvolves s0 (execPcieLinkUp x0 x1 x2 x3) := by
  unfold execPcieLinkUp
  repeat' first
    | with_reducible assumption
    | with_reducible apply outEvolves_next
    | with_reducible apply setHostCfg_evolves
    | with_reducible apply linkTrain_evolves
    | split
    | dsimp only
    | unfold Evolves; dsimp only
    | unfold Evolves

theorem execPcieReset_evolves {s0} (x0) (h : Evolves s0 x0) : OutEvolves s0 (execPcieReset x0) := by
  unfold execPcieReset
  repeat' first
    | with_reducible assumption
    | with_reducible apply outEvolves_next
    | with_reducible apply dlDown_evolves
    | split
    | dsimp only
    | unfold Evolves; dsimp only
    | unfold Evolves

theorem execVfDisable_evolves {s0} (x0 x1) (h : Evolves s0 x1) : OutEvolves s0 (execVfDisable x0 x1) := by
  unfold execVfDisable
  repeat' first
    | with_reducible assumption
    | with_reducible apply outEvolves_next
    | with_reducible apply keepVfs_evolves
    | split
    | dsimp only
    | unfold Evolves; dsimp only
    | unfold Evolves

theorem execVfEnable_evolves {s0} (x0 x1) (h : Evolves s0 x1) : OutEvolves s0 (execVfEnable x0 x1) := by
  unfold execVfEnable
  repeat' first
    | with_reducible assumption
    | with_reducible apply outEvolves_next
    | split
    | dsimp only
    | unfold Evolves; dsimp only
    | unfold Evolves

theorem interruptPair_evolves {s0} (x0 x1) (h : Evolves s0 x0) : Evolves s0 (interruptPair x0 x1) := by
  unfold interruptPair
  repeat' first
    | with_reducible assumption
    | with_reducible apply answer_evolves
    | with_reducible refine foldl_evolves _ _ _ (fun _ _ _ => ?_) ?_
    | with_reducible refine foldl2_evolves _ _ _ (fun _ _ _ => ?_) ?_
    | with_reducible refine foldl3_evolves _ _ _ (fun _ _ _ => ?_) ?_
    | with_reducible refine foldl4_evolves _ _ _ (fun _ _ _ => ?_) ?_
    | split
    | dsimp only
    | unfold Evolves; dsimp only
    | unfold Evolves

theorem alertView_evolves {s0} (x0) (h : Evolves s0 x0) : Evolves s0 (alertView x0) := by
  unfold alertView
  repeat' first
    | with_reducible assumption
    | split
    | dsimp only
    | unfold Evolves; dsimp only
    | unfold Evolves

theorem setPairState_evolves {s0} (x0 x1 x2) (h : Evolves s0 x0) : Evolves s0 (setPairState x0 x1 x2) := by
  unfold setPairState
  repeat' first
    | with_reducible assumption
    | with_reducible apply setF_evolves
    | split
    | dsimp only
    | unfold Evolves; dsimp only
    | unfold Evolves

theorem limitView_evolves {s0} (x0) (h : Evolves s0 x0) : Evolves s0 (limitView x0) := by
  unfold limitView
  repeat' first
    | with_reducible assumption
    | with_reducible apply alertView_evolves
    | with_reducible apply setB_evolves
    | split
    | dsimp only
    | unfold Evolves; dsimp only
    | unfold Evolves

theorem startStep_evolves {s0} (x0) (h : Evolves s0 x0) : Evolves s0 (startStep x0) := by
  unfold startStep
  repeat' first
    | with_reducible assumption
    | with_reducible apply limitView_evolves
    | with_reducible apply setB_evolves
    | with_reducible apply logMgt_evolves
    | with_reducible apply bump_evolves
    | split
    | dsimp only
    | unfold Evolves; dsimp only
    | unfold Evolves

theorem changeWinner_evolves {s0} (x0 x1 x2) (h : Evolves s0 x0) : Evolves s0 (changeWinner x0 x1 x2) := by
  unfold changeWinner
  repeat' first
    | with_reducible assumption
    | with_reducible apply setB_evolves
    | with_reducible apply setF_evolves
    | with_reducible apply emit_evolves
    | with_reducible apply setPairState_evolves
    | with_reducible apply interruptPair_evolves
    | with_reducible apply logMgt_evolves
    | with_reducible apply startStep_evolves
    | split
    | dsimp only
    | unfold Evolves; dsimp only
    | unfold Evolves

theorem setPresent_evolves {s0} (x0 x1 x2) (h : Evolves s0 x0) : Evolves s0 (setPresent x0 x1 x2) := by
  unfold setPresent
  repeat' first
    | with_reducible assumption
    | with_reducible apply setB_evolves
    | split
    | dsimp only
    | unfold Evolves; dsimp only
    | unfold Evolves

theorem settleClaims_evolves {s0} (x0) (h : Evolves s0 x0) : Evolves s0 (settleClaims x0) := by
  unfold settleClaims
  repeat' first
    | with_reducible assumption
    | with_reducible apply logMgt_evolves
    | with_reducible apply setB_evolves
    | with_reducible apply setPresent_evolves
    | with_reducible apply setF_evolves
    | with_reducible apply changeWinner_evolves
    | split
    | dsimp only
    | unfold Evolves; dsimp only
    | unfold Evolves

theorem setDiag_evolves {s0} (x0 x1 x2) (h : Evolves s0 x0) : Evolves s0 (setDiag x0 x1 x2) := by
  unfold setDiag
  repeat' first
    | with_reducible assumption
    | with_reducible apply setF_evolves
    | split
    | dsimp only
    | unfold Evolves; dsimp only
    | unfold Evolves

theorem startBoot_evolves {s0} (x0 x1) (h : Evolves s0 x0) : Evolves s0 (startBoot x0 x1) := by
  unfold startBoot
  repeat' first
    | with_reducible assumption
    | with_reducible apply settleClaims_evolves
    | with_reducible apply setPresent_evolves
    | with_reducible apply setB_evolves
    | with_reducible apply setPairState_evolves
    | split
    | dsimp only
    | unfold Evolves; dsimp only
    | unfold Evolves

theorem diagFail_evolves {s0} (x0 x1 x2) (h : Evolves s0 x0) : Evolves s0 (diagFail x0 x1 x2) := by
  unfold diagFail
  repeat' first
    | with_reducible assumption
    | with_reducible apply settleClaims_evolves
    | with_reducible apply setPresent_evolves
    | with_reducible apply setDiag_evolves
    | with_reducible apply startBoot_evolves
    | with_reducible apply logMgt_evolves
    | split
    | dsimp only
    | unfold Evolves; dsimp only
    | unfold Evolves

theorem execAvsTimeout_evolves {s0} (x0 x1) (h : Evolves s0 x1) : OutEvolves s0 (execAvsTimeout x0 x1) := by
  unfold execAvsTimeout
  repeat' first
    | with_reducible assumption
    | with_reducible apply outEvolves_next
    | with_reducible apply startStep_evolves
    | split
    | dsimp only
    | unfold Evolves; dsimp only
    | unfold Evolves

theorem writeClaims_evolves {s0} (x0 x1 x2 x3) (h : Evolves s0 x0) : Evolves s0 (writeClaims x0 x1 x2 x3) := by
  unfold writeClaims
  repeat' first
    | with_reducible assumption
    | with_reducible apply setPresent_evolves
    | with_reducible apply settleClaims_evolves
    | split
    | dsimp only
    | unfold Evolves; dsimp only
    | unfold Evolves

theorem execClaimDrop_evolves {s0} (x0 x1 x2) (h : Evolves s0 x2) : OutEvolves s0 (execClaimDrop x0 x1 x2) := by
  unfold execClaimDrop
  repeat' first
    | with_reducible assumption
    | with_reducible apply outEvolves_next
    | with_reducible apply writeClaims_evolves
    | split
    | dsimp only
    | unfold Evolves; dsimp only
    | unfold Evolves

theorem execClaimRaise_evolves {s0} (x0 x1 x2) (h : Evolves s0 x2) : OutEvolves s0 (execClaimRaise x0 x1 x2) := by
  unfold execClaimRaise
  repeat' first
    | with_reducible assumption
    | with_reducible apply outEvolves_next
    | with_reducible apply writeClaims_evolves
    | split
    | dsimp only
    | unfold Evolves; dsimp only
    | unfold Evolves

theorem execDoldrumsAlert_evolves {s0} (x0) (h : Evolves s0 x0) : OutEvolves s0 (execDoldrumsAlert x0) := by
  unfold execDoldrumsAlert
  repeat' first
    | with_reducible assumption
    | with_reducible apply outEvolves_next
    | with_reducible apply alertView_evolves
    | with_reducible apply advance_evolves
    | split
    | dsimp only
    | unfold Evolves; dsimp only
    | unfold Evolves

theorem execDvfsStepDone_evolves {s0} (x0) (h : Evolves s0 x0) : OutEvolves s0 (execDvfsStepDone x0) := by
  unfold execDvfsStepDone
  repeat' first
    | with_reducible assumption
    | with_reducible apply outEvolves_next
    | with_reducible apply setF_evolves
    | with_reducible apply startStep_evolves
    | split
    | dsimp only
    | unfold Evolves; dsimp only
    | unfold Evolves

theorem writeTarget_evolves {s0} (x0 x1) (h : Evolves s0 x0) : Evolves s0 (writeTarget x0 x1) := by
  unfold writeTarget
  repeat' first
    | with_reducible assumption
    | with_reducible apply startStep_evolves
    | with_reducible apply setF_evolves
    | split
    | dsimp only
    | unfold Evolves; dsimp only
    | unfold Evolves

theorem gateWrite_evolves {s0} (x0 x1) (h : Evolves s0 x0) : Evolves s0 (gateWrite x0 x1) := by
  unfold gateWrite
  repeat' first
    | with_reducible assumption
    | with_reducible apply bumpSat_evolves
    | split
    | dsimp only
    | unfold Evolves; dsimp only
    | unfold Evolves

theorem execDvfsTarget_evolves {s0} (x0 x1 x2) (h : Evolves s0 x2) : OutEvolves s0 (execDvfsTarget x0 x1 x2) := by
  unfold execDvfsTarget
  repeat' first
    | with_reducible assumption
    | with_reducible apply outEvolves_next
    | with_reducible apply writeTarget_evolves
    | with_reducible apply gateWrite_evolves
    | split
    | dsimp only
    | unfold Evolves; dsimp only
    | unfold Evolves

theorem execFastCurrentLimit_evolves {s0} (x0) (h : Evolves s0 x0) : OutEvolves s0 (execFastCurrentLimit x0) := by
  unfold execFastCurrentLimit
  repeat' first
    | with_reducible assumption
    | with_reducible apply outEvolves_next
    | with_reducible apply startStep_evolves
    | split
    | dsimp only
    | unfold Evolves; dsimp only
    | unfold Evolves

theorem execHeartbeat_evolves {s0} (x0 x1) (h : Evolves s0 x1) : OutEvolves s0 (execHeartbeat x0 x1) := by
  unfold execHeartbeat
  repeat' first
    | with_reducible assumption
    | with_reducible apply outEvolves_next
    | split
    | dsimp only
    | unfold Evolves; dsimp only
    | unfold Evolves

theorem execHwThermalThrottle_evolves {s0} (x0) (h : Evolves s0 x0) : OutEvolves s0 (execHwThermalThrottle x0) := by
  unfold execHwThermalThrottle
  repeat' first
    | with_reducible assumption
    | with_reducible apply outEvolves_next
    | with_reducible apply startStep_evolves
    | split
    | dsimp only
    | unfold Evolves; dsimp only
    | unfold Evolves

theorem execHwThermalThrottleRelease_evolves {s0} (x0) (h : Evolves s0 x0) : OutEvolves s0 (execHwThermalThrottleRelease x0) := by
  unfold execHwThermalThrottleRelease
  repeat' first
    | with_reducible assumption
    | with_reducible apply outEvolves_next
    | with_reducible apply startStep_evolves
    | split
    | dsimp only
    | unfold Evolves; dsimp only
    | unfold Evolves

theorem setFails_evolves {s0} (x0 x1 x2) (h : Evolves s0 x0) : Evolves s0 (setFails x0 x1 x2) := by
  unfold setFails
  repeat' first
    | with_reducible assumption
    | with_reducible apply setF_evolves
    | split
    | dsimp only
    | unfold Evolves; dsimp only
    | unfold Evolves

theorem pairReset_evolves {s0} (x0 x1 x2) (h : Evolves s0 x0) : Evolves s0 (pairReset x0 x1 x2) := by
  unfold pairReset
  repeat' first
    | with_reducible assumption
    | with_reducible apply setB_evolves
    | with_reducible apply startBoot_evolves
    | with_reducible apply setFails_evolves
    | split
    | dsimp only
    | unfold Evolves; dsimp only
    | unfold Evolves

theorem execMgtPairReset_evolves {s0} (x0 x1 x2) (h : Evolves s0 x2) : OutEvolves s0 (execMgtPairReset x0 x1 x2) := by
  unfold execMgtPairReset
  repeat' first
    | with_reducible assumption
    | with_reducible apply outEvolves_next
    | with_reducible apply pairReset_evolves
    | split
    | dsimp only
    | unfold Evolves; dsimp only
    | unfold Evolves

theorem updateDone_evolves {s0} (x0 x1) (h : Evolves s0 x0) : Evolves s0 (updateDone x0 x1) := by
  unfold updateDone
  repeat' first
    | with_reducible assumption
    | with_reducible apply writeHeader_evolves
    | with_reducible apply logMgt_evolves
    | with_reducible apply setB_evolves
    | split
    | dsimp only
    | unfold Evolves; dsimp only
    | unfold Evolves

theorem execPairBootDone_evolves {s0} (x0 x1 x2) (h : Evolves s0 x2) : OutEvolves s0 (execPairBootDone x0 x1 x2) := by
  unfold execPairBootDone
  repeat' first
    | with_reducible assumption
    | with_reducible apply outEvolves_next
    | with_reducible apply updateDone_evolves
    | with_reducible apply setFails_evolves
    | with_reducible apply setPairState_evolves
    | with_reducible apply settleClaims_evolves
    | with_reducible apply setPresent_evolves
    | with_reducible apply logMgt_evolves
    | with_reducible apply setDiag_evolves
    | with_reducible apply startBoot_evolves
    | split
    | dsimp only
    | unfold Evolves; dsimp only
    | unfold Evolves

theorem powerLoop_evolves {s0} (x0 x1) (h : Evolves s0 x0) : Evolves s0 (powerLoop x0 x1) := by
  unfold powerLoop
  repeat' first
    | with_reducible assumption
    | with_reducible apply writeTarget_evolves
    | split
    | dsimp only
    | unfold Evolves; dsimp only
    | unfold Evolves

theorem execPowerLoop_evolves {s0} (x0 x1 x2) (h : Evolves s0 x2) : OutEvolves s0 (execPowerLoop x0 x1 x2) := by
  unfold execPowerLoop
  repeat' first
    | with_reducible assumption
    | with_reducible apply outEvolves_next
    | with_reducible apply setF_evolves
    | with_reducible apply powerLoop_evolves
    | split
    | dsimp only
    | unfold Evolves; dsimp only
    | unfold Evolves

theorem execSelfDiagPeriodic_evolves {s0} (x0 x1) (h : Evolves s0 x1) : OutEvolves s0 (execSelfDiagPeriodic x0 x1) := by
  unfold execSelfDiagPeriodic
  repeat' first
    | with_reducible assumption
    | with_reducible apply outEvolves_next
    | with_reducible apply diagFail_evolves
    | split
    | dsimp only
    | unfold Evolves; dsimp only
    | unfold Evolves

theorem readHandoff_evolves {s0} (x0 x1) (h : Evolves s0 x0) : Evolves s0 (readHandoff x0 x1).2 := by
  unfold readHandoff
  extract_lets base a size r seq seen ok
  have k : Evolves s0 a.2.2 := evolves_at3 (hwRead_evolves _ _ _ _ h) rfl
  have kr : Evolves s0 r.2.2 := evolves_at3 (hwRead_evolves _ _ _ _ k) rfl
  clear_value a r ok
  split
  · exact id k
  · exact id kr

theorem takeOver_evolves {s0} (x0 x1) (h : Evolves s0 x0) : Evolves s0 (takeOver x0 x1) := by
  unfold takeOver
  split
  · extract_lets r sr m s
    have kr : Evolves s0 r.2 := evolves_at2 (readHandoff_evolves _ _ h) rfl
    clear_value r
    have k : Evolves s0 s := evolves_keep kr
    clear_value s
    split
    · exact settleClaims_evolves _ (setPresent_evolves _ _ _ (logMgt_evolves _ _ _ _ k))
    · exact writeTarget_evolves _ _ (settleClaims_evolves _ (setPresent_evolves _ _ _ (evolves_keep k)))
  · exact settleClaims_evolves _ (setPresent_evolves _ _ _ (evolves_keep h))

theorem execStandbyTakeover_evolves {s0} (x0 x1 x2) (h : Evolves s0 x2) : OutEvolves s0 (execStandbyTakeover x0 x1 x2) := by
  unfold execStandbyTakeover
  repeat' first
    | with_reducible assumption
    | with_reducible apply outEvolves_next
    | with_reducible apply takeOver_evolves
    | with_reducible apply diagFail_evolves
    | split
    | dsimp only
    | unfold Evolves; dsimp only
    | unfold Evolves

theorem thermalLoop_evolves {s0} (x0 x1) (h : Evolves s0 x0) : Evolves s0 (thermalLoop x0 x1) := by
  unfold thermalLoop
  repeat' first
    | with_reducible assumption
    | with_reducible apply writeTarget_evolves
    | split
    | dsimp only
    | unfold Evolves; dsimp only
    | unfold Evolves

theorem execThermalLoop_evolves {s0} (x0 x1 x2) (h : Evolves s0 x2) : OutEvolves s0 (execThermalLoop x0 x1 x2) := by
  unfold execThermalLoop
  repeat' first
    | with_reducible assumption
    | with_reducible apply outEvolves_next
    | with_reducible apply setB_evolves
    | with_reducible apply setF_evolves
    | with_reducible apply thermalLoop_evolves
    | split
    | dsimp only
    | unfold Evolves; dsimp only
    | unfold Evolves

theorem execWatchdogExpiry_evolves {s0} (x0 x1) (h : Evolves s0 x1) : OutEvolves s0 (execWatchdogExpiry x0 x1) := by
  unfold execWatchdogExpiry
  repeat' first
    | with_reducible assumption
    | with_reducible apply outEvolves_next
    | with_reducible apply startBoot_evolves
    | with_reducible apply logMgt_evolves
    | with_reducible apply setDiag_evolves
    | with_reducible apply settleClaims_evolves
    | with_reducible apply setPresent_evolves
    | split
    | dsimp only
    | unfold Evolves; dsimp only
    | unfold Evolves

theorem handoffRecord_evolves {s0} (x0 x1) (h : Evolves s0 x0) : Evolves s0 (handoffRecord x0 x1).2 := by
  unfold handoffRecord
  repeat' first
    | with_reducible assumption
    | with_reducible apply freshBytes_evolves
    | split
    | dsimp only
    | unfold Evolves; dsimp only
    | unfold Evolves

theorem writeHandoff_evolves {s0} (x0 x1) (h : Evolves s0 x0) : Evolves s0 (writeHandoff x0 x1) := by
  unfold writeHandoff
  repeat' first
    | with_reducible assumption
    | with_reducible apply handoffRecord_evolves
    | with_reducible apply hwWrite_evolves
    | split
    | dsimp only
    | unfold Evolves; dsimp only
    | unfold Evolves

end Sys2Proof.Machine
end

