-- ==== Sys2Proof/Laws/EvolveManage.lean ====
section
/-!
SUPPORT. Laws/EvolveManage.lean: one lemma for each operation that answers a state, over the start, configuration, mailbox, telemetry and register commands:
what Evolves says of a machine holds after it too.
-/
namespace Sys2Proof.Machine
open Sys2Proof

theorem mapStack_evolves {s0} (x0 x1) (h : Evolves s0 x0) : Evolves s0 (mapStack x0 x1) := by
  unfold mapStack
  repeat' first
    | with_reducible assumption
    | with_reducible apply setF_evolves
    | with_reducible refine foldl_evolves _ _ _ (fun _ _ _ => ?_) ?_
    | with_reducible refine foldl2_evolves _ _ _ (fun _ _ _ => ?_) ?_
    | with_reducible refine foldl3_evolves _ _ _ (fun _ _ _ => ?_) ?_
    | with_reducible refine foldl4_evolves _ _ _ (fun _ _ _ => ?_) ?_
    | split
    | dsimp only
    | unfold Evolves; dsimp only
    | unfold Evolves

theorem mapEngines_evolves {s0} (x0) (h : Evolves s0 x0) : Evolves s0 (mapEngines x0) := by
  unfold mapEngines
  repeat' first
    | with_reducible assumption
    | with_reducible apply mapStack_evolves
    | with_reducible apply setF_evolves
    | with_reducible refine foldl_evolves _ _ _ (fun _ _ _ => ?_) ?_
    | with_reducible refine foldl2_evolves _ _ _ (fun _ _ _ => ?_) ?_
    | with_reducible refine foldl3_evolves _ _ _ (fun _ _ _ => ?_) ?_
    | with_reducible refine foldl4_evolves _ _ _ (fun _ _ _ => ?_) ?_
    | split
    | dsimp only
    | unfold Evolves; dsimp only
    | unfold Evolves

theorem layBases_evolves {s0} (x0 x1 x2) (h : Evolves s0 x0) : Evolves s0 (layBases x0 x1 x2) := by
  unfold layBases
  repeat' first
    | with_reducible assumption
    | with_reducible apply setF_evolves
    | with_reducible refine foldl_evolves _ _ _ (fun _ _ _ => ?_) ?_
    | with_reducible refine foldl2_evolves _ _ _ (fun _ _ _ => ?_) ?_
    | with_reducible refine foldl3_evolves _ _ _ (fun _ _ _ => ?_) ?_
    | with_reducible refine foldl4_evolves _ _ _ (fun _ _ _ => ?_) ?_
    | split
    | dsimp only
    | unfold Evolves; dsimp only
    | unfold Evolves

theorem applyFields_evolves {s0} (x0 x1 x2) (h : Evolves s0 x0) : Evolves s0 (applyFields x0 x1 x2) := by
  unfold applyFields
  repeat' first
    | with_reducible assumption
    | with_reducible apply setF_evolves
    | with_reducible apply fieldApply_evolves
    | with_reducible apply mapEngines_evolves
    | with_reducible apply layBases_evolves
    | with_reducible apply portEnable_evolves
    | with_reducible refine foldl_evolves _ _ _ (fun _ _ _ => ?_) ?_
    | with_reducible refine foldl2_evolves _ _ _ (fun _ _ _ => ?_) ?_
    | with_reducible refine foldl3_evolves _ _ _ (fun _ _ _ => ?_) ?_
    | with_reducible refine foldl4_evolves _ _ _ (fun _ _ _ => ?_) ?_
    | split
    | dsimp only
    | unfold Evolves; dsimp only
    | unfold Evolves

theorem bootPairs_evolves {s0} (x0 x1 x2) (h : Evolves s0 x0) : Evolves s0 (bootPairs x0 x1 x2) := by
  unfold bootPairs
  repeat' first
    | with_reducible assumption
    | with_reducible apply startBoot_evolves
    | with_reducible apply logMgt_evolves
    | with_reducible apply setFails_evolves
    | with_reducible apply setDiag_evolves
    | with_reducible apply setPairState_evolves
    | with_reducible apply setPresent_evolves
    | with_reducible apply settleClaims_evolves
    | split
    | dsimp only
    | unfold Evolves; dsimp only
    | unfold Evolves

theorem domainOff_evolves {s0} (x0 x1) (h : Evolves s0 x0) : Evolves s0 (domainOff x0 x1) := by
  unfold domainOff
  repeat' first
    | with_reducible assumption
    | with_reducible apply dlDown_evolves
    | with_reducible apply setPd_evolves
    | with_reducible apply setPairState_evolves
    | with_reducible apply settleClaims_evolves
    | with_reducible apply setPresent_evolves
    | split
    | dsimp only
    | unfold Evolves; dsimp only
    | unfold Evolves

theorem resetRange_evolves {s0} (x0 x1 x2) (h : Evolves s0 x0) : Evolves s0 (resetRange x0 x1 x2) :=
  { h with regs := fun k => (h.regs k).filter _, shadow := fun k => (h.shadow k).filter _ }

theorem portFields_evolves {s0} (x0 x1) (h : Evolves s0 x0) : Evolves s0 (portFields x0 x1) := by
  unfold portFields
  repeat' first
    | with_reducible assumption
    | with_reducible apply fieldApply_evolves
    | with_reducible refine foldl_evolves _ _ _ (fun _ _ _ => ?_) ?_
    | with_reducible refine foldl2_evolves _ _ _ (fun _ _ _ => ?_) ?_
    | with_reducible refine foldl3_evolves _ _ _ (fun _ _ _ => ?_) ?_
    | with_reducible refine foldl4_evolves _ _ _ (fun _ _ _ => ?_) ?_
    | split
    | dsimp only
    | unfold Evolves; dsimp only
    | unfold Evolves

theorem domainOn_evolves {s0} (x0 x1) (h : Evolves s0 x0) : Evolves s0 (domainOn x0 x1) := by
  have k := setPd_evolves x0 x1 true h
  unfold domainOn
  generalize setPd x0 x1 true = s at k
  have kr : ∀ a b, Evolves s0 (resetRange s a b) := fun a b => resetRange_evolves _ _ _ k
  dsimp only
  split
  · exact setF_evolves _ _ _ _ (kr _ _)
  split
  · exact portFields_evolves _ _ (kr _ _)
  split
  · exact evolves_keep (layBases_evolves _ _ _ (kr _ _))
  split
  · exact startBoot_evolves _ _ (setFails_evolves _ _ _ (setDiag_evolves _ _ _ k))
  split
  · exact kr _ _
  split
  · exact kr _ _
  · exact k

theorem resetKeep_evolves {s0} (x0) (h : Evolves s0 x0) : Evolves s0 (resetKeep x0) :=
  { h with mem := fun _ => memwf_reset, regs := fun _ => List.Pairwise.nil, shadow := fun _ => List.Pairwise.nil }

theorem execDeviceReset_evolves {s0} (x0) (h : Evolves s0 x0) : OutEvolves s0 (execDeviceReset x0) := by
  unfold execDeviceReset
  repeat' first
    | with_reducible assumption
    | with_reducible apply outEvolves_next
    | with_reducible apply resetKeep_evolves
    | split
    | dsimp only
    | unfold Evolves; dsimp only
    | unfold Evolves

theorem hifReady_evolves {s0} (x0 x1) (h : Evolves s0 x0) : Evolves s0 (hifReady x0 x1) := by
  unfold hifReady
  repeat' first
    | with_reducible assumption
    | with_reducible apply alertView_evolves
    | with_reducible apply emit_evolves
    | split
    | dsimp only
    | unfold Evolves; dsimp only
    | unfold Evolves

theorem recovery_evolves {s0} (x0 x1) (h : Evolves s0 x0) : Evolves s0 (recovery x0 x1) := by
  unfold recovery
  repeat' first
    | with_reducible assumption
    | with_reducible apply hifReady_evolves
    | with_reducible apply setF_evolves
    | split
    | dsimp only
    | unfold Evolves; dsimp only
    | unfold Evolves

theorem startDrops_evolves {s0} (x0 x1 x2) (h : Evolves s0 x0) : Evolves s0 (startDrops x0 x1 x2) := by
  unfold startDrops
  repeat' first
    | with_reducible assumption
    | with_reducible apply bumpSat_evolves
    | split
    | dsimp only
    | unfold Evolves; dsimp only
    | unfold Evolves

theorem powerUp_evolves {s0} (x0) (h : Evolves s0 x0) : Evolves s0 (powerUp x0) := by
  unfold powerUp
  repeat' first
    | with_reducible assumption
    | with_reducible apply setPd_evolves
    | with_reducible refine foldl_evolves _ _ _ (fun _ _ _ => ?_) ?_
    | with_reducible refine foldl2_evolves _ _ _ (fun _ _ _ => ?_) ?_
    | with_reducible refine foldl3_evolves _ _ _ (fun _ _ _ => ?_) ?_
    | with_reducible refine foldl4_evolves _ _ _ (fun _ _ _ => ?_) ?_
    | split
    | dsimp only
    | unfold Evolves; dsimp only
    | unfold Evolves

theorem powerFor_evolves {s0} (x0 x1) (h : Evolves s0 x0) : Evolves s0 (powerFor x0 x1) := by
  unfold powerFor
  repeat' first
    | with_reducible assumption
    | with_reducible apply setPd_evolves
    | with_reducible apply powerUp_evolves
    | with_reducible refine foldl_evolves _ _ _ (fun _ _ _ => ?_) ?_
    | with_reducible refine foldl2_evolves _ _ _ (fun _ _ _ => ?_) ?_
    | with_reducible refine foldl3_evolves _ _ _ (fun _ _ _ => ?_) ?_
    | with_reducible refine foldl4_evolves _ _ _ (fun _ _ _ => ?_) ?_
    | split
    | dsimp only
    | unfold Evolves; dsimp only
    | unfold Evolves

theorem parStart_evolves {s0} (x0 x1) (h : Evolves s0 x0) : Evolves s0 (parStart x0 x1) := by
  unfold parStart
  repeat' first
    | with_reducible assumption
    | with_reducible apply setF_evolves
    | split
    | dsimp only
    | unfold Evolves; dsimp only
    | unfold Evolves

theorem trainStacks_evolves {s0} (x0 x1) (h : Evolves s0 x0) : Evolves s0 (trainStacks x0 x1) := by
  unfold trainStacks
  extract_lets m s1 s2 s3 s4
  have k1 : Evolves s0 s1 := evolves_mem_keep h x0.mem.deltas (fieldValue x0 2 0 == 1) (if fieldValue x0 2 0 = 1 then fieldValue x0 3 0 else 11)
  clear_value s1
  have k2 : Evolves s0 s2 := foldl_evolves _ _ _ (fun s i h => setF_evolves _ _ _ _ (setF_evolves _ _ _ _ (setF_evolves _ _ _ _ h))) k1
  clear_value s2
  have k4 : Evolves s0 s4 := parStart_evolves _ _ (setF_evolves _ _ _ _ k2)
  clear_value s4
  split
  · exact id k4
  · exact zmapReady_evolves _ (lockLayout_evolves _ k4)

theorem loadDevice_evolves {s0} (x0) (h : Evolves s0 x0) : Evolves s0 (loadDevice x0) := by
  unfold loadDevice
  repeat' first
    | with_reducible assumption
    | with_reducible apply loadSlot_evolves
    | split
    | dsimp only
    | unfold Evolves; dsimp only
    | unfold Evolves

theorem startLogs_evolves {s0} (x0 x1 x2) (h : Evolves s0 x0) : Evolves s0 (startLogs x0 x1 x2) := by
  unfold startLogs
  repeat' first
    | with_reducible assumption
    | with_reducible apply logSec_evolves
    | with_reducible refine foldl_evolves _ _ _ (fun _ _ _ => ?_) ?_
    | with_reducible refine foldl2_evolves _ _ _ (fun _ _ _ => ?_) ?_
    | with_reducible refine foldl3_evolves _ _ _ (fun _ _ _ => ?_) ?_
    | with_reducible refine foldl4_evolves _ _ _ (fun _ _ _ => ?_) ?_
    | split
    | dsimp only
    | unfold Evolves; dsimp only
    | unfold Evolves

theorem startRest_evolves {s0} (x0 x1 x2) (h : Evolves s0 x1) : Evolves s0 (startRest x0 x1 x2) := by
  unfold startRest
  repeat' first
    | with_reducible assumption
    | with_reducible apply readVaric_evolves
    | with_reducible apply fieldApply_evolves
    | with_reducible apply powerFor_evolves
    | with_reducible apply trainStacks_evolves
    | with_reducible apply setF_evolves
    | with_reducible apply recovery_evolves
    | with_reducible apply startDrops_evolves
    | with_reducible apply setB_evolves
    | with_reducible apply loadDevice_evolves
    | with_reducible apply applyFields_evolves
    | with_reducible apply secView_evolves
    | with_reducible apply startLogs_evolves
    | with_reducible apply bootPairs_evolves
    | with_reducible apply hifReady_evolves
    | with_reducible refine foldl_evolves _ _ _ (fun _ _ _ => ?_) ?_
    | with_reducible refine foldl2_evolves _ _ _ (fun _ _ _ => ?_) ?_
    | with_reducible refine foldl3_evolves _ _ _ (fun _ _ _ => ?_) ?_
    | with_reducible refine foldl4_evolves _ _ _ (fun _ _ _ => ?_) ?_
    | split
    | dsimp only
    | unfold Evolves; dsimp only
    | unfold Evolves

theorem startUp_evolves {s0} (x0 x1) (h : Evolves s0 x1) : Evolves s0 (startUp x0 x1) := by
  unfold startUp
  extract_lets s1 pw dv s2 s3 s4 named s5 fails
  have k1 : Evolves s0 s1 := setPd_evolves _ _ _ (setPd_evolves _ _ _ (setPd_evolves _ _ _ h))
  clear_value s1
  have k2 : Evolves s0 s2 := evolves_keep k1
  clear_value s2
  have k3 : Evolves s0 s3 := by
    unfold s3
    split
    · exact linkTrain_evolves _ _ _ _ k2
    · exact id k2
  clear_value s3
  have k4 : Evolves s0 s4 := xmssStart_evolves _ (setB_evolves _ _ _ _ k3)
  clear_value s4
  have k5 : Evolves s0 s5 := by
    unfold s5
    split
    · exact id k4
    · exact setF_evolves _ _ _ _ k4
  clear_value s5
  split
  · exact recovery_evolves _ _ (startDrops_evolves _ _ _ k5)
  · rename_i slot fb _
    extract_lets s6 sc
    have k6 : Evolves s0 s6 := setB_evolves _ _ _ _ (setF_evolves _ _ _ _ (setF_evolves _ _ _ _ k5))
    clear_value s6
    exact startRest_evolves _ _ _ (evolves_keep k6)

theorem execDeviceStart_evolves {s0} (x0 x1) (h : Evolves s0 x1) : OutEvolves s0 (execDeviceStart x0 x1) := by
  unfold execDeviceStart
  split
  · exact id h
  split
  · trivial
  · exact startUp_evolves _ _ h

theorem pdSwitch_evolves {s0} (x0 x1 x2 x3) (h : Evolves s0 x0) : Evolves s0 (pdSwitch x0 x1 x2 x3) := by
  unfold pdSwitch
  repeat' first
    | with_reducible assumption
    | with_reducible apply setB_evolves
    | with_reducible apply setF_evolves
    | split
    | dsimp only
    | unfold Evolves; dsimp only
    | unfold Evolves

theorem execPdSwitch_evolves {s0} (x0 x1 x2 x3) (h : Evolves s0 x3) : OutEvolves s0 (execPdSwitch x0 x1 x2 x3) := by
  unfold execPdSwitch
  repeat' first
    | with_reducible assumption
    | with_reducible apply outEvolves_next
    | with_reducible apply gateWrite_evolves
    | with_reducible apply pdSwitch_evolves
    | split
    | dsimp only
    | unfold Evolves; dsimp only
    | unfold Evolves

theorem execPdSwitchDone_evolves {s0} (x0) (h : Evolves s0 x0) : OutEvolves s0 (execPdSwitchDone x0) := by
  unfold execPdSwitchDone
  repeat' first
    | with_reducible assumption
    | with_reducible apply outEvolves_next
    | with_reducible apply setB_evolves
    | with_reducible apply domainOn_evolves
    | with_reducible apply domainOff_evolves
    | with_reducible apply logMgt_evolves
    | split
    | dsimp only
    | unfold Evolves; dsimp only
    | unfold Evolves

theorem execThermtrip_evolves {s0} (x0) (h : Evolves s0 x0) : OutEvolves s0 (execThermtrip x0) := by
  unfold execThermtrip
  repeat' first
    | with_reducible assumption
    | with_reducible apply outEvolves_next
    | with_reducible apply resetKeep_evolves
    | split
    | dsimp only
    | unfold Evolves; dsimp only
    | unfold Evolves

theorem encCheck_evolves {s0} (x0 x1) (h : Evolves s0 x0) : Evolves s0 (encCheck x0 x1) := by
  unfold encCheck
  repeat' first
    | with_reducible assumption
    | with_reducible apply linkDown_evolves
    | with_reducible apply logFpt_evolves
    | split
    | dsimp only
    | unfold Evolves; dsimp only
    | unfold Evolves

theorem showOffer_evolves {s0} (x0) (h : Evolves s0 x0) : Evolves s0 (showOffer x0) := by
  unfold showOffer
  repeat' first
    | with_reducible assumption
    | with_reducible apply setF_evolves
    | split
    | dsimp only
    | unfold Evolves; dsimp only
    | unfold Evolves

theorem requireEnc_evolves {s0} (x0) (h : Evolves s0 x0) : Evolves s0 (requireEnc x0) := by
  unfold requireEnc
  repeat' first
    | with_reducible assumption
    | with_reducible apply encCheck_evolves
    | with_reducible apply setB_evolves
    | with_reducible refine foldl_evolves _ _ _ (fun _ _ _ => ?_) ?_
    | with_reducible refine foldl2_evolves _ _ _ (fun _ _ _ => ?_) ?_
    | with_reducible refine foldl3_evolves _ _ _ (fun _ _ _ => ?_) ?_
    | with_reducible refine foldl4_evolves _ _ _ (fun _ _ _ => ?_) ?_
    | split
    | dsimp only
    | unfold Evolves; dsimp only
    | unfold Evolves

theorem featCommit_evolves {s0} (x0) (h : Evolves s0 x0) : Evolves s0 (featCommit x0) := by
  unfold featCommit
  repeat' first
    | with_reducible assumption
    | with_reducible apply setF_evolves
    | with_reducible apply showOffer_evolves
    | with_reducible apply setB_evolves
    | with_reducible apply requireEnc_evolves
    | split
    | dsimp only
    | unfold Evolves; dsimp only
    | unfold Evolves

theorem execCfgFeatCommit_evolves {s0} (x0 x1) (h : Evolves s0 x1) : OutEvolves s0 (execCfgFeatCommit x0 x1) := by
  unfold execCfgFeatCommit
  repeat' first
    | with_reducible assumption
    | with_reducible apply outEvolves_next
    | with_reducible apply featCommit_evolves
    | with_reducible apply setHostCfg_evolves
    | split
    | dsimp only
    | unfold Evolves; dsimp only
    | unfold Evolves

theorem execCfgRptRead_evolves {s0} (x0) (h : Evolves s0 x0) : OutEvolves s0 (execCfgRptRead x0) := by
  unfold execCfgRptRead
  repeat' first
    | with_reducible assumption
    | with_reducible apply outEvolves_next
    | with_reducible apply emit_evolves
    | with_reducible apply setF_evolves
    | split
    | dsimp only
    | unfold Evolves; dsimp only
    | unfold Evolves

theorem bootStandby_evolves {s0} (x0 x1 x2) (h : Evolves s0 x0) : Evolves s0 (bootStandby x0 x1 x2) := by
  unfold bootStandby
  repeat' first
    | with_reducible assumption
    | with_reducible apply setB_evolves
    | with_reducible apply startBoot_evolves
    | with_reducible apply setFails_evolves
    | split
    | dsimp only
    | unfold Evolves; dsimp only
    | unfold Evolves

theorem eraseFresh_evolves {s0} (x0 x1 x2) (h : Evolves s0 x0) : Evolves s0 (eraseFresh x0 x1 x2) := by
  unfold eraseFresh
  repeat' first
    | with_reducible assumption
    | with_reducible apply flashErase_evolves
    | with_reducible refine foldl_evolves _ _ _ (fun _ _ _ => ?_) ?_
    | with_reducible refine foldl2_evolves _ _ _ (fun _ _ _ => ?_) ?_
    | with_reducible refine foldl3_evolves _ _ _ (fun _ _ _ => ?_) ?_
    | with_reducible refine foldl4_evolves _ _ _ (fun _ _ _ => ?_) ?_
    | split
    | dsimp only
    | unfold Evolves; dsimp only
    | unfold Evolves

theorem serve_evolves {s0} (x0 x1 x2 x3 x4 x5) (h : Evolves s0 x0) (hf : ∀ s e b, Evolves s0 s → Evolves s0 (x5 s e b)) : Evolves s0 (serve x0 x1 x2 x3 x4 x5) := by
  unfold serve
  split
  · exact id h
  · split
    · exact hf _ _ _ h
    · exact answer_evolves _ _ _ _ _ h

theorem execAttest_evolves {s0} (x0 x1 x2 x3) (h : Evolves s0 x3) : OutEvolves s0 (execAttest x0 x1 x2 x3) := by
  unfold execAttest
  repeat' first
    | with_reducible assumption
    | with_reducible apply outEvolves_next
    | with_reducible apply serve_evolves
    | with_reducible apply freeRetry_evolves
    | with_reducible apply answer_evolves
    | with_reducible apply attestReport_evolves
    | with_reducible apply hwWrite_evolves
    | with_reducible apply evolves_free
    | (intro)
    | split
    | dsimp only
    | unfold Evolves; dsimp only
    | unfold Evolves

theorem execCfgReport_evolves {s0} (x0 x1 x2) (h : Evolves s0 x2) : OutEvolves s0 (execCfgReport x0 x1 x2) := by
  unfold execCfgReport
  repeat' first
    | with_reducible assumption
    | with_reducible apply outEvolves_next
    | with_reducible apply serve_evolves
    | with_reducible apply answer_evolves
    | (intro)
    | split
    | dsimp only
    | unfold Evolves; dsimp only
    | unfold Evolves

theorem execDomainPower_evolves {s0} (x0 x1 x2) (h : Evolves s0 x2) : OutEvolves s0 (execDomainPower x0 x1 x2) := by
  unfold execDomainPower
  repeat' first
    | with_reducible assumption
    | with_reducible apply outEvolves_next
    | with_reducible apply serve_evolves
    | with_reducible apply freeRetry_evolves
    | with_reducible apply answer_evolves
    | with_reducible apply pdSwitch_evolves
    | with_reducible apply evolves_free
    | (intro)
    | split
    | dsimp only
    | unfold Evolves; dsimp only
    | unfold Evolves

theorem execFieldGet_evolves {s0} (x0 x1 x2) (h : Evolves s0 x2) : OutEvolves s0 (execFieldGet x0 x1 x2) := by
  unfold execFieldGet
  repeat' first
    | with_reducible assumption
    | with_reducible apply outEvolves_next
    | with_reducible apply serve_evolves
    | with_reducible apply answer_evolves
    | (intro)
    | split
    | dsimp only
    | unfold Evolves; dsimp only
    | unfold Evolves

theorem setCeiling_evolves {s0} (x0 x1) (h : Evolves s0 x0) : Evolves s0 (setCeiling x0 x1) := by
  unfold setCeiling
  repeat' first
    | with_reducible assumption
    | with_reducible apply writeTarget_evolves
    | split
    | dsimp only
    | unfold Evolves; dsimp only
    | unfold Evolves

theorem fieldSet_evolves {s0} (x0 x1 x2 x3) (h : Evolves s0 x0) : Evolves s0 (fieldSet x0 x1 x2 x3) := by
  unfold fieldSet
  repeat' first
    | with_reducible assumption
    | with_reducible apply portEnable_evolves
    | with_reducible apply domainOn_evolves
    | with_reducible apply portDisable_evolves
    | with_reducible apply setShadow_evolves
    | with_reducible apply setCeiling_evolves
    | with_reducible apply encCheck_evolves
    | with_reducible apply fieldApply_evolves
    | split
    | dsimp only
    | unfold Evolves; dsimp only
    | unfold Evolves

theorem execFieldSet_evolves {s0} (x0 x1 x2) (h : Evolves s0 x2) : OutEvolves s0 (execFieldSet x0 x1 x2) := by
  unfold execFieldSet
  repeat' first
    | with_reducible assumption
    | with_reducible apply outEvolves_next
    | with_reducible apply serve_evolves
    | with_reducible apply answer_evolves
    | with_reducible apply fieldSet_evolves
    | (intro)
    | split
    | dsimp only
    | unfold Evolves; dsimp only
    | unfold Evolves

theorem giveUp_evolves {s0} (x0 x1) (h : Evolves s0 x0) : Evolves s0 (giveUp x0 x1) := by
  unfold giveUp
  repeat' first
    | with_reducible assumption
    | with_reducible apply writeHandoff_evolves
    | with_reducible apply settleClaims_evolves
    | with_reducible apply setPresent_evolves
    | split
    | dsimp only
    | unfold Evolves; dsimp only
    | unfold Evolves

theorem execFwActivate_evolves {s0} (x0 x1 x2 x3) (h : Evolves s0 x3) : OutEvolves s0 (execFwActivate x0 x1 x2 x3) := by
  unfold execFwActivate
  repeat' first
    | with_reducible assumption
    | with_reducible apply outEvolves_next
    | with_reducible apply serve_evolves
    | with_reducible apply answer_evolves
    | with_reducible apply logMgt_evolves
    | with_reducible apply setFails_evolves
    | with_reducible apply setDiag_evolves
    | with_reducible apply bootStandby_evolves
    | with_reducible apply setB_evolves
    | with_reducible apply startBoot_evolves
    | with_reducible apply giveUp_evolves
    | with_reducible apply setPairState_evolves
    | (intro)
    | split
    | dsimp only
    | unfold Evolves; dsimp only
    | unfold Evolves

theorem writeSlot_evolves {s0} (x0 x1 x2 x3 x4) (h : Evolves s0 x0) : Evolves s0 (writeSlot x0 x1 x2 x3 x4) := by
  unfold writeSlot
  repeat' first
    | with_reducible assumption
    | with_reducible apply flashErase_evolves
    | with_reducible apply flashWrite_evolves
    | split
    | dsimp only
    | unfold Evolves; dsimp only
    | unfold Evolves

theorem execFwStage_evolves {s0} (x0 x1 x2 x3 x4 x5) (h : Evolves s0 x5) : OutEvolves s0 (execFwStage x0 x1 x2 x3 x4 x5) := by
  unfold execFwStage
  repeat' first
    | with_reducible assumption
    | with_reducible apply outEvolves_next
    | with_reducible apply serve_evolves
    | with_reducible apply answer_evolves
    | with_reducible apply logSec_evolves
    | with_reducible apply setF_evolves
    | with_reducible apply writeSlot_evolves
    | (intro)
    | split
    | dsimp only
    | unfold Evolves; dsimp only
    | unfold Evolves

theorem execHandover_evolves {s0} (x0 x1 x2) (h : Evolves s0 x2) : OutEvolves s0 (execHandover x0 x1 x2) := by
  unfold execHandover
  repeat' first
    | with_reducible assumption
    | with_reducible apply outEvolves_next
    | with_reducible apply serve_evolves
    | with_reducible apply giveUp_evolves
    | with_reducible apply answer_evolves
    | (intro)
    | split
    | dsimp only
    | unfold Evolves; dsimp only
    | unfold Evolves

theorem execImageWrite_evolves {s0} (x0 x1 x2 x3 x4) (h : Evolves s0 x4) : OutEvolves s0 (execImageWrite x0 x1 x2 x3 x4) := by
  unfold execImageWrite
  repeat' first
    | with_reducible assumption
    | with_reducible apply outEvolves_next
    | with_reducible apply serve_evolves
    | with_reducible apply answer_evolves
    | with_reducible apply writeSlot_evolves
    | with_reducible apply writeHeader_evolves
    | (intro)
    | split
    | dsimp only
    | unfold Evolves; dsimp only
    | unfold Evolves

theorem mailboxTake_evolves {s0} (x0) (h : Evolves s0 x0) : Evolves s0 (mailboxTake x0) := by
  unfold mailboxTake
  repeat' first
    | with_reducible assumption
    | with_reducible apply answer_evolves
    | split
    | dsimp only
    | unfold Evolves; dsimp only
    | unfold Evolves

theorem execMailboxTake_evolves {s0} (x0) (h : Evolves s0 x0) : OutEvolves s0 (execMailboxTake x0) := by
  unfold execMailboxTake
  repeat' first
    | with_reducible assumption
    | with_reducible apply outEvolves_next
    | with_reducible apply mailboxTake_evolves
    | split
    | dsimp only
    | unfold Evolves; dsimp only
    | unfold Evolves

theorem execMgtStatus_evolves {s0} (x0 x1 x2) (h : Evolves s0 x2) : OutEvolves s0 (execMgtStatus x0 x1 x2) := by
  unfold execMgtStatus
  repeat' first
    | with_reducible assumption
    | with_reducible apply outEvolves_next
    | with_reducible apply serve_evolves
    | with_reducible apply answer_evolves
    | (intro)
    | split
    | dsimp only
    | unfold Evolves; dsimp only
    | unfold Evolves

theorem execPldm_evolves {s0} (x0 x1 x2) (h : Evolves s0 x2) : OutEvolves s0 (execPldm x0 x1 x2) := by
  unfold execPldm
  repeat' first
    | with_reducible assumption
    | with_reducible apply outEvolves_next
    | with_reducible apply serve_evolves
    | with_reducible apply fresh_evolves
    | with_reducible apply freshBytes_evolves
    | with_reducible apply answer_evolves
    | (intro)
    | split
    | dsimp only
    | unfold Evolves; dsimp only
    | unfold Evolves

theorem execPointCeiling_evolves {s0} (x0 x1 x2) (h : Evolves s0 x2) : OutEvolves s0 (execPointCeiling x0 x1 x2) := by
  unfold execPointCeiling
  repeat' first
    | with_reducible assumption
    | with_reducible apply outEvolves_next
    | with_reducible apply serve_evolves
    | with_reducible apply answer_evolves
    | with_reducible apply setCeiling_evolves
    | (intro)
    | split
    | dsimp only
    | unfold Evolves; dsimp only
    | unfold Evolves

theorem execPowerCap_evolves {s0} (x0 x1 x2) (h : Evolves s0 x2) : OutEvolves s0 (execPowerCap x0 x1 x2) := by
  unfold execPowerCap
  repeat' first
    | with_reducible assumption
    | with_reducible apply outEvolves_next
    | with_reducible apply serve_evolves
    | with_reducible apply answer_evolves
    | with_reducible apply setF_evolves
    | (intro)
    | split
    | dsimp only
    | unfold Evolves; dsimp only
    | unfold Evolves

theorem execPwrStatus_evolves {s0} (x0 x1 x2) (h : Evolves s0 x2) : OutEvolves s0 (execPwrStatus x0 x1 x2) := by
  unfold execPwrStatus
  repeat' first
    | with_reducible assumption
    | with_reducible apply outEvolves_next
    | with_reducible apply serve_evolves
    | with_reducible apply freshBytes_evolves
    | with_reducible apply answer_evolves
    | (intro)
    | split
    | dsimp only
    | unfold Evolves; dsimp only
    | unfold Evolves

theorem execRecoveryWrite_evolves {s0} (x0 x1 x2) (h : Evolves s0 x2) : OutEvolves s0 (execRecoveryWrite x0 x1 x2) := by
  unfold execRecoveryWrite
  repeat' first
    | with_reducible assumption
    | with_reducible apply outEvolves_next
    | with_reducible apply serve_evolves
    | with_reducible apply answer_evolves
    | with_reducible apply flashWrite_evolves
    | with_reducible apply eraseFresh_evolves
    | (intro)
    | split
    | dsimp only
    | unfold Evolves; dsimp only
    | unfold Evolves

theorem execSvnAdvance_evolves (x0 x1) (s : State) : ∃ v, (v ≤ s.fuse.svn ∨ v ≤ runningSvn s) ∧
    OutEvolves { s with fuse := { s.fuse with svn := max s.fuse.svn v } } (execSvnAdvance x0 x1 s) := by
  have same : { s with fuse := { s.fuse with svn := max s.fuse.svn s.fuse.svn } } = s := by simp
  unfold execSvnAdvance serve
  split
  · exact ⟨s.fuse.svn, .inl (Nat.le_refl _), by rw [same]; exact outEvolves_next (evolves_refl s)⟩
  split
  · dsimp only
    split
    · exact ⟨s.fuse.svn, .inl (Nat.le_refl _), by rw [same]; exact outEvolves_next (answer_evolves _ _ _ _ _ (evolves_refl s))⟩
    · rename_i e _ _ h
      exact ⟨_, .inr (Nat.le_of_not_lt h), outEvolves_next (answer_evolves _ _ _ _ _ (evolves_refl _))⟩
  · exact ⟨s.fuse.svn, .inl (Nat.le_refl _), by rw [same]; exact outEvolves_next (answer_evolves _ _ _ _ _ (evolves_refl s))⟩

theorem execThermalLimit_evolves {s0} (x0 x1 x2) (h : Evolves s0 x2) : OutEvolves s0 (execThermalLimit x0 x1 x2) := by
  unfold execThermalLimit
  repeat' first
    | with_reducible assumption
    | with_reducible apply outEvolves_next
    | with_reducible apply serve_evolves
    | with_reducible apply answer_evolves
    | with_reducible apply setF_evolves
    | (intro)
    | split
    | dsimp only
    | unfold Evolves; dsimp only
    | unfold Evolves

theorem dumpEnable_evolves {s0} (x0) (h : Evolves s0 x0) : Evolves s0 (dumpEnable x0) := by
  unfold dumpEnable
  repeat' first
    | with_reducible assumption
    | with_reducible apply setRing_evolves
    | with_reducible apply setB_evolves
    | split
    | dsimp only
    | unfold Evolves; dsimp only
    | unfold Evolves

theorem dumpWrite_evolves {s0} (x0) (h : Evolves s0 x0) : Evolves s0 (dumpWrite x0) := by
  unfold dumpWrite
  repeat' first
    | with_reducible assumption
    | with_reducible apply bumpSat_evolves
    | with_reducible apply dmaView_evolves
    | with_reducible apply setRing_evolves
    | with_reducible apply hwWrite_evolves
    | split
    | dsimp only
    | unfold Evolves; dsimp only
    | unfold Evolves

theorem telClear_evolves {s0} (x0 x1) (h : Evolves s0 x0) : Evolves s0 (telClear x0 x1) := by
  unfold telClear
  repeat' first
    | with_reducible assumption
    | with_reducible apply setF_evolves
    | split
    | dsimp only
    | unfold Evolves; dsimp only
    | unfold Evolves

theorem execTelCntClear_evolves {s0} (x0 x1) (h : Evolves s0 x1) : OutEvolves s0 (execTelCntClear x0 x1) := by
  unfold execTelCntClear
  repeat' first
    | with_reducible assumption
    | with_reducible apply outEvolves_next
    | with_reducible apply telClear_evolves
    | split
    | dsimp only
    | unfold Evolves; dsimp only
    | unfold Evolves

theorem telCommit_evolves {s0} (x0) (h : Evolves s0 x0) : Evolves s0 (telCommit x0) := by
  unfold telCommit
  repeat' first
    | with_reducible assumption
    | with_reducible apply commitTable_evolves
    | with_reducible apply telClear_evolves
    | with_reducible apply setB_evolves
    | with_reducible refine foldl_evolves _ _ _ (fun _ _ _ => ?_) ?_
    | with_reducible refine foldl2_evolves _ _ _ (fun _ _ _ => ?_) ?_
    | with_reducible refine foldl3_evolves _ _ _ (fun _ _ _ => ?_) ?_
    | with_reducible refine foldl4_evolves _ _ _ (fun _ _ _ => ?_) ?_
    | with_reducible apply evolves_shadow_del
    | split
    | dsimp only
    | unfold Evolves; dsimp only
    | unfold Evolves

theorem execTelCommit_evolves {s0} (x0) (h : Evolves s0 x0) : OutEvolves s0 (execTelCommit x0) := by
  unfold execTelCommit
  repeat' first
    | with_reducible assumption
    | with_reducible apply outEvolves_next
    | with_reducible apply telCommit_evolves
    | split
    | dsimp only
    | unfold Evolves; dsimp only
    | unfold Evolves

theorem execTelDumpEnable_evolves {s0} (x0) (h : Evolves s0 x0) : OutEvolves s0 (execTelDumpEnable x0) := by
  unfold execTelDumpEnable
  repeat' first
    | with_reducible assumption
    | with_reducible apply outEvolves_next
    | with_reducible apply dumpEnable_evolves
    | split
    | dsimp only
    | unfold Evolves; dsimp only
    | unfold Evolves

theorem execTelDumpPeriod_evolves {s0} (x0 x1 x2) (h : Evolves s0 x2) : OutEvolves s0 (execTelDumpPeriod x0 x1 x2) := by
  unfold execTelDumpPeriod
  repeat' first
    | with_reducible assumption
    | with_reducible apply outEvolves_next
    | with_reducible apply dumpWrite_evolves
    | split
    | dsimp only
    | unfold Evolves; dsimp only
    | unfold Evolves

theorem sampCtl_evolves {s0} (x0 x1 x2 x3 x4) (h : Evolves s0 x0) : Evolves s0 (sampCtl x0 x1 x2 x3 x4) := by
  unfold sampCtl
  repeat' first
    | with_reducible assumption
    | with_reducible apply setRing_evolves
    | with_reducible apply setF_evolves
    | with_reducible apply setB_evolves
    | split
    | dsimp only
    | unfold Evolves; dsimp only
    | unfold Evolves

theorem execTelSampCtlWrite_evolves {s0} (x0 x1 x2 x3 x4) (h : Evolves s0 x4) : OutEvolves s0 (execTelSampCtlWrite x0 x1 x2 x3 x4) := by
  unfold execTelSampCtlWrite
  repeat' first
    | with_reducible assumption
    | with_reducible apply outEvolves_next
    | with_reducible apply sampCtl_evolves
    | split
    | dsimp only
    | unfold Evolves; dsimp only
    | unfold Evolves

theorem after_evolves {s0} (x0 x1) (h : Evolves s0 x0) (ho : OutEvolves s0 x1) : Evolves s0 (after x0 x1) := by
  unfold after
  split
  · exact ho
  · exact id h

theorem noteAccess_evolves {s0} (x0 x1 x2 x3) (h : Evolves s0 x0) : Evolves s0 (noteAccess x0 x1 x2 x3) := by
  unfold noteAccess
  repeat' first
    | with_reducible assumption
    | with_reducible apply recordAccess_evolves
    | split
    | dsimp only
    | unfold Evolves; dsimp only
    | unfold Evolves

theorem writeFld_evolves {s0} (x0 x1 x2 x3 x4) (h : Evolves s0 x0) : Evolves s0 (writeFld x0 x1 x2 x3 x4) := by
  unfold writeFld
  repeat' first
    | with_reducible assumption
    | with_reducible apply ringHead_evolves
    | with_reducible apply setF_evolves
    | with_reducible apply setShadow_evolves
    | split
    | dsimp only
    | unfold Evolves; dsimp only
    | unfold Evolves

theorem writeFields_evolves {s0} (x0 x1 x2 x3) (h : Evolves s0 x0) : Evolves s0 (writeFields x0 x1 x2 x3) := by
  unfold writeFields
  repeat' first
    | with_reducible assumption
    | with_reducible apply writeFld_evolves
    | with_reducible refine foldl_evolves _ _ _ (fun _ _ _ => ?_) ?_
    | with_reducible refine foldl2_evolves _ _ _ (fun _ _ _ => ?_) ?_
    | with_reducible refine foldl3_evolves _ _ _ (fun _ _ _ => ?_) ?_
    | with_reducible refine foldl4_evolves _ _ _ (fun _ _ _ => ?_) ?_
    | split
    | dsimp only
    | unfold Evolves; dsimp only
    | unfold Evolves

theorem writeHif_evolves {s0} (x0 x1 x2 x3) (h : Evolves s0 x0) : Evolves s0 (writeHif x0 x1 x2 x3) := by
  unfold writeHif
  repeat' first
    | with_reducible assumption
    | with_reducible apply mbxSubmit_evolves
    | with_reducible apply mbxPop_evolves
    | with_reducible apply writeFields_evolves
    | split
    | dsimp only
    | unfold Evolves; dsimp only
    | unfold Evolves

theorem writeCfg_evolves {s0} (x0 x1 x2 x3 x4) (h : Evolves s0 x0) : Evolves s0 (writeCfg x0 x1 x2 x3 x4) := by
  unfold writeCfg
  repeat' first
    | with_reducible assumption
    | with_reducible apply featCommit_evolves
    | with_reducible apply setHostCfg_evolves
    | with_reducible apply writeFields_evolves
    | split
    | dsimp only
    | unfold Evolves; dsimp only
    | unfold Evolves

theorem writePwr_evolves {s0} (x0 x1 x2 x3 x4) (h : Evolves s0 x0) : Evolves s0 (writePwr x0 x1 x2 x3 x4) := by
  unfold writePwr
  repeat' first
    | with_reducible assumption
    | with_reducible apply writeClaims_evolves
    | with_reducible apply writeTarget_evolves
    | with_reducible apply writeFields_evolves
    | with_reducible apply pdSwitch_evolves
    | with_reducible refine foldl_evolves _ _ _ (fun _ _ _ => ?_) ?_
    | with_reducible refine foldl2_evolves _ _ _ (fun _ _ _ => ?_) ?_
    | with_reducible refine foldl3_evolves _ _ _ (fun _ _ _ => ?_) ?_
    | with_reducible refine foldl4_evolves _ _ _ (fun _ _ _ => ?_) ?_
    | split
    | dsimp only
    | unfold Evolves; dsimp only
    | unfold Evolves

theorem writeMgtCtl_evolves {s0} (x0 x1 x2 x3) (h : Evolves s0 x0) : Evolves s0 (writeMgtCtl x0 x1 x2 x3) := by
  unfold writeMgtCtl
  repeat' first
    | with_reducible assumption
    | with_reducible apply pairReset_evolves
    | with_reducible apply setB_evolves
    | split
    | dsimp only
    | unfold Evolves; dsimp only
    | unfold Evolves

theorem writeMgt_evolves {s0} (x0 x1 x2 x3 x4) (h : Evolves s0 x0) : Evolves s0 (writeMgt x0 x1 x2 x3 x4) := by
  unfold writeMgt
  repeat' first
    | with_reducible assumption
    | with_reducible apply writeMgtCtl_evolves
    | with_reducible apply writeFields_evolves
    | split
    | dsimp only
    | unfold Evolves; dsimp only
    | unfold Evolves

theorem writeKcmd_evolves {s0} (x0 x1 x2) (h : Evolves s0 x0) : Evolves s0 (writeKcmd x0 x1 x2) := by
  unfold writeKcmd
  repeat' first
    | with_reducible assumption
    | with_reducible apply kcmd_evolves
    | with_reducible apply eraseRange_evolves
    | with_reducible apply linkRekey_evolves
    | with_reducible apply pairSet_evolves
    | split
    | dsimp only
    | unfold Evolves; dsimp only
    | unfold Evolves

theorem writeSec_evolves {s0} (x0 x1 x2 x3 x4) (h : Evolves s0 x0) : Evolves s0 (writeSec x0 x1 x2 x3 x4) := by
  unfold writeSec
  repeat' first
    | with_reducible assumption
    | with_reducible apply writeKcmd_evolves
    | with_reducible apply setF_evolves
    | with_reducible apply writeFields_evolves
    | split
    | dsimp only
    | unfold Evolves; dsimp only
    | unfold Evolves

theorem writeDumpCtl_evolves {s0} (x0 x1 x2) (h : Evolves s0 x0) : Evolves s0 (writeDumpCtl x0 x1 x2) := by
  unfold writeDumpCtl
  repeat' first
    | with_reducible assumption
    | with_reducible apply setB_evolves
    | with_reducible apply writeFields_evolves
    | with_reducible apply dumpEnable_evolves
    | split
    | dsimp only
    | unfold Evolves; dsimp only
    | unfold Evolves

theorem writeTel_evolves {s0} (x0 x1 x2 x3) (h : Evolves s0 x0) : Evolves s0 (writeTel x0 x1 x2 x3) := by
  unfold writeTel
  repeat' first
    | with_reducible assumption
    | with_reducible apply telCommit_evolves
    | with_reducible apply writeDumpCtl_evolves
    | with_reducible apply sampCtl_evolves
    | with_reducible apply telClear_evolves
    | with_reducible apply writeFields_evolves
    | split
    | dsimp only
    | unfold Evolves; dsimp only
    | unfold Evolves

theorem writeQmg_evolves {s0} (x0 x1 x2 x3) (h : Evolves s0 x0) : Evolves s0 (writeQmg x0 x1 x2 x3) := by
  unfold writeQmg
  repeat' first
    | with_reducible assumption
    | with_reducible apply writeFields_evolves
    | with_reducible apply after_evolves
    | with_reducible apply execReadCtx_evolves
    | with_reducible apply execWriteCtx_evolves
    | with_reducible apply execEnable_evolves
    | with_reducible apply execDisableDrain_evolves
    | with_reducible apply execDisableAbort_evolves
    | with_reducible apply execClearPred_evolves
    | split
    | dsimp only
    | unfold Evolves; dsimp only
    | unfold Evolves

theorem writeAdmMap_evolves {s0} (x0 x1) (h : Evolves s0 x0) : Evolves s0 (writeAdmMap x0 x1) := by
  unfold writeAdmMap
  repeat' first
    | with_reducible assumption
    | split
    | dsimp only
    | unfold Evolves; dsimp only
    | unfold Evolves

theorem writeAdm_evolves {s0} (x0 x1 x2 x3) (h : Evolves s0 x0) : Evolves s0 (writeAdm x0 x1 x2 x3) := by
  unfold writeAdm
  repeat' first
    | with_reducible assumption
    | with_reducible apply writeAdmMap_evolves
    | with_reducible apply bktRead_evolves
    | with_reducible apply bktWrite_evolves
    | with_reducible apply writeFields_evolves
    | split
    | dsimp only
    | unfold Evolves; dsimp only
    | unfold Evolves

theorem writeTenant_evolves {s0} (x0 x1 x2) (h : Evolves s0 x0) : Evolves s0 (writeTenant x0 x1 x2) := by
  unfold writeTenant
  repeat' first
    | with_reducible assumption
    | with_reducible apply after_evolves
    | with_reducible apply execTenantCreate_evolves
    | with_reducible apply setB_evolves
    | with_reducible apply execTenantRetire_evolves
    | split
    | dsimp only
    | unfold Evolves; dsimp only
    | unfold Evolves

theorem writeRcmd_evolves {s0} (x0 x1) (h : Evolves s0 x0) : Evolves s0 (writeRcmd x0 x1) := by
  unfold writeRcmd
  repeat' first
    | with_reducible assumption
    | with_reducible apply after_evolves
    | with_reducible apply execInvalidateRange_evolves
    | with_reducible apply execInvalidateTenant_evolves
    | with_reducible apply revokeBy_evolves
    | with_reducible apply execTableSwap_evolves
    | with_reducible apply execResmapClear_evolves
    | with_reducible apply setF_evolves
    | with_reducible apply rcmd_evolves
    | split
    | dsimp only
    | unfold Evolves; dsimp only
    | unfold Evolves

theorem writeXtu_evolves {s0} (x0 x1 x2 x3) (h : Evolves s0 x0) : Evolves s0 (writeXtu x0 x1 x2 x3) := by
  unfold writeXtu
  repeat' first
    | with_reducible assumption
    | with_reducible apply writeTenant_evolves
    | with_reducible apply writeRcmd_evolves
    | with_reducible apply after_evolves
    | with_reducible apply execXtuMigDone_evolves
    | with_reducible apply execMigEnClear_evolves
    | with_reducible apply writeFields_evolves
    | split
    | dsimp only
    | unfold Evolves; dsimp only
    | unfold Evolves

theorem writeDirCmd_evolves {s0} (x0 x1) (h : Evolves s0 x0) : Evolves s0 (writeDirCmd x0 x1) := by
  unfold writeDirCmd
  repeat' first
    | with_reducible assumption
    | with_reducible apply setF_evolves
    | with_reducible apply after_evolves
    | with_reducible apply execBinvRange_evolves
    | with_reducible apply execAgentRelease_evolves
    | split
    | dsimp only
    | unfold Evolves; dsimp only
    | unfold Evolves

theorem writeDir_evolves {s0} (x0 x1 x2 x3) (h : Evolves s0 x0) : Evolves s0 (writeDir x0 x1 x2 x3) := by
  unfold writeDir
  repeat' first
    | with_reducible assumption
    | with_reducible apply commitDir_evolves
    | with_reducible apply writeDirCmd_evolves
    | with_reducible apply writeFields_evolves
    | split
    | dsimp only
    | unfold Evolves; dsimp only
    | unfold Evolves

theorem writeNme_evolves {s0} (x0 x1 x2 x3 x4) (h : Evolves s0 x0) : Evolves s0 (writeNme x0 x1 x2 x3 x4) := by
  unfold writeNme
  repeat' first
    | with_reducible assumption
    | with_reducible apply commitTable_evolves
    | with_reducible apply writeFields_evolves
    | with_reducible apply after_evolves
    | with_reducible apply execNmeRetire_evolves
    | split
    | dsimp only
    | unfold Evolves; dsimp only
    | unfold Evolves

theorem writeDma_evolves {s0} (x0 x1 x2 x3) (h : Evolves s0 x0) : Evolves s0 (writeDma x0 x1 x2 x3) := by
  unfold writeDma
  repeat' first
    | with_reducible assumption
    | with_reducible apply writeFields_evolves
    | with_reducible apply after_evolves
    | with_reducible apply execDmaMigCmd_evolves
    | with_reducible apply execDmaMigPop_evolves
    | split
    | dsimp only
    | unfold Evolves; dsimp only
    | unfold Evolves

theorem writeSmc_evolves {s0} (x0 x1 x2 x3 x4) (h : Evolves s0 x0) : Evolves s0 (writeSmc x0 x1 x2 x3 x4) := by
  unfold writeSmc
  repeat' first
    | with_reducible assumption
    | with_reducible apply commitSmc_evolves
    | with_reducible apply lockLayout_evolves
    | with_reducible apply setF_evolves
    | with_reducible apply retrainPass_evolves
    | with_reducible apply writeFields_evolves
    | split
    | dsimp only
    | unfold Evolves; dsimp only
    | unfold Evolves

theorem writeFlowCmd_evolves {s0} (x0 x1) (h : Evolves s0 x0) : Evolves s0 (writeFlowCmd x0 x1) := by
  unfold writeFlowCmd
  repeat' first
    | with_reducible assumption
    | with_reducible apply after_evolves
    | with_reducible apply execNieFlowOpen_evolves
    | with_reducible apply execNieFlowClose_evolves
    | with_reducible apply flowCmd_evolves
    | split
    | dsimp only
    | unfold Evolves; dsimp only
    | unfold Evolves

theorem writeNie_evolves {s0} (x0 x1 x2 x3) (h : Evolves s0 x0) : Evolves s0 (writeNie x0 x1 x2 x3) := by
  unfold writeNie
  repeat' first
    | with_reducible assumption
    | with_reducible apply writeFlowCmd_evolves
    | with_reducible apply writeFields_evolves
    | split
    | dsimp only
    | unfold Evolves; dsimp only
    | unfold Evolves

theorem writeRouter_evolves {s0} (x0 x1 x2 x3) (h : Evolves s0 x0) : Evolves s0 (writeRouter x0 x1 x2 x3) := by
  unfold writeRouter
  repeat' first
    | with_reducible assumption
    | with_reducible apply commitRouter_evolves
    | with_reducible apply tblWrite_evolves
    | with_reducible apply writeFields_evolves
    | split
    | dsimp only
    | unfold Evolves; dsimp only
    | unfold Evolves

theorem writeFptCtl_evolves {s0} (x0 x1 x2) (h : Evolves s0 x0) : Evolves s0 (writeFptCtl x0 x1 x2) := by
  unfold writeFptCtl
  repeat' first
    | with_reducible assumption
    | with_reducible apply setF_evolves
    | with_reducible apply portEnable_evolves
    | with_reducible apply portDisable_evolves
    | with_reducible apply portRetrain_evolves
    | split
    | dsimp only
    | unfold Evolves; dsimp only
    | unfold Evolves

theorem writeFpt_evolves {s0} (x0 x1 x2 x3) (h : Evolves s0 x0) : Evolves s0 (writeFpt x0 x1 x2 x3) := by
  unfold writeFpt
  repeat' first
    | with_reducible assumption
    | with_reducible apply writeFptCtl_evolves
    | with_reducible apply encCheck_evolves
    | with_reducible apply setEnc_evolves
    | with_reducible apply setVc_evolves
    | with_reducible apply writeFields_evolves
    | split
    | dsimp only
    | unfold Evolves; dsimp only
    | unfold Evolves

theorem writeReg_evolves {s0} (x0 x1 x2 x3 x4 x5) (h : Evolves s0 x0) : Evolves s0 (writeReg x0 x1 x2 x3 x4 x5) := by
  unfold writeReg
  repeat' first
    | with_reducible assumption
    | with_reducible apply writeHif_evolves
    | with_reducible apply writeCfg_evolves
    | with_reducible apply writePwr_evolves
    | with_reducible apply writeMgt_evolves
    | with_reducible apply writeSec_evolves
    | with_reducible apply writeTel_evolves
    | with_reducible apply writeQmg_evolves
    | with_reducible apply writeAdm_evolves
    | with_reducible apply writeXtu_evolves
    | with_reducible apply writeDir_evolves
    | with_reducible apply writeNme_evolves
    | with_reducible apply writeDma_evolves
    | with_reducible apply commitXbar_evolves
    | with_reducible apply writeFields_evolves
    | with_reducible apply writeSmc_evolves
    | with_reducible apply parRetire_evolves
    | with_reducible apply writeNie_evolves
    | with_reducible apply writeRouter_evolves
    | with_reducible apply writeFpt_evolves
    | split
    | dsimp only
    | unfold Evolves; dsimp only
    | unfold Evolves

theorem writeOne_evolves {s0} (x0 x1 x2 x3 x4 x5) (h : Evolves s0 x0) : Evolves s0 (writeOne x0 x1 x2 x3 x4 x5) := by
  unfold writeOne
  repeat' first
    | with_reducible assumption
    | with_reducible apply noteAccess_evolves
    | with_reducible apply writeReg_evolves
    | split
    | dsimp only
    | unfold Evolves; dsimp only
    | unfold Evolves

theorem writeAt_evolves {s0} (x0 x1 x2 x3 x4 x5) (h : Evolves s0 x0) : Evolves s0 (writeAt x0 x1 x2 x3 x4 x5) := by
  unfold writeAt
  repeat' first
    | with_reducible assumption
    | with_reducible apply noteAccess_evolves
    | with_reducible apply writeOne_evolves
    | split
    | dsimp only
    | unfold Evolves; dsimp only
    | unfold Evolves

theorem writePair_evolves {s0} (x0 x1 x2 x3 x4 x5) (h : Evolves s0 x0) : Evolves s0 (writePair x0 x1 x2 x3 x4 x5) := by
  unfold writePair
  repeat' first
    | with_reducible assumption
    | with_reducible apply writeAt_evolves
    | with_reducible apply gateWrite_evolves
    | split
    | dsimp only
    | unfold Evolves; dsimp only
    | unfold Evolves

theorem gpioWrite_evolves {s0} (x0 x1 x2) (h : Evolves s0 x0) : Evolves s0 (gpioWrite x0 x1 x2) := by
  unfold gpioWrite
  repeat' first
    | with_reducible assumption
    | with_reducible apply gateWrite_evolves
    | split
    | dsimp only
    | unfold Evolves; dsimp only
    | unfold Evolves

theorem execRegisterWrite_evolves {s0} (x0 x1 x2 x3 x4 x5) (h : Evolves s0 x5) : OutEvolves s0 (execRegisterWrite x0 x1 x2 x3 x4 x5) := by
  unfold execRegisterWrite
  repeat' first
    | with_reducible assumption
    | with_reducible apply outEvolves_next
    | with_reducible apply writeAt_evolves
    | with_reducible apply emit_evolves
    | with_reducible apply aerNote_evolves
    | with_reducible apply writePair_evolves
    | with_reducible apply gpioWrite_evolves
    | split
    | dsimp only
    | unfold Evolves; dsimp only
    | unfold Evolves

end Sys2Proof.Machine
end

