-- ==== Sys2Proof/Laws/Layout.lean ====
section
/-!
SUPPORT. Laws/Layout.lean: what a place in a stack's channels says of the frame and the byte that lie there.
-/
namespace Sys2Proof.Machine
open Sys2Proof

/-- The channel unit of a layout is between 1 and 16,384 bytes and divides 16,384. -/
theorem chanUnit_dvd (s : State) (n : Nat) : ∃ k, min (profGrain s n) 16384 = 2 ^ k ∧ 8 ≤ k ∧ k ≤ 14 := by
  have h : 8 ≤ clamp 8 16 (getF s Reg.smcProf_grain_log2 n) ∧ clamp 8 16 (getF s Reg.smcProf_grain_log2 n) ≤ 16 := by
    unfold clamp; split
    · omega
    · split <;> omega
  simp only [profGrain]
  generalize clamp 8 16 (getF s Reg.smcProf_grain_log2 n) = e at h
  have h2 : e = 8 ∨ e = 9 ∨ e = 10 ∨ e = 11 ∨ e = 12 ∨ e = 13 ∨ e = 14 ∨ e = 15 ∨ e = 16 := by omega
  rcases h2 with h | h | h | h | h | h | h | h | h <;> subst h
  · exact ⟨8, by decide, by decide, by decide⟩
  · exact ⟨9, by decide, by decide, by decide⟩
  · exact ⟨10, by decide, by decide, by decide⟩
  · exact ⟨11, by decide, by decide, by decide⟩
  · exact ⟨12, by decide, by decide, by decide⟩
  · exact ⟨13, by decide, by decide, by decide⟩
  · exact ⟨14, by decide, by decide, by decide⟩
  · exact ⟨14, by decide, by decide, by decide⟩
  · exact ⟨14, by decide, by decide, by decide⟩

/-- A data frame of a stack is a physical frame of the stack (R210, R252). -/
theorem physFrame_lt (s : State) (st d : Nat) (h : d < framesOf s st) : physFrame s st d < 1572864 := by
  unfold physFrame
  unfold framesOf at h
  generalize memberIndex s st = i at *
  cases hp : s.mem.prot
  · simp [hp] at *; exact h
  · simp only [hp, if_true] at *
    by_cases h6 : i ≤ 6
    · rw [if_pos h6] at h; split <;> omega
    · rw [if_neg h6] at h; split <;> omega

/-- Different data frames of a stack are different physical frames. -/
theorem physFrame_inj (s : State) (st d e : Nat) (h : physFrame s st d = physFrame s st e) : d = e := by
  unfold physFrame at h
  generalize memberIndex s st = i at *
  cases hp : s.mem.prot
  · simpa [hp] using h
  · simp only [hp, if_true] at h
    split at h <;> split at h <;> omega

/-- Where a byte of a frame lies: its stack, its physical frame and its place in the channels, apart. -/
theorem frameByte_split (s : State) (st d y k n : Nat) (g : Nat) (hk : min g 16384 = 2 ^ k) (hn : 2 ^ k * n = 16384) (hy : y < 65536)
    (hd : physFrame s st d < 1572864) :
    frameByte s st d y g / chanBytes / 32 = st ∧
    frameByte s st d y g / chanBytes % 32 = 4 * (physFrame s st d % 8) + y / 2 ^ k % 4 ∧
    frameByte s st d y g % chanBytes / 16384 = physFrame s st d / 8 ∧
    frameByte s st d y g % chanBytes % 16384 = y / 2 ^ k / 4 * 2 ^ k + y % 2 ^ k := by
  have hpos : 0 < 2 ^ k := Nat.two_pow_pos k
  have h1 : y % 2 ^ k < 2 ^ k := Nat.mod_lt _ hpos
  have h2 : y / 2 ^ k / 4 < n := by
    rw [Nat.div_div_eq_div_mul]
    apply Nat.div_lt_of_lt_mul
    have : 2 ^ k * 4 * n = 65536 := by rw [Nat.mul_right_comm, hn]
    omega
  have h3 : y / 2 ^ k / 4 * 2 ^ k + y % 2 ^ k < 16384 := by
    have := Nat.mul_le_mul_right (2 ^ k) (Nat.succ_le_of_lt h2)
    rw [Nat.succ_mul, Nat.mul_comm n] at this
    omega
  have h4 : y / 2 ^ k % 4 < 4 := Nat.mod_lt _ (by decide)
  have e : frameByte s st d y g = (st * 32 + (4 * (physFrame s st d % 8) + y / 2 ^ k % 4)) * chanBytes
      + (physFrame s st d / 8 * 16384 + (y / 2 ^ k / 4 * 2 ^ k + y % 2 ^ k)) := by
    unfold frameByte
    simp only [hk, Nat.add_assoc]
  rw [e]
  generalize y / 2 ^ k / 4 * 2 ^ k + y % 2 ^ k = w at *
  generalize physFrame s st d = p at *
  generalize y / 2 ^ k % 4 = c at *
  unfold chanBytes
  clear e hk hn hy h1 h2 hpos
  have hB : p / 8 * 16384 + w < 3221225472 := by omega
  have hC : 4 * (p % 8) + c < 32 := by omega
  have d1 : ∀ a : Nat, (a * 3221225472 + (p / 8 * 16384 + w)) / 3221225472 = a := by intro a; omega
  have d2 : ∀ a : Nat, (a * 3221225472 + (p / 8 * 16384 + w)) % 3221225472 = p / 8 * 16384 + w := by intro a; omega
  rw [d1, d2]
  generalize 4 * (p % 8) + c = x at hC ⊢
  refine ⟨by omega, by omega, by omega, by omega⟩

end Sys2Proof.Machine
end

