-- ==== Sys2Proof/Tests/Slice0.lean ====
section
/-! SUPPORT. The tests: ill-formed commands that the form check refuses, and for every statement with hypotheses a state and operands
that meet them. -/

namespace Sys2Proof.Tests

open Sys2Proof Sys2Proof.Machine

set_option maxRecDepth 100000

/-- A granule of 64 zero bytes. -/
def okGran : Gran := ⟨List.replicate 64 0, 0, false, false⟩
/-- A granule of 63 bytes. -/
def badGran0 : Gran := ⟨List.replicate 63 0, 0, false, false⟩
/-- A packet with every field zero. -/
def okPkt : Pkt := { dst := 0, src := 0, job := 0, tenant := 0, ptype := 0, vc := 0, epoch := false, flow := 0, seq := 0, reqId := 0, length := 0,
                     addr := 0, admClass := 0, fathom := 0, icls := 0, affEn := false, affStack := 0, keyTenant := 0, isPpa := false, hops := 0,
                     status := 0, dstRank := false, rsv := 0, hcrc := 0, body := 0, data := [] }
/-- A packet with a node number of 15 bits. -/
def badPkt : Pkt := { okPkt with dst := 2 ^ 14 }
/-- A flit of 64 zero bytes. -/
def okFlit : Flit := ⟨List.replicate 64 0, 0, false, 0, 0⟩
/-- A frame of four idle flits. -/
def okFrame : Frame := ⟨List.replicate 4 okFlit, 0, false, 0, false, 0, false, 0, 0⟩
/-- A frame of three flits. -/
def badFrame : Frame := { okFrame with flits := List.replicate 3 okFlit }
/-- A plain exchange with a peer. -/
def okCfg : CfgInfo := ⟨0, 0, false, false, false, 0, 0, 0, 0, 0⟩
/-- A peer with a node number of 15 bits. -/
def badCfg : CfgInfo := { okCfg with node := 2 ^ 14 }
/-- A start at which everything passes. -/
def okStart : StartEnv := ⟨false, true, 0, 0, 0, 0, 0, none, false, 0, 0, 0⟩
/-- A start that names a verification step beyond the last. -/
def badStart : StartEnv := { okStart with rot0 := 6 }
/-- A host that allows 512 bytes of payload and reads of 4 KiB. -/
def okHost : HostCfg := ⟨512, 4096, true, true⟩
/-- A host with a payload size that PCIe does not have. -/
def badHost : HostCfg := { okHost with mps := 100 }
/-- A register write that meets nothing. -/
def okEnv : RegEnv := ⟨okHost, ⟨0, false, 0⟩, 0, []⟩
/-- A register write with an interleave class of three bits. -/
def badEnv : RegEnv := { okEnv with place := ⟨4, false, 0⟩ }
/-- An idle microsecond. -/
def okUtil : UtilSample :=
  ⟨List.replicate 12 0, 0, List.replicate 12 0, 0, List.replicate 12 0, List.replicate 12 0, List.replicate 12 0⟩
/-- A sample without its stacks. -/
def badUtil : UtilSample := { okUtil with mem := [] }

/-- Each packet breaks one field of the header or its data. -/
theorem test_illformed_packets : List.all
    [{ okPkt with dst := 2 ^ 14 }, { okPkt with src := 2 ^ 14 }, { okPkt with job := 4096 }, { okPkt with tenant := 4096 },
     { okPkt with ptype := 256 }, { okPkt with vc := 8 }, { okPkt with flow := 65536 }, { okPkt with seq := 65536 },
     { okPkt with reqId := 2 ^ 24 }, { okPkt with length := 256 }, { okPkt with addr := 2 ^ 56 }, { okPkt with admClass := 4 },
     { okPkt with fathom := 16 }, { okPkt with icls := 4 }, { okPkt with affStack := 16 }, { okPkt with keyTenant := 4096 },
     { okPkt with hops := 256 }, { okPkt with status := 256 }, { okPkt with rsv := 2 ^ 13 }, { okPkt with hcrc := 65536 },
     { okPkt with body := 2 ^ 256 }, { okPkt with data := [badGran0] }]
    (fun p => !pktOk p) = true := by decide

/-- Each frame breaks one field of its flits or control word. -/
theorem test_illformed_frames : List.all
    [{ okFrame with flits := List.replicate 3 okFlit }, { okFrame with flits := List.replicate 4 ⟨[], 0, false, 0, 0⟩ },
     { okFrame with flits := List.replicate 4 { okFlit with guard := 65536 } },
     { okFrame with flits := List.replicate 4 { okFlit with ty := 16 } },
     { okFrame with flits := List.replicate 4 { okFlit with vc := 8 } }, { okFrame with seq := 4096 }, { okFrame with ack := 4096 },
     { okFrame with xoff := 32 }, { okFrame with crc := 2 ^ 32 }]
    (fun f => !frameOk f) = true := by decide

/-- Each exchange breaks one field. -/
theorem test_illformed_peers : List.all
    [{ okCfg with node := 2 ^ 14 }, { okCfg with expected := 4096 }, { okCfg with nonce := 2 ^ 256 }, { okCfg with rxFail := 512 },
     { okCfg with txFail := 512 }]
    (fun c => !cfgOk c) = true := by decide

/-- Each start breaks one field. -/
theorem test_illformed_starts : List.all
    [{ okStart with rot0 := 6 }, { okStart with rot1 := 6 }, { okStart with mgt0 := 6 }, { okStart with mgt1 := 6 },
     { okStart with trainFail := 4096 }, { okStart with diagA := 256 }, { okStart with diagB := 256 }, { okStart with straps := 4 },
     { okStart with link := some (7, 16, false) }, { okStart with link := some (1, 17, false) }]
    (fun e => !startOk e) = true := by decide

/-- Each sample breaks one field. -/
theorem test_illformed_samples : List.all
    [{ okUtil with mem := [] }, { okUtil with fab := [] }, { okUtil with grants := [] }, { okUtil with grants2 := [] },
     { okUtil with grants3 := [] }, { okUtil with mem := List.replicate 12 65537 }, { okUtil with fab := List.replicate 12 65537 },
     { okUtil with eng := 65537 }]
    (fun u => !utilOk u) = true := by decide

/-- The operand checks refuse a granule with a guard of 17 bits, maps and errors out of order, requests at a position that presents none, an image
of more than 128 bytes and an affinity stack of five bits. -/
theorem test_illformed_operands : granOkForm { okGran with guard := 65536 } = false ∧ granMapOk [(1, okGran), (0, okGran)] = false ∧
    granListsOk [(1, []), (0, [])] = false ∧ errsOk [(1, 1), (0, 1)] = false ∧ errsOk [(0, 0)] = false ∧ errsOk [(0, 256)] = false ∧
    reqsOk [⟨7, 0, 0, 0, none, [], false, none, 0⟩] = false ∧ reqsOk [⟨40, 0, 0, 0, none, [], false, none, 0⟩] = false ∧
    reqsOk [⟨0, 0, 3221225472, 0, none, [], false, none, 0⟩] = false ∧ reqsOk [⟨0, 0, 0, 0, some badGran0, [], false, none, 0⟩] = false ∧
    reqsOk [⟨0, 0, 0, 0, none, [okGran], false, none, 0⟩] = false ∧ hostCfgOk { okHost with mrrs := 64 } = false ∧
    opOk ⟨0, 1 <<< 1024, []⟩ = false ∧ opOk ⟨0, 0, [(0, badGran0)]⟩ = false ∧ revOk (.desc ⟨65536, 0, []⟩) = false ∧
    revOk (.rcmd 0 (2 ^ 24) 0) = false ∧ revOk (.rcmd 0 0 (2 ^ 64)) = false ∧ placeOk ⟨0, false, 16⟩ = false ∧
    regEnvOk { okEnv with failed := 2 ^ 32 } = false ∧ regEnvOk { okEnv with remote := [(0, badGran0)] } = false ∧
    regEnvOk { okEnv with host := badHost } = false := by decide

/-- Each term breaks one check of its command: deviceStart to copy2d. -/
theorem test_illformed_1 : List.all
    [.deviceStart badStart, .functionLevelReset 66, .vfDisable 65, .atsInvalidationRequest 66 0 0 0 0,
     .atsInvalidationRequest 0 (2 ^ 20) 0 0 0, .atsInvalidationRequest 0 0 (2 ^ 52) 0 0, .atsInvalidationRequest 0 0 0 (2 ^ 52) 0,
     .atsInvalidationRequest 0 0 0 0 32, .pageRequestResponse 512 false, .priTimeout 512, .hostCompletion (2 ^ 14) .ur [],
     .hostCompletion 0 (.data (List.replicate 4097 0) false) [], .hostCompletion 0 .ur [(0, badGran0)],
     .hostCompletionTimeout (2 ^ 14), .registerWrite .pf0 okEnv (2 ^ 28) 0 0, .registerWrite .pf0 badEnv 0 0 0,
     .registerWrite .pf0 okEnv 0 4097 0, .registerWrite .pf0 okEnv 0 0 (2 ^ 64), .blockUnavailableTimeout (2 ^ 28) 0 false,
     .blockUnavailableTimeout 0 4097 false, .sqTail 66 0 0 0, .sqTail 0 1024 0 0, .sqTail 0 0 64 0, .sqTail 0 0 0 (2 ^ 32),
     .cqHead 66 0 0 0, .cqHead 0 1024 0 0, .cqHead 0 0 64 0, .cqHead 0 0 0 (2 ^ 32), .doorbellWriteDropped 66 0 0,
     .doorbellWriteDropped 0 (2 ^ 22) 0, .doorbellWriteDropped 0 0 4097, .readCtx 65536, .writeCtx 65536, .enable 65536,
     .disableDrain 65536, .disableAbort 65536, .clearPred 65536, .descriptorFetch [(0, [badGran0])], .moderationTimerExpiry 65536,
     .copy2d ⟨65536, 0, []⟩]
    (fun c => !Instr.wellFormed c) = true := by decide

/-- Each term breaks one check of its command: fill to dmaPiece. -/
theorem test_illformed_2 : List.all
    [.fill ⟨65536, 0, []⟩, .gather ⟨65536, 0, []⟩, .scatterAdd ⟨65536, 0, []⟩, .embedBag ⟨65536, 0, []⟩, .reduce ⟨65536, 0, []⟩,
     .atomic ⟨65536, 0, []⟩, .quantize ⟨65536, 0, []⟩, .scrubRange ⟨⟨0, 0, []⟩, [(2 ^ 50, .clean)]⟩,
     .scrubRange ⟨⟨65536, 0, []⟩, []⟩, .attendDecode ⟨65536, 0, []⟩, .attendMerge ⟨65536, 0, []⟩, .topk ⟨65536, 0, []⟩,
     .moeDispatch ⟨65536, 0, []⟩, .expertFfn ⟨65536, 0, []⟩, .moeCombine ⟨65536, 0, []⟩, .publish ⟨65536, 0, []⟩,
     .publishComplete ⟨0, [(2 ^ 32, 0)]⟩, .publishComplete ⟨0, [(0, 2 ^ 14)]⟩, .publishComplete ⟨2 ^ 32, []⟩,
     .revoke (.rcmd 4096 0 0), .revokeDrainDone 4096 0, .revokeDrainDone 0 (2 ^ 52), .revokeStragglerTimeout 4096 0,
     .revokeStragglerTimeout 0 (2 ^ 52), .tileDispatch 0 [(0, badGran0)], .tileStart ⟨96, []⟩, .tileStart ⟨0, [(0, badGran0)]⟩,
     .tileLoadData 0 0 [(0, badGran0)], .tileComputeDone 0 0 ⟨0, 0, [2 ^ 46]⟩ [], .tileComputeDone 0 0 ⟨0, 2 ^ 16, []⟩ [],
     .tileComputeDone 0 0 ⟨0, 0, []⟩ [(0, badGran0)], .tileRetire 0 0 [(0, badGran0)], .partialStateCombine 0 0 [(0, badGran0)],
     .engineFault 96, .spareActivated 96, .nmeRetire ⟨128, []⟩, .nmeRetire ⟨0, [(0, badGran0)]⟩, .dmaChannelSelect 32,
     .dmaPiece 32 [], .dmaPiece 0 [(0, badGran0)]]
    (fun c => !Instr.wellFormed c) = true := by decide

/-- Each term breaks one check of its command: flushReadComplete to doorbellPacket. -/
theorem test_illformed_3 : List.all
    [.flushReadComplete (2 ^ 14), .dmaSuspendResume 32, .writeAcknowledge 0 (2 ^ 24), .tenantCreate 4096 false false,
     .keySlotLoaded 4096, .tenantRetire 4096, .tenantKeyDestroy 4096, .invalidateRange 4096 0 0 0, .invalidateRange 0 (2 ^ 24) 0 0,
     .invalidateRange 0 0 (2 ^ 64) 0, .invalidateRange 0 0 0 (2 ^ 32), .invalidateTenant 4096 0, .invalidateTenant 0 (2 ^ 24),
     .leaseNotice (2 ^ 32) false 0, .leaseNotice 0 false 256, .invalidationComplete (2 ^ 24), .tableSwap 4096 0 0 0,
     .tableSwap 0 (2 ^ 24) 0 0, .tableSwap 0 0 (2 ^ 56) 0, .tableSwap 0 0 0 (2 ^ 32), .resmapClear (2 ^ 24) 0 0,
     .resmapClear 0 (2 ^ 42) 0, .resmapClear 0 0 (2 ^ 32), .translationMiss 4096 0, .translationMiss 0 (2 ^ 52),
     .dmaMigCmd (2 ^ 56) 0 0 0, .dmaMigCmd 0 (2 ^ 64) 0 0, .dmaMigCmd 0 0 (2 ^ 20) 0, .dmaMigCmd 0 0 0 4096, .migrationDone 32 () (),
     .xtuMigDone 4096 0, .xtuMigDone 0 4, .rdReq 14 okPkt, .rdReq 0 badPkt, .wrReq 14 okPkt, .wrReq 0 badPkt, .atomicReq 14 okPkt,
     .atomicReq 0 badPkt, .doorbellPacket 14 okPkt, .doorbellPacket 0 badPkt]
    (fun c => !Instr.wellFormed c) = true := by decide

/-- Each term breaks one check of its command: tileBatch to jobBind. -/
theorem test_illformed_4 : List.all
    [.tileBatch 14 okPkt [], .tileBatch 0 badPkt [], .tileBatch 0 okPkt [(0, badGran0)], .cmdFwd 14 okPkt, .cmdFwd 0 badPkt,
     .setReq 14 okPkt, .setReq 0 badPkt, .setRsp 14 okPkt, .setRsp 0 badPkt, .setWithdraw 14 okPkt, .setWithdraw 0 badPkt,
     .withdrawAck 14 okPkt, .withdrawAck 0 badPkt, .rdRsp 14 okPkt, .rdRsp 0 badPkt, .wrRsp 14 okPkt, .wrRsp 0 badPkt,
     .atomicRsp 14 ⟨okPkt, []⟩, .atomicRsp 0 ⟨badPkt, []⟩, .atomicRsp 0 ⟨okPkt, [(0, badGran0)]⟩, .batchRsp 14 ⟨okPkt, []⟩,
     .batchRsp 0 ⟨badPkt, []⟩, .batchRsp 0 ⟨okPkt, [(0, badGran0)]⟩, .cmdRsp 14 okPkt, .cmdRsp 0 badPkt, .errRsp 14 okPkt,
     .errRsp 0 badPkt, .cacheRelease 14 okPkt, .cacheRelease 0 badPkt, .replayCacheExpiry 4096 0, .replayCacheExpiry 0 (2 ^ 24),
     .flowRelease 65536, .nieFlowOpen 65536 0 0, .nieFlowOpen 0 4096 0, .nieFlowOpen 0 0 (2 ^ 14), .nieFlowClose 65536 0 0,
     .nieFlowClose 0 4096 0, .nieFlowClose 0 0 (2 ^ 14), .jobBind 4096 0 0 0, .jobBind 0 4096 0 0]
    (fun c => !Instr.wellFormed c) = true := by decide

/-- Each term breaks one check of its command: jobBind to retrainReq. -/
theorem test_illformed_5 : List.all
    [.jobBind 0 0 16385 0, .jobBind 0 0 0 (2 ^ 56), .completionTimeout (2 ^ 14) 0 0, .completionTimeout 0 4096 0,
     .completionTimeout 0 0 (2 ^ 24), .rdShared 14 okPkt false, .rdShared 0 badPkt false, .rdOwn 14 okPkt false,
     .rdOwn 0 badPkt false, .upgrade 14 okPkt false, .upgrade 0 badPkt false, .wbData 14 okPkt, .wbData 0 badPkt,
     .evictClean 14 okPkt, .evictClean 0 badPkt, .snpRsp 14 okPkt, .snpRsp 0 badPkt, .compAck 14 okPkt, .compAck 0 badPkt,
     .holdExpiry (2 ^ 36), .snoopTimeout (2 ^ 36) 0, .snoopTimeout 0 256, .compAckTimeout (2 ^ 36), .binvRange (2 ^ 56) 0,
     .binvRange 0 (2 ^ 32), .agentRelease 256, .packetHeaderArrival 14 okPkt, .packetHeaderArrival 0 badPkt,
     .routeTableWrite false (2 ^ 14) 0, .routeTableWrite false 0 (2 ^ 32), .epochFlip 14 okPkt, .epochFlip 0 badPkt,
     .frameTransmit 12, .frameReceive 12 0 false okFrame, .frameReceive 0 (2 ^ 32) false okFrame, .frameReceive 0 0 false badFrame,
     .replayReq 12 0, .replayReq 0 4096, .replayTimeout 12, .retrainReq 12]
    (fun c => !Instr.wellFormed c) = true := by decide

/-- Each term breaks one check of its command: rttProbe to refresh. -/
theorem test_illformed_6 : List.all
    [.rttProbe 12 0, .rttProbe 0 (2 ^ 64), .rttEcho 12 0, .rttEcho 0 (2 ^ 64), .rttProbeTimer 12, .lossOfSignal 12 0,
     .lossOfSignal 0 9, .laneErrorLimit 12 0, .laneErrorLimit 0 9, .portEnable 12, .portDisable 12, .portRetrain 12,
     .detectSignal 12, .trainDone 12 false, .configDone 12 okCfg, .configDone 0 badCfg, .retrainDone 12 okCfg, .retrainDone 0 badCfg,
     .retrainTimeout 12, .autoUpTimer 12, .rekeyTimer 12, .linkRekey 16 0, .linkRekey 0 (2 ^ 24), .keyPhaseSwitch 12, .pairSet 16 0,
     .pairSet 0 (2 ^ 24), .admBktRead 8192, .admBktWrite 8192 0 0 0 0 0 false, .admBktWrite 0 (2 ^ 24) 0 0 0 0 false,
     .admBktWrite 0 0 (2 ^ 20) 0 0 0 false, .admBktWrite 0 0 0 256 0 0 false, .admBktWrite 0 0 0 0 65536 0 false,
     .admBktWrite 0 0 0 0 0 65536 false, .fathomUpdate badUtil, .channelGrant 12 0 [] ⟨[], false⟩, .channelGrant 0 32 [] ⟨[], false⟩,
     .channelGrant 0 0 [⟨64, 0, 0, 0, none, [], false, none, 0⟩] ⟨[], false⟩, .channelGrant 0 0 [] ⟨[(72, 1)], false⟩,
     .refresh 12 0 0 0 [], .refresh 0 32 0 0 []]
    (fun c => !Instr.wellFormed c) = true := by decide

/-- Each term breaks one check of its command: refresh to thermalLimit. -/
theorem test_illformed_7 : List.all
    [.refresh 0 0 2 0 [], .refresh 0 0 0 64 [], .refresh 0 0 0 0 [⟨64, 0, 0, 0, none, [], false, none, 0⟩],
     .channelRetrain 12 0 0 false, .channelRetrain 0 32 0 false, .channelRetrain 0 0 1024 false, .smcRetrainNow 12 0,
     .smcRetrainNow 0 (2 ^ 32), .stackNoResponse 12, .rebuildUnit 32, .ueLimitExceeded 12, .parRetire 16, .mistralRead 12 0 [],
     .mistralRead 0 32 [], .mistralRead 0 0 [(72, 1)], .rowRepair 12 0 0 0 0 false, .rowRepair 0 32 0 0 0 false,
     .rowRepair 0 0 2 0 0 false, .rowRepair 0 0 0 64 0 false, .rowRepair 0 0 0 0 (2 ^ 15) false,
     .eraseRange 4096 0 0 0 ⟨0, false, 0⟩, .eraseRange 0 (2 ^ 24) 0 0 ⟨0, false, 0⟩, .eraseRange 0 0 (2 ^ 42) 0 ⟨0, false, 0⟩,
     .eraseRange 0 0 0 (2 ^ 32) ⟨0, false, 0⟩, .eraseRange 0 0 0 0 ⟨4, false, 0⟩, .eraseComplete (2 ^ 24),
     .spdmGetMeasurements 256 (List.replicate 32 0) false, .spdmGetMeasurements 0 [] false, .mctpMessage 4 false [],
     .hifMbxSubmit (List.replicate 257 0), .pwrStatus 4 0, .pwrStatus 0 65536, .powerCap 4 0, .powerCap 0 65536, .domainPower 4 0,
     .domainPower 0 65536, .pointCeiling 4 0, .pointCeiling 0 65536, .thermalLimit 4 0, .thermalLimit 0 65536]
    (fun c => !Instr.wellFormed c) = true := by decide

/-- Each term breaks one check of its command: fwStage to telSampCtlWrite. -/
theorem test_illformed_8 : List.all
    [.fwStage 4 0 none 0 false, .fwStage 0 65536 none 0 false, .fwStage 0 0 none 6 false, .fwActivate 4 0 0, .fwActivate 0 65536 0,
     .fwActivate 0 0 9, .handover 4 0, .handover 0 65536, .mgtStatus 4 0, .mgtStatus 0 65536, .cfgReport 4 0, .cfgReport 0 65536,
     .fieldGet 4 0, .fieldGet 0 65536, .fieldSet 4 0, .fieldSet 0 65536, .imageWrite 4 0 none false, .imageWrite 0 65536 none false,
     .recoveryWrite 4 0, .recoveryWrite 0 65536, .attest 4 0 false, .attest 0 65536 false, .svnAdvance 4 0, .svnAdvance 0 65536,
     .pldm 4 0, .pldm 0 65536, .cfgFeatCommit badHost, .heartbeat 4, .selfDiagPeriodic 9, .standbyTakeover false 9,
     .pairBootDone false 9, .dvfsTarget false 8, .powerLoop (2 ^ 16) 0, .powerLoop 0 (2 ^ 16), .thermalLoop 256 false,
     .pdSwitch false 128 false, .telCntClear 4096, .telSampCtlWrite false 32 0 0, .telSampCtlWrite false 0 16 0,
     .telSampCtlWrite false 0 0 16]
    (fun c => !Instr.wellFormed c) = true := by decide

/-- Each term breaks one check of its command: pcieLinkUp to openMaxExpiry. -/
theorem test_illformed_9 : List.all
    [.pcieLinkUp 7 0 ⟨false, okHost⟩, .pcieLinkUp 0 17 ⟨false, okHost⟩, .pcieLinkUp 0 0 ⟨false, badHost⟩,
     .atsTranslationCompletion 66 0 0 false false 0, .atsTranslationCompletion 0 (2 ^ 20) 0 false false 0,
     .atsTranslationCompletion 0 0 (2 ^ 52) false false 0, .atsTranslationCompletion 0 0 0 false false 513, .vfEnable 65,
     .d3hotTransition 66 false, .replayReqResendTimeout 12, .openMaxExpiry 12 0 0 0, .openMaxExpiry 0 32 0 0, .openMaxExpiry 0 0 2 0,
     .openMaxExpiry 0 0 0 64]
    (fun c => !Instr.wellFormed c) = true := by decide

/-- Every command with plain operands is well-formed: part 1. -/
theorem test_wellformed_1 : List.all
    [.deviceReset, .deviceStart okStart, .pcieReset, .pcieLinkDown, .functionLevelReset 0, .vfDisable 0,
     .atsInvalidationRequest 0 0 0 0 0, .pageRequestResponse 0 false, .priTimeout 0, .hostCompletion 0 .ur [],
     .hostCompletionTimeout 0, .registerWrite .pf0 okEnv 0 0 0, .blockUnavailableTimeout 0 0 false, .sqTail 0 0 0 0, .cqHead 0 0 0 0,
     .doorbellWriteDropped 0 0 0, .readCtx 0, .writeCtx 0, .enable 0, .disableDrain 0, .disableAbort 0, .clearPred 0,
     .descriptorFetch [], .predicateRelease 0, .waitSlotsCleared 0, .moderationTimerExpiry 0, .copy2d ⟨0, 0, []⟩, .fill ⟨0, 0, []⟩,
     .gather ⟨0, 0, []⟩, .scatterAdd ⟨0, 0, []⟩, .embedBag ⟨0, 0, []⟩, .reduce ⟨0, 0, []⟩, .atomic ⟨0, 0, []⟩, .quantize ⟨0, 0, []⟩,
     .scrubRange ⟨⟨0, 0, []⟩, []⟩, .attendDecode ⟨0, 0, []⟩, .attendMerge ⟨0, 0, []⟩, .topk ⟨0, 0, []⟩, .moeDispatch ⟨0, 0, []⟩,
     .expertFfn ⟨0, 0, []⟩, .moeCombine ⟨0, 0, []⟩, .publish ⟨0, 0, []⟩, .publishComplete ⟨0, []⟩, .revoke (.rcmd 0 0 0),
     .revokeDrainDone 0 0, .revokeStragglerTimeout 0 0, .waitListService, .tileDispatch 0 [], .tileStart ⟨0, []⟩,
     .tileLoadData 0 0 [], .tileComputeDone 0 0 ⟨0, 0, []⟩ [], .tileRetire 0 0 [], .partialStateCombine 0 0 [], .engineFault 0,
     .tileWatchdogExpiry 0 0, .spareActivated 0, .nmeRetire ⟨0, []⟩, .nmeCommit, .dmaChannelSelect 0, .dmaPiece 0 []]
    Instr.wellFormed = true := by decide

/-- Every command with plain operands is well-formed: part 2. -/
theorem test_wellformed_2 : List.all
    [.flushReadComplete 0, .dmaSuspendResume 0, .writeAcknowledge 0 0, .tenantCreate 0 false false, .keySlotLoaded 0,
     .tenantRetire 0, .tenantKeyDestroy 0, .invalidateRange 0 0 0 0, .invalidateTenant 0 0, .leaseNotice 0 false 0,
     .invalidationComplete 0, .tableSwap 0 0 0 0, .resmapClear 0 0 0, .translationMiss 0 0, .migEnClear, .dmaMigCmd 0 0 0 0,
     .migrationDone 0 () (), .dmaMigPop, .xtuMigDone 0 0, .rdReq 0 okPkt, .wrReq 0 okPkt, .atomicReq 0 okPkt,
     .doorbellPacket 0 okPkt, .tileBatch 0 okPkt [], .cmdFwd 0 okPkt, .setReq 0 okPkt, .setRsp 0 okPkt, .setWithdraw 0 okPkt,
     .withdrawAck 0 okPkt, .rdRsp 0 okPkt, .wrRsp 0 okPkt, .atomicRsp 0 ⟨okPkt, []⟩, .batchRsp 0 ⟨okPkt, []⟩, .cmdRsp 0 okPkt,
     .errRsp 0 okPkt, .cacheRelease 0 okPkt, .replayCacheExpiry 0 0, .flowRelease 0, .nieFlowOpen 0 0 0, .nieFlowClose 0 0 0,
     .jobBind 0 0 0 0, .completionTimeout 0 0 0, .rdShared 0 okPkt false, .rdOwn 0 okPkt false, .upgrade 0 okPkt false,
     .wbData 0 okPkt, .evictClean 0 okPkt, .snpRsp 0 okPkt, .compAck 0 okPkt, .holdExpiry 0, .snoopTimeout 0 0, .compAckTimeout 0,
     .binvRange 0 0, .agentRelease 0, .dirCommit, .packetHeaderArrival 0 okPkt, .headerHoldTimeout 0, .routeTableWrite false 0 0,
     .epochFlip 0 okPkt, .epochRetire]
    Instr.wellFormed = true := by decide

/-- Every command with plain operands is well-formed: part 3. -/
theorem test_wellformed_3 : List.all
    [.routerCommit, .frameTransmit 0, .frameReceive 0 0 false okFrame, .replayReq 0 0, .replayTimeout 0, .retrainReq 0,
     .rttProbe 0 0, .rttEcho 0 0, .rttProbeTimer 0, .lossOfSignal 0 0, .laneErrorLimit 0 0, .portEnable 0, .portDisable 0,
     .portRetrain 0, .detectSignal 0, .trainDone 0 false, .configDone 0 okCfg, .retrainDone 0 okCfg, .retrainTimeout 0,
     .autoUpTimer 0, .rekeyTimer 0, .linkRekey 0 0, .keyPhaseSwitch 0, .pairSet 0 0, .admRelease, .admRedecide, .admBktRead 0,
     .admBktWrite 0 0 0 0 0 0 false, .fathomUpdate okUtil, .channelGrant 0 0 [] ⟨[], false⟩, .parityDelta 0, .refresh 0 0 0 0 [],
     .channelRetrain 0 0 0 false, .smcRetrainNow 0 0, .stackNoResponse 0, .rebuildUnit 0, .ueLimitExceeded 0, .parRetire 0,
     .mistralRead 0 0 [], .rowRepair 0 0 0 0 0 false, .smcLock, .smcCommit, .xbarCommit, .eraseRange 0 0 0 0 ⟨0, false, 0⟩,
     .eraseComplete 0, .trngHealthFail, .identityReady, .debugGrant false, .spdmGetVersion, .spdmGetCapabilities,
     .spdmNegotiateAlgorithms, .spdmGetMeasurements 0 (List.replicate 32 0) false, .mctpMessage 0 false [], .hifMbxSubmit [],
     .hifMbxPop, .mailboxTake, .pwrStatus 0 0, .powerCap 0 0, .domainPower 0 0, .pointCeiling 0 0]
    Instr.wellFormed = true := by decide

/-- Every command with plain operands is well-formed: part 4. -/
theorem test_wellformed_4 : List.all
    [.thermalLimit 0 0, .fwStage 0 0 none 0 false, .fwActivate 0 0 0, .handover 0 0, .mgtStatus 0 0, .cfgReport 0 0, .fieldGet 0 0,
     .fieldSet 0 0, .imageWrite 0 0 none false, .recoveryWrite 0 0, .attest 0 0 false, .svnAdvance 0 0, .pldm 0 0,
     .cfgFeatCommit okHost, .cfgRptRead, .claimRaise false none, .claimDrop false none, .heartbeat 0, .watchdogExpiry false,
     .selfDiagPeriodic 0, .standbyTakeover false 0, .pairBootDone false 0, .mgtPairReset false false, .doldrumsAlert,
     .dvfsTarget false 0, .dvfsStepDone, .avsTimeout false, .powerLoop 0 0, .thermalLoop 0 false, .fastCurrentLimit,
     .hwThermalThrottle, .thermtrip, .pdSwitch false 0 false, .telCommit, .telCntClear 0, .telDumpEnable, .telDumpPeriod false (),
     .telSampCtlWrite false 0 0 0, .pcieLinkUp 0 0 ⟨false, okHost⟩, .hwThermalThrottleRelease, .trngHealthPass,
     .atsTranslationCompletion 0 0 0 false false 0, .vfEnable 0, .d3hotTransition 0 false, .replayReqResendTimeout 0,
     .openMaxExpiry 0 0 0 0, .zmapReady, .pdSwitchDone]
    Instr.wellFormed = true := by decide

/-! Witnesses: for every statement with hypotheses, a concrete state and operands that meet them, clause by clause. -/

/-- What holds of the state that a command answers. -/
def onNext (o : Out) (f : State → Bool) : Bool :=
  match o with
  | .next t => f t
  | .fault _ => false
  | .refused _ => false
/-- The state after reset with HIF ready, the host link up and two virtual functions. -/
def hostOn : State := { State.reset with hif := { State.reset.hif with ready := true, linkUp := true, vfs := 2 } }
/-- A state with a value in one register field. -/
def withF (s : State) (f : Fld) (v : Nat) (n : Nat := 0) : State := setF s f v n
/-- Pair A holds the claim and runs. -/
def ruled (s : State) : State := withF (withF s Reg.pwrClaim_winner 1) Reg.mgtAStatus_state 4
/-- A mailbox request of PF0 with tag 7, taken by pair A, with a body of n zero bytes. -/
def reqOf (code n : Nat) : MbxEnt :=
  ⟨0, 0, [BitVec.ofNat 8 code, 0, 7, 0, BitVec.ofNat 8 n, 0, 0, 0, 0, 0, 0, 0, 0, 0, 0, 0] ++ List.replicate n 0, 1, none⟩
/-- That request is the mailbox's only one. -/
def asking (s : State) (e : MbxEnt) : State := { s with mbx := { s.mbx with queue := [e], nextId := 1 } }

theorem test_witness_steps : ({ State.reset with pending := [.cfgRptRead, .nmeCommit] } : State).pending = .cfgRptRead :: [.nmeCommit] ∧
    State.reset.pending = [] ∧ State.wf ({ State.reset with pending := [.cfgRptRead, .nmeCommit] } : State) = true ∧
    onNext (step { hostOn with pending := [.cfgRptRead, .nmeCommit] }) (fun t => t.pending == [.nmeCommit] && t.toHost != []) = true := by
  decide

/-- The statement of the svn fuses: a taken SVN_ADVANCE to 1 raises the fuses where the running images reach 1. -/
theorem test_witness_svn : takenReq (asking hostOn ⟨0, 0, patch (reqOf 0x21 1).msg 16 [1], 1, none⟩) 0 7 0x21 ≠ none ∧
    (1 ≤ runningSvn (asking hostOn ⟨0, 0, patch (reqOf 0x21 1).msg 16 [1], 1, none⟩) →
      1 = min 64 (argAt (msgBody (patch (reqOf 0x21 1).msg 16 [1])) 0 1)) := by
  refine ⟨by decide, fun _ => by decide⟩

theorem test_witness_functions : cfgOpen hostOn = true ∧ (1 : Nat) < hostOn.hif.vfs ∧ 1 ∉ hostOn.hif.d3 ∧ 3 < 2 + hostOn.hif.vfs ∧
    hostOn.hif.linkUp = true ∧ pdOn (withF hostOn Reg.pwrPdState0_isOn (2 ^ 48)) 48 = true ∧
    pdOn (withF State.reset Reg.pwrPdState0_isOn (2 ^ 48)) 48 = true ∧ State.reset.hif.linkUp = false ∧
    bar2Open hostOn 0 = true ∧ 0xFFFFFFC % 4 = 0 ∧ 0xFFFFFFC < 2 ^ 28 ∧ bar2Open hostOn 5 = true ∧ 2 + hostOn.hif.vfs ≤ 5 := by
  decide

/-- 256 requests in the queue. -/
def mbxFull (s : State) : State := { s with mbx := { s.mbx with queue := List.replicate 256 (reqOf 0x40 0), nextId := 256 } }
/-- The request registers as HIF_MBX_SUBMIT fills them. -/
def staged (bytes : List Byte) (s : State) : State :=
  (List.range 32).foldl (fun s i => setF s Reg.hifMbxReq_data (leToNat (((fixLen 256 bytes).drop (8 * i)).take 8)) i) s

theorem test_witness_mailbox : bar2Open hostOn 0 = true ∧ msgByte (stagedMsg (staged [0x40, 0, 1, 0, 240] hostOn)) 4 = 240 ∧
    hostOn.mbx.queue.length < 256 ∧ (staged [0x40, 0, 1, 0, 240] hostOn).mbx = hostOn.mbx ∧
    msgByte (stagedMsg (staged [] (mbxFull hostOn))) 4 ≤ 240 ∧ 256 ≤ (mbxFull hostOn).mbx.queue.length ∧
    (staged [] (mbxFull hostOn)).mbx = (mbxFull hostOn).mbx ∧
    ({ hostOn with mbx := { hostOn.mbx with fifo := [4, 5] } } : State).mbx.fifo = 4 :: [5] ∧
    mctpOpen hostOn 2 = true ∧ mctpOpen hostOn 1 = true ∧ 16 ≤ (reqOf 0x40 0).msg.length ∧
    msgByte (patch (reqOf 0x40 0).msg 5 (natToLe 1 2)) 4 ≤ 240 ∧
    (patch (reqOf 0x40 0).msg 5 (natToLe 1 2)).length = 16 + msgByte (patch (reqOf 0x40 0).msg 5 (natToLe 1 2)) 4 ∧
    readOnlyCmd (msgCmd (patch (reqOf 0x40 0).msg 5 (natToLe 1 2))) = true := by decide

theorem test_witness_mailbox_take : (ruled hostOn).hif.ready = true ∧ inRecovery (ruled hostOn) = false ∧ winner (ruled hostOn) = some false ∧
    (ruled hostOn).mgt.handover = none ∧
    (asking (ruled hostOn) { reqOf 0x41 2 with taken := 0 }).mbx.queue.find? (fun e => e.taken == 0) = some { reqOf 0x41 2 with taken := 0 } ∧
    knownCmd (msgCmd (reqOf 0x41 2).msg) = true := by decide

/-- A wait for a host translation, with and without its page request. -/
def atsWaits (pri : Option (Nat × Nat)) (wr : Bool) : State :=
  { hostOn with hif := { hostOn.hif with waits := [⟨1, 5, 6, wr, .dma 0, pri⟩] } }

theorem test_witness_ats : (atsWaits none true).hif.waits.find? (fun w => w.fn == 1 && w.pasid == 5 && w.page == 6 && w.pri.isNone) =
      some ⟨1, 5, 6, true, .dma 0, none⟩ ∧
    (if (⟨1, 5, 6, true, .dma 0, none⟩ : AtsWait).wr then true else false) = true ∧
    (if (⟨1, 5, 6, true, .dma 0, none⟩ : AtsWait).wr then false else true) = false ∧
    ((atsWaits none true).hif.waits.filter (fun x => x.pri.isSome)).length < min 512 1 ∧
    priWait (atsWaits (some (3, 900)) false) 3 = some (⟨1, 5, 6, false, .dma 0, some (3, 900)⟩, 900) := by decide

/-- Each code of the management commands with a body of n bytes is found taken. -/
theorem test_witness_requests : List.all [(0x40, 1), (0x41, 1), (0x42, 1), (0x43, 2), (0x44, 2), (0x45, 11), (0x46, 1), (0x47, 1),
      (0x48, 1), (0x10, 3), (0x11, 2), (0x12, 10), (0x13, 13), (0x18, 3), (0x18, 237), (0x20, 41), (0x21, 0), (0x30, 241),
      (0x41, 2), (0x44, 1), (0x43, 1), (0x42, 2), (0x48, 0), (0x40, 0), (0x10, 2), (0x11, 3), (0x12, 11), (0x45, 12), (0x13, 12),
      (0x18, 5), (0x18, 236), (0x47, 0), (0x46, 0), (0x21, 1), (0x20, 42), (0x30, 240)]
    (fun c => takenReq (asking hostOn (reqOf c.1 c.2)) 0 7 c.1 == some (reqOf c.1 c.2) && msgByte (reqOf c.1 c.2).msg 4 == c.2) = true := by
  decide

theorem test_witness_power_requests : (asking hostOn (reqOf 0x42 2)).pwr.pd = none ∧
    ({ asking hostOn (reqOf 0x42 2) with pwr := { hostOn.pwr with pd := some (0, true) } } : State).pwr.pd ≠ none := by decide

/-- The rows of the field table: a run-time field with more than one instance, one of one instance, one that start alone sets. -/
theorem test_witness_fields : (fieldTable.any (fun r => r.runTime && decide (1 < r.insts))) = true ∧
    (fieldTable.any (fun r => !r.runTime)) = true ∧ fieldRow 0xFFFF = none ∧
    (fieldTable.any (fun r => r.runTime && decide (0 < r.insts) && (List.range 1).all (fun _ =>
      r.id == 0x20 || (match fieldDomain r.id 0 with | some d => pdOn hostOn d | none => true)))) = true := by decide

/-- A host image that carries no Varic mark. -/
def image0 : List Byte := [0xFF, 0xFF, 0xFF, 0xFF]
/-- FW_STAGE, IMAGE_WRITE: the image can be fetched; RECOVERY_WRITE: both edges of the recovery area. -/
theorem test_witness_images : fetched (asking hostOn (reqOf 0x45 12)) (some image0) (min 0x1000000 (argAt (msgBody (reqOf 0x45 12).msg) 8 4)) =
      some [] ∧
    argAt (msgBody (patch (reqOf 0x45 12).msg 24 [4, 0, 0, 0])) 8 4 = 4 ∧ fetched hostOn (some image0) 4 = some image0 ∧
    8 % 8 = 0 ∧ 7 % 8 ≠ 0 ∧ varicState image0 ≠ 2 ∧
    ((msgBody (reqOf 0x18 5).msg).drop 4).length = 5 - 4 ∧ ((msgBody (reqOf 0x18 236).msg).drop 4).length = 236 - 4 ∧
    recoveryArea 0 1 = true ∧ recoveryArea 0x2FFFF18 232 = true ∧ (reqOf 0x18 5).source = 0 ∧ (reqOf 0x18 5).taken ≠ 3 ∧
    takenReq (asking hostOn { reqOf 0x18 5 with taken := 3 }) 0 7 0x18 = some { reqOf 0x18 5 with taken := 3 } := by decide

theorem test_witness_handover : winner (ruled (asking hostOn (reqOf 0x47 0))) = some false ∧
    noneOpen (ruled (asking hostOn (reqOf 0x47 0))) false (reqOf 0x47 0).id = true ∧
    pdOn (withF (ruled (asking hostOn (reqOf 0x46 0))) Reg.pwrPdState1_isOn 4) 66 = true ∧ 256 % 256 = 0 ∧
    pdOn (withF (ruled (asking hostOn (reqOf 0x46 0))) Reg.pwrPdState1_isOn 0) 66 = false ∧
    winner (withF hostOn Reg.pwrClaim_winner 2) = some true ∧ pdOn (withF hostOn Reg.pwrPdState1_isOn 2) 65 = true := by decide

/-- An identity that stands ready, on a node of 12 stacks whose memory has 96 frames each. -/
def idReady : State := withF hostOn Reg.secStatus_identity_ready 1
/-- SVN_ADVANCE to 0 is within any running SVN; the report's first and last places. -/
theorem test_witness_security_requests : (∀ n : Nat, min 64 (argAt (msgBody (reqOf 0x21 1).msg) 0 1) ≤ n) ∧
    getB hostOn Reg.secStatus_identity_ready = false ∧ getB idReady Reg.secStatus_identity_ready = true ∧
    rsvBase idReady % 64 = 0 ∧ ownerOf (rsvBase idReady) = idReady.dev.node ∧ rsvBase idReady ≤ localOf (rsvBase idReady) ∧
    localOf (rsvBase idReady) + 5861 ≤ capacity idReady ∧ rsvBase idReady < 2 ^ 56 := by
  refine ⟨fun n => Nat.zero_le _, ?_⟩
  decide

/-- A usable queue context of tenant 3 in state st. -/
def qOf (st : Nat) : QCtx :=
  { state := st, sqHost := true, cqHost := true, sqLog2 := 4, cqLog2 := 4, tenant := 3, qprio := 1, predCount := 0, predBase := 0,
    sqBase := 4096, cqBase := 8192, pasid := 0, intMode := 0, intVector := 0, modCount := 0, modTime := 1, notifyNode := 0,
    sqTail := 0, sqHead := 0, cqTail := 0, cqHead := 0, inflight := 0, errCause := 0, rsv := false }
/-- Memory is ready and laid out, and queue contexts lie in reserved memory behind the zero map. -/
def memOn (s : State) : State :=
  let s := withF (withF s Reg.smcLock_zmap_ready 1) Reg.smcLock_locked 1
  withF s Reg.qmgQctxBase_base (rsvBase s + 37748736)
/-- Queue 0 holds a context. -/
def queueOf (c : QCtx) (s : State) : State := putCtx (memOn s) 0 c
/-- The stage registers hold a context. -/
def stageOf (c : QCtx) (s : State) : State :=
  (List.range 8).foldl (fun s i => withF s Reg.qmgQstage_data (ctxNat c / 2 ^ (64 * i)) i) s
/-- Tenant 3 is active. -/
def tenant3 (s : State) : State := withF s Reg.xtuTenant0_state 1 3

theorem test_witness_contexts : List.all [0, 1, 2, 3] (fun st => ctxOf (queueOf (qOf st) hostOn) 0 == qOf st) = true ∧
    ctxOk hostOn 0 (stagedCtx hostOn) = false ∧ ctxOk (stageOf (qOf 0) hostOn) 0 (stagedCtx (stageOf (qOf 0) hostOn)) = true ∧
    ctxOk (queueOf (qOf 0) hostOn) 0 (qOf 0) = true ∧ ctxOk hostOn 65535 { qOf 0 with sqLog2 := 17 } = false ∧
    tenantActive (queueOf (qOf 0) hostOn) 3 = false ∧ tenantActive (queueOf (qOf 0) (tenant3 hostOn)) 3 = true := by decide

/-- Page 0 belongs to PF1. -/
def page1 (s : State) : State := withF s Reg.qmgDbpage_owner 1 0
theorem test_witness_doorbells : bar2Open (page1 (queueOf (qOf 1) hostOn)) 1 = true ∧ doorPage (page1 (queueOf (qOf 1) hostOn)) 1 0 = some 0 ∧
    ctxOf (noticeCtx (page1 (queueOf (qOf 1) hostOn)) 0) 0 = qOf 1 ∧ (ctxOf (noticeCtx (page1 (queueOf (qOf 0) hostOn)) 0) 0).state ≠ 1 ∧
    (0 % 2 ^ 32 = (qOf 1).sqTail ∧ (qOf 1).sqTail < 2 ^ 32) ∧
    -- the tail moves by 16 entries, which fit, or by 17, which do not
    (16 + 2 ^ 32 - (qOf 1).sqTail) % 2 ^ 32 + ((qOf 1).sqTail + 2 ^ 32 - (qOf 1).sqHead) % 2 ^ 32 ≤ 2 ^ (qOf 1).sqLog2 ∧
    2 ^ (qOf 1).sqLog2 < (17 + 2 ^ 32 - (qOf 1).sqTail) % 2 ^ 32 + ((qOf 1).sqTail + 2 ^ 32 - (qOf 1).sqHead) % 2 ^ 32 ∧
    -- the completion head at its tail, or past it
    (0 + 2 ^ 32 - (qOf 1).cqHead) % 2 ^ 32 ≤ ((qOf 1).cqTail + 2 ^ 32 - (qOf 1).cqHead) % 2 ^ 32 ∧
    ((qOf 1).cqTail + 2 ^ 32 - (qOf 1).cqHead) % 2 ^ 32 < (1 + 2 ^ 32 - (qOf 1).cqHead) % 2 ^ 32 ∧
    ¬ (8 % 64 < 8 ∧ 4 = 4 ∧ 8 % 4 = 0) ∧ ¬ (8 % 64 = 0 ∧ 4 = 8) := by decide

theorem test_witness_context_fields : parseCtx (ctxNat { qOf 3 with predBase := 65535, intVector := 2047, inflight := 2 ^ 17 - 1, errCause := 255 }) =
    { qOf 3 with predBase := 65535, intVector := 2047, inflight := 2 ^ 17 - 1, errCause := 255 } := by decide

/-- A descriptor of an operator code for queue 0 in some phase. -/
def descOf0 (code : Nat) (ph : DPhase) : Desc :=
  { uid := 9, queue := 0, raw := code, opcode := code, tenant := 3, reqId := 1, phase := ph, bytesDone := 0, fin := Fin.ok, cls := 0, fathom := 0,
    halfDone := false, resv := 1, slots := [], waits := [], binds := [], pre := ⟨[], []⟩, leaves := [], nextTile := 0, tilesOut := [], tilesOk := [],
    faultTile := 0, touched := [], spread := false, stopping := false, numFlags := 0, acksOut := 0, parts := [], failedWaits := [], charged := false }
/-- A state with that descriptor. -/
def running (d : Desc) (s : State) : State := { s with qmg := { s.qmg with descs := [d], nextUid := 10 } }

/-- Queue 0 has one entry posted, its host page is translated, and its context is live. -/
def posted : State :=
  let s := queueOf { qOf 1 with sqTail := 1 } hostOn
  { s with hif := { s.hif with ats := [⟨fnOf s 0, 0, 1, true, true⟩, ⟨fnOf s 0, 0, 2, true, true⟩] } }
/-- The grant of a fetch in a state. -/
def fetchGrant (s : State) (hosts : NMap (List Gran)) : Option Nat :=
  let v := s.qmg.live.foldl noticeCtx s
  let s1 := v.qmg.live.foldl (fun s q => (slotsMissing s q (ctxOf s q)).foldl (fun s p =>
    atsAsk s (fnOf s q) (ctxOf s q).pasid p false (.sq q)) s) v
  (arbPick 65536 (arbN s1 Reg.xbarArbCtl_n_qmg) s1.qmg.arb
    ((s1.qmg.live.filter (canFetch s1 hosts)).map (fun q => (q, (ctxOf s1 q).qprio)))).1
theorem test_witness_fetches : fetchGrant posted [(0, [⟨List.replicate 64 0, 0, false, false⟩])] = some 0 ∧ fetchGrant hostOn [] = none ∧
    descOf (running (descOf0 0x10 .waitPred) hostOn) 9 = some (descOf0 0x10 .waitPred) ∧
    descOf (running (descOf0 0x2A .waitSlots) hostOn) 9 = some (descOf0 0x2A .waitSlots) ∧ (descOf0 0x2A .waitSlots).waits = [] ∧
    nfind ({ posted with qmg := { posted.qmg with modOldest := [(0, 500)] } } : State).qmg.modOldest 0 = some 500 ∧
    (ctxOf { posted with qmg := { posted.qmg with modOldest := [(0, 500)] } } 0).modTime ≠ 0 := by decide

theorem test_witness_operators : List.all [0x10, 0x11, 0x12, 0x13, 0x14, 0x15, 0x16, 0x17, 0x20, 0x21, 0x22, 0x28, 0x29, 0x2A, 0x58, 0x50, 0x51]
    (fun code => readyDesc (running (descOf0 code .ready) hostOn) (0 % 65536) (opImage code ⟨0, code, []⟩) == some 9) = true ∧ 4095 < 4096 := by
  decide

/-- A record of tenant 3 that maps ell 0 to zeros, with every right. -/
def zext : ExtRec :=
  { pvaStart := 0, length := 1, valid := true, ppaEll := 0, rd := true, wr := true, rmw := true, coherent := false, zeroFill := true,
    hostBacked := false, place := ⟨0, false, 0⟩, regionRef := false, keyTenant := 3, revEpoch := 0, hostEll := 0, pasid := 0, rsv := false }
/-- Its translation. -/
def zxl : Xl := ⟨0, ⟨0, false, 0⟩, 3, false, true, zext, 0⟩
/-- A translation to a node that does not answer. -/
def farXl : Xl := { zxl with ppa := 2 ^ 42, zeroFill := false }
/-- Tenant 3 is active and its ell 0 is cached. -/
def mapped (s : State) : State :=
  let s := tenant3 (memOn s)
  { s with xtu := { s.xtu with cache := [⟨3, false, 0, zext, 0, 0⟩] } }
/-- A tile that reads and writes nothing, or reads a granule. -/
def tile0 (reads : List (Nat × Nat)) : Tile :=
  { num := 4, anchor := 0, reads := reads, selfReads := [], writes := [], bytes := 0, alen := 0, arg := [0, 0, 0, 0], phase := 1 }
/-- The record of such a tile at engine 95. -/
def rec0 (step : Nat) (reads : List (Nat × Nat)) (xl : NMap Xl) (parts : List Part) : TileRec :=
  { uid := 9, tile := tile0 reads, engine := 95, step := step, xl := xl, more := [], view := [], poisonAt := none, pend := [], parts := parts, bytes := 0, since := 0 }
/-- A state that runs one tile of the descriptor `descOf0 0x11`. -/
def tiled (code : Nat) (r : TileRec) : State :=
  let s := running (descOf0 code .running) (withF (mapped hostOn) Reg.secStatus_trng_ok 1)
  { s with nme := { s.nme with tiles := [r] } }

theorem test_witness_wait_list :
    (let s := { running (descOf0 0x11 .waitList) hostOn with nme := { hostOn.nme with waitQ := [9], rr := 3 } }
     (List.range 4).findSome? (fun i => (waitFirst s ((s.nme.rr + i) % 4)).map (fun u => ((s.nme.rr + i) % 4, u))) = some (3, 9)) := by
  decide

/-- A FILL of 64 bytes of zero at PVA 0. -/
def fillRaw : Nat := 0x11 + 64 <<< 192
theorem test_witness_dispatch :
    descOf (running { descOf0 0x11 .ready with raw := fillRaw } (mapped hostOn)) 9 = some { descOf0 0x11 .ready with raw := fillRaw } ∧
    (opOpen (running { descOf0 0x11 .ready with raw := fillRaw } (mapped hostOn)) { descOf0 0x11 .ready with raw := fillRaw } []).1 = true := by
  decide

theorem test_witness_tile_start :
    let s := tiled 0x11 (rec0 0 [] [] [])
    let u := giveCtxs s 95
    let cands := u.nme.ctxs.filter (fun c => c.1 / 16 == 95 && (nextOf u 95 c.2).isSome && !((descOf u c.2).map (·.stopping)).getD true)
    let r := arbPick 64 (arbN u Reg.xbarArbCtl_n_nme) (ngetD arb0 u.nme.arbs 95) (cands.map (fun c => (c.1 % 16, rankOf u c.2)))
    let v := { u with nme := { u.nme with arbs := nput u.nme.arbs 95 r.2 } }
    engReady u 95 = true ∧ r.1 = some 0 ∧ nfind u.nme.ctxs (95 * 16) = some 9 ∧ nextOf v 95 9 = some (rec0 0 [] [] []) ∧
    descOf v 9 = some (descOf0 0x11 .running) ∧
    (let x := tileXlate (attrib v 3 4 3) 95 (descOf0 0x11 .running) (tile0 []) []
     x.1.all.fin.st = .done ∧ x.1.all.waits = [] ∧ flightRoom (setBinds x.2 9 x.1.all.binds) 3 x.1.all.xl = true ∧
     (takeLeases (setBinds x.2 9 x.1.all.binds) 95 9 3 x.1.all.xl).isSome = true) ∧
    (let x := tileXlate (attrib hostOn 3 4 3) 95 (descOf0 0x11 .running) (tile0 [(0, 64)]) []
     x.1.all.fin.st ≠ .done) := by decide

theorem test_witness_tile_steps :
    List.all [(farXl, true), (zxl, false)] (fun c =>
      let tr := rec0 2 [(0, 64)] [(0, c.1)] []
      let own := if hOpcode (descOf0 0x11 .running).raw = 0x2A then tr.tile.selfReads ++ tr.more else tr.tile.reads ++ tr.tile.selfReads
      let l := loadRanges (sampleStamp (attrib (tiled 0x11 tr) 3 4 3) true 9 8) tr.xl [] own ⟨tr.view, tr.poisonAt, Fin.ok, 0⟩
      tileRec (tiled 0x11 tr) 9 4 == some tr && (l.1.fin.st != .done) == c.2) = true ∧
    List.all [(0x11, [(0, zxl)], true), (0x16, [], false)] (fun c =>
      let tr := rec0 3 [] c.2.1 []
      let e := scratchErrs (attrib (tiled c.1 tr) 3 4 3) tr (descOf0 c.1 .running) 0 []
      tileRec (tiled c.1 tr) 9 4 == some tr &&
        (match (computeTile e.2 (descOf0 c.1 .running) e.1 []).1 with | .inl _ => c.2.2 | .inr f => f.st == .unmapped && !c.2.2)) = true ∧
    tileRec (tiled 0x11 (rec0 5 [] [] [])) 9 4 = some (rec0 5 [] [] []) ∧
    95 < farEngine ∧ tileRec (tiled 0x15 (rec0 5 [] [] [⟨4, 0, 1, [], 0, false⟩])) 9 4 = some (rec0 5 [] [] [⟨4, 0, 1, [], 0, false⟩]) := by decide

theorem test_witness_engines : getF hostOn Reg.nmeStatus_state 95 = 0 ∧ getF (withF hostOn Reg.nmeStatus_state 2 95) Reg.nmeStatus_state 95 = 2 ∧
    tileRec (tiled 0x11 (rec0 3 [] [] [])) 9 4 = some (rec0 3 [] [] []) ∧
    nfind ({ hostOn with nme := { hostOn.nme with activating := [(95, 8)] } } : State).nme.activating 95 = some 8 ∧
    getB (withF hostOn Reg.secStatus_trng_ok 1) Reg.secStatus_trng_ok = true ∧ getB hostOn Reg.nmeRetire_busy = false ∧ 96 < 2 ^ Reg.nmeRetire_engine.width ∧ 95 < 96 := by decide

/-- A COPY2D of 64 bytes from PVA 0 to host address 0x2000, or the other way round. -/
def copyRaw (toHost : Bool) : Nat :=
  0x10 + (if toHost then 0x2000 <<< 192 else 0x2000 <<< 128) + 64 <<< 256 + 1 <<< 288 + 64 <<< 352 + 1 <<< 384 + 1 <<< (if toHost then 453 else 452)
/-- That descriptor running on channel 2 of engine 31, its piece charged. -/
def copying (toHost : Bool) : State :=
  let s := running { descOf0 0x10 .running with raw := copyRaw toHost } (mapped hostOn)
  { s with dma := { s.dma with run := [(31, ⟨2, 9, 0, 0, none, false, true, none, [], none⟩)] },
           hif := { s.hif with ats := [⟨1, 0, 2, true, true⟩] } }
/-- A host read of that engine. -/
def hostReading (flush : Bool) : State :=
  let s := copying false
  { s with dma := { s.dma with reads := [⟨7, 31, 0, 0x2000, 64, flush, none⟩] } }

theorem test_witness_host_reads :
    (hostReading false).dma.reads.find? (fun q => q.tag == 7) = some ⟨7, 31, 0, 0x2000, 64, false, none⟩ ∧
    (hostReading true).dma.reads.find? (fun q => q.tag == 7 && q.flush) = some ⟨7, 31, 0, 0x2000, 64, true, none⟩ ∧
    nfind (hostReading false).dma.run 31 = some ⟨2, 9, 0, 0, none, false, true, none, [], none⟩ ∧ (descOf (hostReading false) 9).isSome = true ∧
    31 < 32 := by decide

theorem test_witness_channels :
    (let s := { copying true with dma := { hostOn.dma with chans := [(31 * 8 + 6, [9])] } }
     nfind s.dma.run 31 = none ∧ nfind s.dma.run 63 = none ∧
     (arbPick 64 (arbN s Reg.xbarArbCtl_n_dma) (ngetD arb0 s.dma.arbs 31)
       ((((List.range 7).filter (fun c => ngetD [] s.dma.chans (31 * 8 + c) ≠ [])).map (fun c => (c,
         ((((ngetD [] s.dma.chans (31 * 8 + c)).head?).bind (descOf s)).map (fun d => (ctxOf s d.queue).qprio)).getD 0))) ++
         (if sevenWaits s 31 then [(7, 3)] else []))).1 = some 6) ∧
    (let s := { copying true with dma := { hostOn.dma with migs := [⟨0, 1, 0, 0, 0⟩] } }
     (arbPick 64 (arbN s Reg.xbarArbCtl_n_dma) (ngetD arb0 s.dma.arbs 0)
       ((((List.range 7).filter (fun c => ngetD [] s.dma.chans c ≠ [])).map (fun c => (c, 0))) ++
         (if sevenWaits s 0 then [(7, 3)] else []))).1 = some 7) := by decide

/-- What DMA_PIECE works with in a state whose engine 31 runs a transfer. -/
def pieceCase (s : State) (d : Desc) (r : DmaRun) : Bool × XAll × State :=
  let p := pieceOf d.raw r.ahead
  let c := pieceCharge s 31 r d p.2
  let u := modDesc c.2 d.uid (fun x => { x with phase := .running })
  let x := pieceXlate (attrib u 4 4 d.tenant) 31 r.ch r.ahead d
  (c.1, x.1, x.2)
theorem test_witness_pieces : List.all [true, false] (fun h =>
    let d := { descOf0 0x10 .running with raw := copyRaw h }
    let r : DmaRun := ⟨2, 9, 0, 0, none, false, true, none, [], none⟩
    let s := copying h
    let x := pieceCase s d r
    nfind s.dma.run 31 == some r && descOf s 9 == some d && decide (r.ahead < pieces d.raw) && decide (readsOut s 31 + (pieceOf d.raw 0).2 ≤ rdWindow s) && x.1 && x.2.1.fin.st == .done && x.2.1.waits == [] &&
      x.2.2.hif.linkUp && hostUp x.2.2 (fnOf x.2.2 d.queue) && hostMissing x.2.2 d 0 64 == [] && c2SrcHost d.raw == !h && flightRoom x.2.2 3 x.2.1.xl) = true ∧
    (let s := { copying true with xtu := hostOn.xtu }
     let d := { descOf0 0x10 .running with raw := copyRaw true }
     (pieceCase s d ⟨2, 9, 0, 0, none, false, true, none, [], none⟩).1 = true ∧
     (pieceCase s d ⟨2, 9, 0, 0, none, false, true, none, [], none⟩).2.1.fin.st ≠ .done) := by decide

theorem test_witness_resume :
    nfind ([(31, ⟨2, 9, 0, 0, none, true, true, none, [], none⟩)] : NMap DmaRun) 31 = some ⟨2, 9, 0, 0, none, true, true, none, [], none⟩ ∧
    (copying true).xtu.held = [] ∧ nfind (copying true).dma.run (32 + 31) = none ∧
    ([⟨5, 3, 8, 2, 900, 0, true, none, some 9, 0, none⟩] : List Outst).find? (fun o => o.uid == some 9 && o.reqId == 8 && o.isWrite) =
      some ⟨5, 3, 8, 2, 900, 0, true, none, some 9, 0, none⟩ := by decide

/-- Migration is enabled. -/
def migOn : State := withF hostOn Reg.xtuCtl_mig_en 1
theorem test_witness_migrations : getB hostOn Reg.xtuCtl_mig_en = false ∨ getB (withF hostOn Reg.xtuCtl_mig_en 0) Reg.xtuCtl_mig_en = false := by
  decide
theorem test_witness_migration_commands :
    (let put := fun (s : State) ppa => setF (setF (setF (setF s Reg.dmaMigCmd0_ppa ppa) Reg.dmaMigCmd1_iova 0x20000) Reg.dmaMigCmd2_pasid 0) Reg.dmaMigCmd2_index 4095
     let best := fun u => (List.range 16).foldl (fun b e => if migsOf u e < migsOf u b then e else b) 0
     getB (put migOn 1) Reg.xtuCtl_mig_en = true ∧ getF (put migOn 1) Reg.dmaMigCmd0_ppa % ellBytes ≠ 0 ∧
     ownerOf (getF (put migOn (2 ^ 42)) Reg.dmaMigCmd0_ppa) ≠ migOn.dev.node ∧
     getF (put migOn 65536) Reg.dmaMigCmd0_ppa % ellBytes = 0 ∧ getF (put migOn 65536) Reg.dmaMigCmd1_iova % ellBytes = 0 ∧
     ownerOf (getF (put migOn 65536) Reg.dmaMigCmd0_ppa) = migOn.dev.node ∧ migsOf (put migOn 65536) (best (put migOn 65536)) < 4 ∧
     (let full := { migOn with dma := { migOn.dma with migs := (List.range 64).map (fun i => ⟨i / 4, i, 0, 0, 0⟩) } }
      4 ≤ migsOf (put full 65536) (best (put full 65536)))) := by decide

/-- Engine 31 runs a migration of index 4095. -/
def migrating : State := { migOn with dma := { migOn.dma with run := [(63, ⟨7, 0, migPieces, migPieces, some ⟨31, 4095, 65536, 0, 0⟩, false, false, none, [], none⟩)] } }
theorem test_witness_migration_done : (nfind migrating.dma.run (32 + 31)).bind (fun r => r.mig) = some ⟨31, 4095, 65536, 0, 0⟩ ∧
    (nfind migrating.dma.run (32 + 31)).map (fun r => r.piece) = some migPieces ∧
    (⟨7, 0, 3, 5, some ⟨31, 4095, 65536, 0, 0⟩, false, false, none, [], some (3, 2, ⟨.timeout, 0, .iova, 0⟩)⟩ : DmaRun).fail =
      some (3, 2, ⟨.timeout, 0, .iova, 0⟩) ∧ migrating.dma.results.length < 64 ∧ migOn.dma.results = [] ∧ getB migOn Reg.xtuCtl_mig_en = true ∧
    nfind ({ migOn with xtu := { migOn.xtu with migEnts := [(4095, ⟨1, 0, 3, 0, 0, 0, 1, ⟨0, false, 0⟩, 3⟩)] } } : State).xtu.migEnts 4095 ≠ none := by
  decide

/-- Start is over: the features are committed, the random numbers good. -/
def committed (features : Nat) (s : State) : State :=
  withF (withF (withF s Reg.cfgStatus_committed 1) Reg.cfgFeatAccept_accept features) Reg.secStatus_trng_ok 1
theorem test_witness_tenants : getF (committed 6 hostOn) Reg.xtuTenant0_state 4095 = 0 ∧ getB (committed 6 hostOn) Reg.cfgStatus_committed = true ∧
    getB hostOn Reg.cfgStatus_committed = false ∧ needsRandom (committed 6 hostOn) 4095 false = false ∧
    tableOk (committed 6 hostOn) (tableOf (committed 6 hostOn) 4095).1 (tableOf (committed 6 hostOn) 4095).2 = true ∧
    feature (committed 6 hostOn) 1 = true ∧ feature (committed 6 hostOn) 2 = true ∧ getB (committed 6 hostOn) Reg.secStatus_debug_granted = false ∧
    needsRandom (committed 6 hostOn) 4095 true = true ∧ getB (committed 6 hostOn) Reg.secStatus_trng_ok = true ∧
    tableOk (withF hostOn Reg.xtuTenant8_ext_table_ppa 64 4095) (tableOf (withF hostOn Reg.xtuTenant8_ext_table_ppa 64 4095) 4095).1
      (tableOf (withF hostOn Reg.xtuTenant8_ext_table_ppa 64 4095) 4095).2 = false ∧
    ({ hostOn with sec := { hostOn.sec with pendingLoad := [4095] } } : State).sec.pendingLoad.contains 4095 = true ∧
    getF (tenant3 hostOn) Reg.xtuTenant0_state 3 = 1 ∧ getF (tenant3 hostOn) Reg.xtuTenant0_state 4 ≠ 1 ∧
    ({ hostOn with sec := { hostOn.sec with removals := [⟨4095, 2⟩] } } : State).sec.removals.find? (fun r => r.tenant == 4095) = some ⟨4095, 2⟩ ∧
    tenantBusy hostOn 4095 = false := by decide

/-- An invalidation that no holder must acknowledge any more. -/
def inval0 (notify : List Holder) : Inval := ⟨5, 3, 0, 1, 1, notify, [], 0, [], none⟩
theorem test_witness_translation :
    rcmdRefusal (tenant3 hostOn) (decide (65536 < 2 ^ 52) && (1 : Nat) ≠ 0 && decide (65536 / ellBytes + 1 ≤ 2 ^ 36)) (tenantActive (tenant3 hostOn) 3) = 0 ∧
    rcmdRefusal hostOn (decide (0 < 2 ^ 52) && (0 : Nat) ≠ 0 && decide (0 / ellBytes + 0 ≤ 2 ^ 36)) (tenantActive hostOn 3) ≠ 0 ∧
    rcmdRefusal (tenant3 hostOn) true (tenantActive (tenant3 hostOn) 3) = 0 ∧
    rcmdRefusal (tenant3 hostOn) (tableOk (tenant3 hostOn) 4096 1048576) (tenantActive (tenant3 hostOn) 3) = 0 ∧
    rcmdRefusal hostOn ((1 : Nat) ≠ 0 && decide (18874367 * 65536 / ellBytes + 1 ≤ 18874368)) true = 0 ∧
    (inval0 [.dma 255]).toNotify.contains (.dma 255) = true ∧ (inval0 [.engine 95]).toNotify.contains (.engine 95) = true ∧
    (inval0 [.dma 255]).epoch = 1 ∧ rangeBusy hostOn (inval0 []) = false ∧ (inval0 []).waiting = [] ∧
    [inval0 []].find? (fun v => v.ats.isNone && v.tag == 5) = some (inval0 []) ∧ (inval0 []).reqs = [] ∧ hostOn.xtu.late = [] ∧
    2 ^ 52 - 1 < 2 ^ 52 ∧ (tenant3 hostOn).xtu.cache.any (entHits 3 ((2 ^ 52 - 1) / ellBytes)) = false := by decide

theorem test_witness_publish : [(⟨6, 1, 2, [], true, some 9, none⟩ : Publish)].find? (fun p => p.region == 6) = some ⟨6, 1, 2, [], true, some 9, none⟩ ∧
    (learnBound { hostOn with xtu := { hostOn.xtu with publishes := [⟨6, 1, 2, [], true, some 9, none⟩] } } 6 []).xtu.publishes =
      [⟨6, 1, 2, [], true, some 9, none⟩] ∧ stillBound (learnBound hostOn 6 []) 6 1 = false ∧
    (let v : Revoke := ⟨4095, 0, 7, 1, 100, [.tag 1], 0, false⟩
     revokeOf { hostOn with xtu := { hostOn.xtu with revokes := [v] } } 4095 (7 * 65536 + 65535) = some v ∧
     inFlight { hostOn with xtu := { hostOn.xtu with revokes := [v] } } v = [] ∧ inFlightDir { hostOn with xtu := { hostOn.xtu with revokes := [v] } } v = []) := by
  decide

/-- Port 0's peer is a plain node of number 5; port 1's peer is an SR2 of number 6. -/
def peered : State := withF (withF (withF hostOn Reg.fptPeer_node 5 0) Reg.fptPeer_node 6 1) Reg.fptPeer_sr2 1 1
/-- A packet from the node on port 0, from the SR2 on port 1, and a false one. -/
def fromNode (k : Nat) : Pkt := { okPkt with src := 5, ptype := k, tenant := 3 }
/-- A packet of the SR2 that presents a PPA. -/
def fromPeer (k : Nat) : Pkt := { okPkt with src := 6, ptype := k, tenant := 3, isPpa := true }
theorem test_witness_fabric_requests :
    List.all [1, 2, 3, 0x40, 0x41, 0x42, 4, 5, 6, 7] (fun k => (arrives peered 1 (fromPeer k)).1 && fromSr2 (arrives peered 1 (fromPeer k)).2 1) = true ∧
    List.all [1, 2, 3, 0x40, 0x41, 0x42, 4] (fun k => (arrives peered 0 (fromNode k)).1 && !fromSr2 (arrives peered 0 (fromNode k)).2 0) = true ∧
    (fromPeer 1).isPpa = true ∧ (arrives peered 0 (fromPeer 1)).1 = false ∧ (arrives peered 0 (fromNode 5)).1 = false ∧
    (match (entryChecks (arrives (tenant3 peered) 1 (fromPeer 4)).2 1 (fromPeer 4)).1 with | .inl _ => true | .inr _ => false) = true ∧
    (arrives peered 12 (fromPeer 7)).1 = true := by decide

/-- A request of type k to node 6 that waits for its response. -/
def outst (k : Nat) (client uid : Option Nat) : State :=
  { peered with nie := { peered.nie with outst := [⟨6, 3, 0, k, 900, 0, k == 2, client, uid, 0, none⟩] } }
theorem test_witness_fabric_responses :
    List.all [(1, 0x81), (2, 0x82), (3, 0x83), (5, 0x85), (6, 0x86), (7, 0x87), (1, 0x8F)] (fun c =>
      (arrives (outst c.1 (some 4) (some 9)) 1 (fromPeer c.2)).1 &&
      (matchOutst (arrives (outst c.1 (some 4) (some 9)) 1 (fromPeer c.2)).2 (fromPeer c.2)).isSome &&
      matchOutst (arrives peered 1 (fromPeer c.2)).2 (fromPeer c.2) == none) = true ∧
    List.all [(2, 0x82), (3, 0x83)] (fun c =>
      ((matchOutst (arrives (outst c.1 none (some 9)) 1 (fromPeer c.2)).2 (fromPeer c.2)).map (fun o => o.client.isNone && o.uid == some 9)) == some true) = true ∧
    List.all [0xC3, 0xC4, 0xC5] (fun k => (arrives peered 1 (fromPeer k)).1) = true := by decide

/-- Job 4095 is bound. -/
def bound : State := withF hostOn Reg.nieJob0_valid 1 4095
/-- Flow 65535 is open under it. -/
def flowing : State := { bound with nie := { bound.nie with flows := [(65535, ⟨4095, 5, 0, 0⟩)] } }
theorem test_witness_flows : nfind flowing.nie.flows 65535 ≠ none ∧ nfind bound.nie.flows 65535 = none ∧
    getB bound Reg.nieJob0_valid 4095 = true ∧ getB hostOn Reg.nieJob0_valid 4095 = false ∧
    (let p : Pkt := { fromNode 4 with flow := 65535, seq := 0, job := 4095 }
     let s := { flowing with nie := { flowing.nie with reorder := [(0, p)] } }
     s.nie.reorder.find? (fun x => x.2.flow == 65535 && (flowCheck s x.2 == .go || flowCheck s x.2 == .again)) = some (0, p)) ∧
    [(⟨3, 8, 1, 5, 0, 0, 0, 0, 0, .none, 100⟩ : RcEnt)].find? (fun e => e.tenant == 3 && e.reqId == 8) = some ⟨3, 8, 1, 5, 0, 0, 0, 0, 0, .none, 100⟩ ∧
    ((outst 1 none (some 9)).nie.outst.find? (fun o => o.dst == 6 && o.tenant == 3 && o.reqId == 0)).isSome = true := by decide

/-- Agent 7 is node 5, and is failed or not. -/
def agented (failed : Nat) : State := withF (withF (withF peered Reg.dirAgent_node 5 7) Reg.dirAgent_enable 1 7) Reg.dirAgent_failed failed 7
/-- A line of the directory that agent 7 shares or owns, and its transaction. -/
def lined (st : Nat) (txn : Option DirTxn) : State :=
  { agented 0 with dir := { (agented 0).dir with ents := [(0, ⟨st, false, false, [7], 0, 3, ⟨0, false, 0⟩⟩)], txns := txn.toList } }
/-- A transaction on line 0 that waits for agent 7. -/
def txn0 (comp : Bool) : DirTxn :=
  ⟨⟨0, 0x40, 7, none, none, 3, ⟨0, false, 0⟩, none, 14⟩, [7], [], comp, 100, 1, .toI, none, [], 0⟩
theorem test_witness_directory_messages :
    List.all [0x43, 0x44, 0x45, 0x46] (fun k => (arrives (agented 0) 0 (fromNode k)).1 &&
      (sender (arrives (agented 0) 0 (fromNode k)).2 (fromNode k)).1 == some 7 &&
      (sender (arrives (agented 1) 0 (fromNode k)).2 (fromNode k)).1 == none) = true ∧ agentOf (agented 1) 5 ≠ none ∧
    (dirEnt (lined 1 none) 0).map (fun e => e.st) = some 1 ∧ ((dirEnt (lined 2 none) 0).bind ownerAgent) = some 7 ∧ txnOf (lined 2 none) 0 = none ∧
    txnOf (lined 1 (some (txn0 true))) 0 = some (txn0 true) ∧ (txn0 true).snp.contains 7 = true ∧ (txn0 true).req.agent = 7 := by decide

theorem test_witness_directory_commands : nfind ([(0, 500)] : NMap Nat) 0 = some 500 ∧
    ((txn0 false).snp.contains 7 || (txn0 false).wb.contains 7) = true ∧
    ({ txn0 false with old := some ⟨2, false, false, [7], 0, 3, ⟨0, false, 0⟩⟩ } : DirTxn).old.bind ownerAgent = some 7 ∧
    (txn0 false).old.bind ownerAgent ≠ some 7 ∧ getB hostOn Reg.dirCmd_busy = false ∧ (1 : Nat) % ellBytes ≠ 0 ∧
    1 < 2 ^ Reg.dirCmdArg0_ppa.width ∧ 2 < 2 ^ Reg.dirCmdArg1_ells.width ∧
    ¬ (65536 % ellBytes ≠ 0 ∨ ownerOf 65536 ≠ hostOn.dev.node ∨ (2 : Nat) = 0 ∨ 2 ^ 42 < localOf 65536 + 2 * ellBytes) ∧
    (∀ e ∈ (lined 1 none).dir.ents, ¬ (lineOf 65536 ≤ e.1 ∧ e.1 < lineOf 65536 + 2 * 1024)) ∧
    7 < 2 ^ Reg.dirCmd_agent.width ∧ agentFailed (setF (agented 1) Reg.dirCmd_agent 7) 7 = true ∧
    agentFailed (setF (agented 0) Reg.dirCmd_agent 7) 7 = false := by decide

/-- Port p in a link state. -/
def ported (st p : Nat) (s : State) : State := withF s Reg.fptStatus_state st p
/-- A packet at the router. -/
def rp (id : Nat) : RtrPkt := ⟨id, okPkt, none, 0, 11, false, 100, 0⟩
theorem test_witness_router : portState (ported 4 11 hostOn) 11 = 4 ∧ ({ okPkt with vc := 4 } : Pkt).vc < 5 ∧
    (((ported 4 11 hostOn).rtr.inq.filter (fun e => e.1 / 8 == 11)).flatMap (·.2)).find? (fun r => r.out.isNone && sameHeader r.pkt okPkt) = none ∧
    (rtrPkt (enterPkt (ported 4 11 hostOn) 11 okPkt).2 (enterPkt (ported 4 11 hostOn) 11 okPkt).1).isSome = true ∧
    rtrPkt { hostOn with rtr := { hostOn.rtr with inq := [(88, [rp 3])] } } 3 = some (rp 3) ∧
    2 ^ Reg.routerTblAddr_dest.width - 1 < 2 ^ Reg.routerTblAddr_dest.width ∧ halfState hostOn false ≠ 0 ∧ halfState hostOn true = 0 ∧
    halfState (withF hostOn Reg.routerEpoch_half1 2) true = 2 ∧ (arrives peered 1 (fromPeer 0xC0)).1 = true ∧
    halfState (arrives peered 1 (fromPeer 0xC0)).2 (bitOf (fromPeer 0xC0).body 0) = 1 ∧
    halfState (arrives peered 1 { fromPeer 0xC0 with body := 1 }).2 true = 0 ∧
    (∀ p, p < 14 → oldCount (advance { hostOn with rtr := { hostOn.rtr with drain := some (500, 5) } } 500) p = 0) := by decide

/-- A port whose link has something to do. -/
def linked (f : PortState → PortState) : State := modPort (ported 4 11 hostOn) 11 f
/-- The frame of four idle flits with the number n, sealed with its CRC. -/
def frameNo (n : Nat) : Frame :=
  let f := { okFrame with seqValid := true, seq := n }
  { f with crc := crc32 (frameBytes f) }
theorem test_witness_link_frames :
    (portAt (updXoff (linked (fun q => { q with lctl := [(3, 9)] })) 11) 11).lctl ≠ [] ∧
    (portAt (updXoff (linked (fun q => { q with rpt := some (0, 0) })) 11) 11).rpt = some (0, 0) ∧
    (portAt (updXoff (linked (fun q => { q with rpt := some (0, 0) })) 11) 11).lctl = [] ∧
    (portAt (updXoff (linked id) 11) 11).lctl = [] ∧ (portAt (updXoff (linked id) 11) 11).rpt = none ∧
    crc32 (frameBytes { frameNo 0 with crc := 0 }) ≠ ({ frameNo 0 with crc := 0 } : Frame).crc ∧ frameForm badFrame = false ∧
    crc32 (frameBytes (frameNo 0)) = (frameNo 0).crc ∧ frameForm (frameNo 0) = true ∧ (frameNo 0).ackValid = false ∧ (frameNo 0).seqValid = true ∧
    (frameNo 0).flits.filter (fun x => x.ty == 5) = [] ∧
    portState (modPort (bump (linked id) Reg.fptFecCorr_count 3 11) 11 (fun q => { q with xoffIn := (frameNo 0).xoff % 32 })) 11 = 4 ∧
    (portAt (modPort (bump (linked id) Reg.fptFecCorr_count 3 11) 11 (fun q => { q with xoffIn := (frameNo 0).xoff % 32 })) 11).exp = (frameNo 0).seq % 4096 ∧
    (portAt (linked (fun q => { q with replay := [frameNo 0] })) 11).replay ≠ [] ∧
    (portAt (linked (fun q => { q with asked := some 40 })) 11).asked = some 40 := by decide

theorem test_witness_ports : List.all [0, 1, 2, 3, 4, 5, 6] (fun st => portState (ported st 11 hostOn) 11 == st) = true ∧
    portState (setB (ported 6 11 hostOn) Reg.fptCtl_enable false 11) 11 ≠ 0 ∧
    laneActive (linked id) 11 7 = true ∧ laneActive (linked id) 11 8 = false ∧
    getF (withF (linked id) Reg.fptLaneCtl_ser_limit 1 11) Reg.fptLaneCtl_ser_limit 11 ≠ 0 ∧
    getF (ported 5 11 hostOn) Reg.fptPeer_node 11 ≠ ({ okCfg with node := 9 } : CfgInfo).node ∧
    getF (ported 5 11 hostOn) Reg.fptPeer_node 11 = okCfg.node ∧ getF (ported 5 11 hostOn) Reg.fptPeer_port 11 = okCfg.port ∧
    getB (ported 5 11 hostOn) Reg.fptPeer_sr2 11 = okCfg.sr2 ∧ regionsOk (ported 5 11 hostOn) 11 = true ∧
    (okCfg.expected % 4096 + 4096 - oldestNum (portAt (ported 5 11 hostOn) 11)) % 4096 ≤ (portAt (ported 5 11 hostOn) 11).replay.length ∧
    getB (ported 5 11 hostOn) Reg.fptEnc_enc_required 11 = false ∧ okCfg.encReq = false ∧
    (runLanes (ported 5 11 hostOn) 11 okCfg.rxFail okCfg.txFail).isSome = true ∧
    getB (withF (ported 6 11 hostOn) Reg.fptCtl_auto_up 1 11) Reg.fptCtl_auto_up 11 = true := by decide

/-- An encrypted port with its transmit key. -/
def keyed (f : PortState → PortState) : State :=
  let s := withF (linked f) Reg.fptStatus_enc_active 1 11
  { s with sec := { s.sec with txKey := [(11, ⟨1, 2, 3, 4, 5, 65535⟩)] } }
/-- 64 commands of SEC are outstanding. -/
def secFull (s : State) : State := { s with sec := { s.sec with cmds := 64 } }
theorem test_witness_link_keys : getB (keyed id) Reg.fptStatus_enc_active 11 = true ∧ 2 ^ 32 ≤ (portAt (keyed (fun q => { q with txCnt := 2 ^ 32 })) 11).txCnt ∧
    (portAt (keyed (fun q => { q with txCnt := 2 ^ 32 - 1 })) 11).txCnt < 2 ^ 32 ∧
    getF (withF (keyed id) Reg.secLinkCtl_rekey_ms 1) Reg.secLinkCtl_rekey_ms ≠ 0 ∧ sccqRoom hostOn = true ∧ sccqRoom (secFull hostOn) = false ∧
    nfind (keyed id).sec.txKey 11 = some ⟨1, 2, 3, 4, 5, 65535⟩ ∧ portState (keyed (fun q => { q with rekey := true })) 11 = 4 ∧
    (portAt (keyed (fun q => { q with rekey := true })) 11).rekey = true ∧ (portAt (keyed (fun q => { q with rekey := true })) 11).replay = [] ∧
    segOpen (portAt (keyed (fun q => { q with rekey := true })) 11) = false := by decide

/-- An entry of the holding queue. -/
def held0 (pos t : Nat) : HoldEnt := ⟨pos, t, 3, 1, 0, 0, 64, .desc 9⟩
theorem test_witness_admission :
    (let hs := [held0 5 300, held0 8191 300, held0 2 400]
     let due := hs.filter (fun e => e.atNs == 300)
     (arbPick 8192 (arbN hostOn Reg.xbarArbCtl_n_adm) hostOn.adm.arb (due.map (fun e => (e.pos, 0)))).1 = some 5 ∧
     due.find? (fun e => e.pos == 5) = some (held0 5 300) ∧ [held0 8191 300, held0 2 400].foldl (fun a e => min a e.atNs) (held0 5 300).atNs = 300) ∧
    2 ^ Reg.admBktRate_rate.width - 1 < 2 ^ Reg.admBktRate_rate.width ∧ 2 ^ Reg.admBktGust_gust.width - 1 < 2 ^ Reg.admBktGust_gust.width ∧
    0 < 2 ^ Reg.admBktCfg_overhead.width ∧ 0 < 2 ^ Reg.admBktCfg_target_us.width ∧ 0 < 2 ^ Reg.admBktCfg_limit_us.width ∧ 5119 < 5120 ∧ 8191 < 8192 := by
  decide

theorem test_witness_memory :
    (let r : MemReq := ⟨39, 5, 64, 64, none, [], false, none, 0⟩
     let s := withF hostOn Reg.smcChOnline_mask (2 ^ 32 - 1) 11
     let ch := 11 * 32 + 31
     let b := bridge s 11 ((List.range 64).filterMap (fun i => offer s ch (([r].filter (fun r => posPresents r.pos)).filter (fun r => r.pos == i))))
     let ranked := b.1.map (fun r => (r.pos, max (posRank b.2 r.pos) (urgency r.ageNs (posTarget b.2 r.pos))))
     let a := arbPick 64 (arbN b.2 Reg.xbarArbCtl_n_smc) (ngetD arb0 b.2.smc.arbs ch) ranked
     chanOnline s 11 31 = true ∧ b.1.find? (fun r => a.1 == some r.pos) = some r) ∧
    (let r : MemReq := ⟨0, 100000, 64, 64, none, [], false, none, 0⟩
     let s := withF hostOn Reg.smcCtl_postpone_max 8 11
     posPresents r.pos = true ∧ bankKey ((11 * 32 + 31) * chanBytes + r.z % chanBytes) < 2 ^ 32 ∧ 2 ≤ urgency r.ageNs (posTarget s r.pos)) ∧
    tempMoved (withF hostOn Reg.smcTemp_temp 1000 11) 11 31 = true ∧ tempMoved (withF hostOn Reg.smcTemp_temp 0 11) 11 31 = false ∧
    ngetD 0 hostOn.smc.trainFails (11 * 32 + 31) = 0 ∧ ngetD 0 ([(383, 1)] : NMap Nat) (11 * 32 + 31) ≠ 0 ∧
    [(⟨9, 4⟩ : Delta)].find? (fun d => d.gran == 9) = some ⟨9, 4⟩ ∧
    ngetD 0 (withF hostOn Reg.smcCtl_postpone_max 8 11).smc.owed ((11 * 32 + 31) * 128 + 127) <
      min 8 (getF (withF hostOn Reg.smcCtl_postpone_max 8 11) Reg.smcCtl_postpone_max 11) ∧
    nfind ([((11 * 32 + 31) * 128 + 127, (7, 900))] : NMap (Nat × Nat)) ((11 * 32 + 31) * 128 + 127) = some (7, 900) ∧
    getB hostOn Reg.smcLock_locked = false ∧ getB (withF hostOn Reg.smcLock_locked 1) Reg.smcLock_locked = true ∧
    getB (withF hostOn Reg.smcLock_locked 1) Reg.smcLock_zmap_ready = false := by decide

/-- Protected mode with the spare set aside. -/
def protMode (s : State) : State := { s with mem := { s.mem with prot := true, spare := 11 } }
/-- The spare is being rebuilt for stack 2. -/
def rebuild0 : State :=
  let s := withF (protMode hostOn) Reg.parStatus_state 2
  { s with ras := { s.ras with failedMember := some 2, promoted := true } }
theorem test_witness_ras : (protMode hostOn).mem.prot = true ∧ hostOn.mem.prot = false ∧ getF hostOn Reg.smcStatus_state 11 ≠ 2 ∧
    getB (withF hostOn Reg.parCtl_ue_retire_en 1) Reg.parCtl_ue_retire_en = true ∧
    max 1 (getF hostOn Reg.rasCtl_ue_limit) < (ngetD (0, 0) ([(11, (100, 300))] : NMap (Nat × Nat)) 11).2 ∧
    (members (setF (protMode hostOn) Reg.parCmd_stack 11)).contains 11 = false ∧ (members (setF (protMode hostOn) Reg.parCmd_stack 10)).contains 10 = true ∧
    rebuilding (setF (protMode hostOn) Reg.parCmd_stack 10) = false ∧
    rebuilding (setF (withF (protMode hostOn) Reg.parStatus_state 2) Reg.parCmd_stack 10) = true := by decide
theorem test_witness_rebuild : rebuild0.ras.failedMember = some 2 ∧ rebuild0.ras.promoted = true ∧ rebuilding rebuild0 = true ∧
    rebuildPtr rebuild0 31 < chanBytes ∧
    (let s := rebuild0
     let c := 31
     let p := (2 * 32 + c) * chanBytes + rebuildPtr s c
     let u := settleDeltas s p
     let v := if canReconstruct u p then putMeta (bump u Reg.parRecon_count) (p / 64) { metaAt u (p / 64) with errs := [] }
       else logRas (poisonInPlace (bump u Reg.parUnrecov_count) (p / 64)) 0x0C p
     let w0 := { v with ras := { v.ras with rebuilt := nput v.ras.rebuilt c (rebuildPtr s c + 64) } }
     let w := setF w0 Reg.parRebuild_frames_done (framesDone w0)
     (List.range 32).all (fun k => decide (chanBytes ≤ rebuildPtr w k)) = false) := by decide

theorem test_witness_mistral :
    (let s := withF (withF (withF hostOn Reg.smcLock_zmap_ready 1) Reg.mslCtl_bg_en 1) Reg.smcChOnline_mask (2 ^ 32 - 1) 11
     let u := writeRepairs (attribOwn s 6) (11 * 32 + 31)
     getB (attribOwn s 6) Reg.smcLock_zmap_ready = true ∧ ngetD [] u.ras.repairQ 11 = [] ∧ getB u Reg.mslCtl_bg_en = true ∧
     chanOnline u 11 31 = true ∧ ngetD 0 u.ras.walk (11 * 32 + 31) < chanBytes ∧
     (let v := writeRepairs (attribOwn { s with ras := { s.ras with repairQ := [(11, [4, 5])] } } 6) (11 * 32 + 31)
      ngetD [] v.ras.repairQ 11 = [4, 5])) ∧
    (let gs := rowGrans (11 * 32 + 31) 1 63 24575
     let s := putMeta (withF hostOn Reg.rasCtl_repair_en 1) (gs.headD 0) { metaAt hostOn (gs.headD 0) with poison := true }
     let p := gs.headD 0 * 64
     gs.any (fun g => (metaAt s g).poison || rsDecode (metaAt s g).errs == .uncorrectable) = true ∧ getB s Reg.rasCtl_repair_en = true ∧
     isLost s p = false ∧ isFailedAt s p = false ∧ s.ras.repairList.length < 1024 ∧ rowLog (gs.foldl copyCodeword s) p = none) := by decide

theorem test_witness_security : (1 : Nat) % ellBytes ≠ 0 ∧ rsvBase hostOn < 0 + 2 ^ 31 * ellBytes ∧
    ¬ (65536 % ellBytes ≠ 0 ∨ (1 : Nat) = 0 ∨ rsvBase hostOn < 65536 + 1 * ellBytes) ∧ removed hostOn 4095 = true ∧ removed (tenant3 hostOn) 3 = false ∧
    sccqRoom hostOn = true ∧ sccqRoom (secFull hostOn) = false ∧
    [(⟨5, 65536, 2, ⟨0, false, 0⟩⟩ : Erase)].find? (fun e => e.tag == 5) = some ⟨5, 65536, 2, ⟨0, false, 0⟩⟩ ∧
    getF (withF hostOn Reg.secStatus_rot_state 1) Reg.secStatus_rot_state ≠ 0 ∧
    (∀ p, p < 12 → (portAt (secView (setB hostOn Reg.secStatus_trng_ok true)) p).cfgWait = none) ∧
    ({ hostOn with fuse := { hostOn.fuse with lock := true } } : State).fuse.lock = true ∧ hostOn.fuse.lock = false ∧
    getB (withF hostOn Reg.secStatus_trng_ok 1) Reg.secStatus_trng_ok = true ∧ anyConfidential hostOn = false ∧
    anyConfidential (withF (tenant3 hostOn) Reg.xtuTenant0_confidential 1 3) = true ∧ doeOpen hostOn = true ∧
    getB hostOn Reg.secStatus_identity_ready = false ∧ getB idReady Reg.secStatus_identity_ready = true := by decide

theorem test_witness_configuration : getB (committed 1 hostOn) Reg.cfgStatus_committed = true ∧ getB hostOn Reg.cfgStatus_committed = false ∧
    getF hostOn Reg.cfgStatus_phase ≠ 4 ∧ getF (withF hostOn Reg.cfgStatus_phase 4) Reg.cfgStatus_phase = 4 ∧
    acceptOk (setHostCfg (withF (withF hostOn Reg.cfgStatus_phase 4) Reg.cfgFeatAccept_accept 1) okHost) = true ∧
    acceptOk (setHostCfg (withF (withF hostOn Reg.cfgStatus_phase 4) Reg.cfgFeatAccept_accept 2) okHost) = false ∧ bar2Open hostOn 0 = true ∧
    getF State.reset Reg.cfgStatus_phase = 0 ∧ State.reset.pwr.trip = false ∧ okStart.cold = false ∧ ({ okStart with cold := true } : StartEnv).cold = true ∧
    getF (withF hostOn Reg.cfgStatus_phase 6) Reg.cfgStatus_phase ≠ 0 := by decide

/-- Pair B holds the claim and runs. -/
def ruledB (s : State) : State := withF (withF s Reg.pwrClaim_winner 2) Reg.mgtBStatus_state 4
theorem test_witness_claims : pairRuns (ruled hostOn) false = true ∧ pairRuns (ruledB hostOn) true = true ∧ 3 < 4 ∧
    pairRuns (ruledB hostOn) (decide (2 ≤ 3)) = true ∧ claimOf (setPresent (ruledB hostOn) true true) true ≠ 0 ∧
    claimOf (setPresent (withF (ruled hostOn) Reg.pwrClaimCfg_level_a 5) false true) false ≠ 0 ∧
    winner (ruled hostOn) = some false ∧ winner (ruledB hostOn) = some true ∧ 257 % 256 ≠ 0 ∧ winner (withF hostOn Reg.pwrClaim_winner 0) = none ∧
    pairState (withF hostOn Reg.mgtBStatus_state 3) true = 3 ∧ pairState (withF hostOn Reg.mgtAStatus_state 1) false = 1 ∧
    winner (ruled hostOn) = some (!true) ∧ pdOn (withF (ruled hostOn) Reg.pwrPdState1_isOn 4) 66 = true ∧
    ({ hostOn with pwr := { hostOn.pwr with dolSince := some 100 } } : State).pwr.dolSince = some 100 := by decide

theorem test_witness_power : winner (ruled hostOn) ≠ some true ∧ winner (ruled hostOn) = some false ∧ 127 < 128 ∧
    ({ hostOn with pwr := { hostOn.pwr with step := some 5 } } : State).pwr.step = some 5 ∧
    2 ^ Reg.pwrPkg_power.width - 1 < 2 ^ Reg.pwrPkg_power.width ∧ 2 ^ Reg.pwrTemp_temp.width - 1 < 2 ^ Reg.pwrTemp_temp.width ∧
    ({ hostOn with pwr := { hostOn.pwr with pd := some (71, false) } } : State).pwr.pd = some (71, false) := by decide

theorem test_witness_telemetry : 4095 < 4096 ∧ (4094 : Nat) ≠ 4095 ∧ getB hostOn Reg.telDumpCtl_en = false ∧
    getB (withF hostOn Reg.telDumpCtl_en 1) Reg.telDumpCtl_en = true ∧ hostOn.dma.mgts.any (·.dump) = false ∧
    ([⟨16, 0, [], true⟩] : List MgtXfer).any (·.dump) = true ∧ 31 < 32 ∧ getB hostOn Reg.telSampCtl_en = false := by decide

theorem test_witness_registers : bar2Open hostOn 0 = true ∧ 0xFFFFFFC < 2 ^ 28 ∧ ¬ (2 = 4 ∨ 2 = 8) ∧ 0xFFFFFFC % 8 ≠ 0 ∧ 0xFFFFFFC % 4 = 0 ∧
    (match regAt (Reg.hifMbxReq_data.off) with | some (r, _) => r.width == 64 | none => false) = true ∧ Reg.hifMbxReq_data.off % 8 = 0 ∧
    (match regAt 0x2801000 with | some (r, _) => decide (r.width ≠ 64) | none => false) = true ∧ 0x2801000 % 8 = 0 ∧
    bar2Open { hostOn with hif := { hostOn.hif with ready := false } } 0 = false ∧ hostOn.hif.linkUp = true ∧ 0 ∉ hostOn.hif.d3 ∧
    pairRuns (withF hostOn Reg.mgtBStatus_state 5) true = false ∧ pairRuns (ruled hostOn) false = true ∧
    pairRuns (withF (ruled hostOn) Reg.mgtBStatus_state 3) true = true ∧ winner (withF (ruled hostOn) Reg.mgtBStatus_state 3) ≠ some true ∧
    passesGate true 0xFFFFFFC = false := by decide

theorem test_witness_field_types : 3 < 2 ^ Reg.fptStatus_state.width ∧ headRing Reg.fptStatus_state = none ∧
    (2 ^ Reg.nmeErr_guard_in.width - 1 : Nat) = 1 ∧ (0 : Nat) ≠ 2 ^ Reg.nmeErr_guard_in.width - 1 ∧
    fldKey Reg.fptStatus_state 11 ≠ fldKey Reg.fptStatus_state 10 := by decide

/-- The first pending-value field of DIR's table. -/
def rwc0 : Option (Fld × Nat) := Reg.tableDir.findSome? (fun r => r.fields.findSome? (fun e => if e.1 = .rwc then some (e.2, 0) else none))
theorem test_witness_commits : (match rwc0 with
    | some (f, n) => rwcAt Reg.tableDir (fldKey f n) == some (f, n) && nfind [(fldKey f n, 1)] (fldKey f n) == some 1
    | none => false) = true ∧ NMap.sorted ([(8, 1)] : NMap Nat) ∧ hostOn.shadow = [] := by decide

theorem test_witness_memory_bytes : Memory.wf State.reset.mem = true ∧ ([1, 2] : List Byte)[1]? = some 2 ∧ (7 < 8 ∨ 8 + 2 ≤ 7) ∧ (10 < 8 ∨ 8 + 2 ≤ 10) := by
  decide

theorem test_witness_arbiters : (∀ q ∈ [(63, 1), (0, 3)], q.1 < 64) ∧ [(63, 1), (0, 3)] ≠ [] ∧ 7 % 8 = 8 - 1 ∧ 6 % 8 ≠ 8 - 1 := by decide

theorem test_witness_nans : List.all [ffFp32, ffBf16, ffFp16, ffE5m2] (fun f =>
      bitsOf (2 ^ (f.mbits + f.ebits) - 1) f.mbits f.ebits == 2 ^ f.ebits - 1 && bitsOf (2 ^ (f.mbits + f.ebits) - 1) 0 f.mbits != 0) = true ∧
    255 % 128 = 127 ∧ 255 < 256 ∧ 254 % 128 ≠ 127 ∧ 252 % 128 ≤ 0x7C := by decide

theorem test_witness_field_checks : (fieldTable.any (fun r => r.id != 0x11 && r.id != 0x23 && !r.enumerated && decide (0 < r.lo) && decide (r.lo < r.hi))) = true ∧
    (fieldTable.any (fun r => r.id != 0x11 && r.id != 0x23 && r.id != 0x13 && r.enumerated)) = true := by decide

theorem test_witness_layouts : (locate State.reset ⟨0, false, 0⟩ 0).isSome = true ∧
    (locate State.reset ⟨3, true, 11⟩ (rsvBase State.reset - 1)).isSome = true ∧
    (locate (protMode State.reset) ⟨0, false, 0⟩ 65535).isSome = true ∧
    (rsvBase State.reset - 1) / ellBytes / framesOf State.reset 11 = (rsvBase State.reset - 2) / ellBytes / framesOf State.reset 11 ∧
    (locateRsv State.reset (capacity State.reset - 1)).isSome = true := by decide

/-- A command of each of the three frames answers a next state. -/
theorem test_witness_frames : storesNothing .dirCommit = true ∧ onNext (exec .dirCommit hostOn) (fun _ => true) = true ∧
    linkCommand (.portEnable 3) = true ∧ onNext (exec (.portEnable 3) hostOn) (fun t => portState t 3 == 1) = true ∧
    queueCommand (.enable 0) = true ∧ onNext (exec (.enable 0) (queueOf (qOf 0) (tenant3 hostOn))) (fun t => (ctxOf t 0).state == 1) = true := by
  decide

/-- The ordinary cases, clause by clause where no other witness shows them. -/
theorem test_witness_ordinary :
    (let s := withF (withF hostOn Reg.cfgStatus_phase 4) Reg.cfgFeatAccept_accept 1
     getB s Reg.cfgStatus_committed = false ∧ getF s Reg.cfgStatus_phase = 4 ∧ acceptOk (setHostCfg s okHost) = true) ∧
    (let s := stageOf (qOf 0) (queueOf (qOf 0) (tenant3 hostOn))
     (ctxOf (noticeCtx s 0) 0).state = 0 ∧ ctxOk (noticeCtx s 0) 0 (stagedCtx (noticeCtx s 0)) = true ∧
     ctxOk (noticeCtx s 0) 0 (ctxOf (noticeCtx s 0) 0) = true ∧ tenantActive (noticeCtx s 0) (ctxOf (noticeCtx s 0) 0).tenant = true) ∧
    (let s := { copying true with dma := { hostOn.dma with chans := [(31 * 8 + 6, [9])] } }
     nfind s.dma.run 31 = none ∧ sevenWaits s 31 = false ∧ (∀ k, k < 7 → (ngetD [] s.dma.chans (31 * 8 + k) ≠ [] ↔ k = 6))) ∧
    (pieceCharge (copying true) 31 ⟨2, 9, 0, 0, none, false, true, none, [], none⟩ { descOf0 0x10 .running with raw := copyRaw true } 64).1 = true ∧
    c2SrcHost (copyRaw true) = false ∧ 0 < pieces (copyRaw true) ∧
    (let s := { running (descOf0 0x20 .waitList) hostOn with nme := { hostOn.nme with waitQ := [9] } }
     s.nme.rr = 0 ∧ waitFirst s 0 = some 9) ∧
    (5 : Nat) * 65536 < 2 ^ 52 ∧ tenantActive (tenant3 hostOn) 3 = true ∧ xccqRoom (tenant3 hostOn) = true ∧
    tableOk (tenant3 hostOn) 0 1048576 = true ∧ needsRandom hostOn 4095 (getB hostOn Reg.xtuTenant0_confidential 4095) = false ∧
    hostOn.xtu.held = [] := by decide

/-! Steps of the block, from the specification's words. -/

/-- A doorbell that posts one entry moves the tail of an ENABLED queue (R54). -/
theorem test_doorbell : onNext (exec (.sqTail 1 0 0 1) (page1 (queueOf (qOf 1) hostOn))) (fun t => (ctxOf t 0).sqTail == 1 && (ctxOf t 0).state == 1) = true := by
  decide
/-- A doorbell that posts more entries than the ring has takes the queue to ERROR with cause 1 (R54). -/
theorem test_doorbell_overrun : onNext (exec (.sqTail 1 0 0 17) (page1 (queueOf (qOf 1) hostOn)))
    (fun t => (ctxOf t 0).state == 2 && (ctxOf t 0).errCause == 1) = true := by decide
/-- A disabled port that is enabled looks for a signal (R293). -/
theorem test_port_enable : onNext (exec (.portEnable 3) hostOn) (fun t => portState t 3 == 1 && portState t 4 == 0) = true := by decide
/-- A start below 0 degrees stops (R439). -/
theorem test_cold_start : exec (.deviceStart { okStart with cold := true }) State.reset = .fault .startBelowZero := by rfl
/-- The guard of 123456789 (R15). -/
theorem test_guard : crc16 [0x31, 0x32, 0x33, 0x34, 0x35, 0x36, 0x37, 0x38, 0x39] = 0xD0DB := by decide
/-- The address of the sideband is 0x58 + 2 × GPIO_1 + GPIO_0 (R434). -/
theorem test_straps : (List.range 4).map (fun k => smbusAddr { hostOn with dev := { hostOn.dev with straps := k } }) = [0x58, 0x59, 0x5A, 0x5B] := by
  decide
/-- Filter set 0 has no registers (R421). -/
theorem test_filter_zero : regAt 0x501000 = none ∧ (regAt 0x501020).isSome = true := by decide

end Sys2Proof.Tests
end

section
/-!
Proofs of the host interface's statements (spec 16): virtual functions that end are reset, and a doorbell write through a
function that does not exist is dropped (R54, R342).
-/
namespace Sys2Proof.HostInterface
open Sys2Proof Sys2Proof.Machine

/-! A write to an error ring reaches memory, registers and the ring's counts, never QMG's queues. -/

/-- A fold of an operation that leaves QMG's state alone leaves it alone. -/
theorem foldl_qmg {α : Type} {f : State → α → State} (hf : ∀ t a, (f t a).qmg = t.qmg) (l : List α) (s : State) :
    (l.foldl f s).qmg = s.qmg :=
  List.foldlRecOn (motive := fun t : State => t.qmg = s.qmg) l f rfl (fun t ht a _ => (hf t a).trans ht)

@[simp] theorem setZbit_qmg (s : State) (n : Nat) (b : Bool) : (setZbit s n b).qmg = s.qmg := by
  unfold setZbit
  split <;> rfl

@[simp] theorem zeroBlock_qmg (s : State) (n : Nat) : (zeroBlock s n).qmg = s.qmg := by
  simp only [zeroBlock]
  split
  · exact foldl_qmg (fun t i => putMeta_qmg ..) _ _
  · rfl

@[simp] theorem materialise_qmg (s : State) (n : Nat) : (materialise s n).qmg = s.qmg := by
  unfold materialise
  split <;> simp

@[simp] theorem hwPutByte_qmg (s : State) (k : HwKey) (l : Nat) (b : Byte) : (hwPutByte s k l b).qmg = s.qmg := by
  unfold hwPutByte
  split
  · rfl
  · split <;> simp

@[simp] theorem hwWriteGo_qmg (s : State) (k : HwKey) (l : Nat) (bs : List Byte) : (hwWriteGo s k l bs).qmg = s.qmg := by
  induction bs generalizing s l with
  | nil => rfl
  | cons b bs ih => rw [hwWriteGo, ih, hwPutByte_qmg]

@[simp] theorem unpoisonWhole_qmg (s : State) (l n : Nat) : (unpoisonWhole s l n).qmg = s.qmg := by
  refine foldl_qmg (fun t i => ?_) _ s
  dsimp only
  split
  · split <;> rfl
  · rfl

@[simp] theorem hwWrite_qmg (s : State) (k : HwKey) (ppa : Nat) (bs : List Byte) : (hwWrite s k ppa bs).qmg = s.qmg := by
  simp [hwWrite]

/-- An entry pushed on a ring, or counted as dropped where the ring is full, leaves QMG's state alone (R441). -/
@[simp] theorem ringPush_qmg (s : State) (r : Ring) (entry : Nat → List Byte) : (ringPush s r entry).qmg = s.qmg := by
  unfold ringPush
  split
  · exact setF_qmg ..
  · simp

@[simp] theorem logErr_qmg (s : State) (r : Ring) (cause : Nat) (e : ErrInfo) : (logErr s r cause e).qmg = s.qmg :=
  ringPush_qmg ..

/-- A dropped doorbell write counts and logs, and changes no queue (R54). -/
@[simp] theorem dropDoorbell_qmg (s : State) (q fn : Nat) : (dropDoorbell s q fn).qmg = s.qmg := by
  rw [dropDoorbell, logQmg, logErr_qmg, bumpSat, setF_qmg]

/-! Doorbell writes through functions -/

/-- A function beyond the virtual functions that exist reaches no doorbell page (R342). -/
theorem doorPage_eq_none_of_absent {s : State} {fn : Nat} (page : Nat) (h : 2 + s.hif.vfs ≤ fn) : doorPage s fn page = none := by
  have hpf1 : fn ≠ 1 := by omega
  have hvf : ¬ fn - 2 < s.hif.vfs := by omega
  simp [doorPage, hpf1, hvf]

/-- A write that reaches BAR2 and finds no page is dropped, whichever doorbell register it names (R54). -/
theorem doorWrite_eq_dropDoorbell {s : State} {fn page : Nat} (idx : Nat) (isCq : Bool) (value : Nat) (hopen : bar2Open s fn = true)
    (hpage : doorPage s fn page = none) :
    doorWrite s fn page idx isCq value = dropDoorbell s ((page * 64 + idx % 64) % 65536) fn := by
  simp [doorWrite, hopen, hpage]

/-! VF_DISABLE -/

/-- While configuration requests are answered, VF_DISABLE leaves the first n virtual functions (R342). -/
theorem exec_vfDisable_of_cfgOpen {s : State} (n : Nat) (h : cfgOpen s = true) : exec (.vfDisable n) s = .next (keepVfs s n) :=
  if_pos h

/-- Settles O8: the reset of each ending function is `keepVfs`, and a function that does not exist reaches no page, so that its
write is dropped; the drop touches registers, memory and the ring's counts only. -/
theorem virtualFunctionsThatEndAreReset : Obligations.VirtualFunctionsThatEndAreReset := by
  refine ⟨fun n s hcfg => exec_vfDisable_of_cfgOpen n hcfg, fun fn page idx value s hopen habsent => ?_⟩
  have hdrop (isCq : Bool) :
      doorWrite s fn page idx isCq value = dropDoorbell s ((page * 64 + idx % 64) % 65536) fn :=
    doorWrite_eq_dropDoorbell idx isCq value hopen (doorPage_eq_none_of_absent page habsent)
  exact ⟨congrArg Host.Outcome.next (hdrop false), congrArg Host.Outcome.next (hdrop true), dropDoorbell_qmg ..⟩

end Sys2Proof.HostInterface
end

section
/-!
Proofs of the security statements (spec 17): the svn fuses move only through SVN_ADVANCE (R367).
-/
namespace Sys2Proof.Security
open Sys2Proof Sys2Proof.Machine

/-- Every command but SVN_ADVANCE evolves the machine; SVN_ADVANCE alone burns svn fuses, which `Evolves` holds fixed. -/
theorem exec_evolves_of_ne_svnAdvance {s₀ s : State} (c : Instr) (hc : ∀ source tag, c ≠ .svnAdvance source tag) (h : Evolves s₀ s) :
    OutEvolves s₀ (exec c s) :=
  match c with
  | .deviceReset => execDeviceReset_evolves _ h
  | .deviceStart _ => execDeviceStart_evolves _ _ h
  | .pcieReset => execPcieReset_evolves _ h
  | .pcieLinkDown => execPcieLinkDown_evolves _ h
  | .functionLevelReset _ => execFunctionLevelReset_evolves _ _ h
  | .vfDisable _ => execVfDisable_evolves _ _ h
  | .atsInvalidationRequest _ _ _ _ _ => execAtsInvalidationRequest_evolves _ _ _ _ _ _ h
  | .pageRequestResponse _ _ => execPageRequestResponse_evolves _ _ _ h
  | .priTimeout _ => execPriTimeout_evolves _ _ h
  | .hostCompletion _ _ _ => execHostCompletion_evolves _ _ _ _ h
  | .hostCompletionTimeout _ => execHostCompletionTimeout_evolves _ _ h
  | .registerWrite _ _ _ _ _ => execRegisterWrite_evolves _ _ _ _ _ _ h
  | .blockUnavailableTimeout _ _ _ => execBlockUnavailableTimeout_evolves _ _ _ _ h
  | .sqTail _ _ _ _ => execSqTail_evolves _ _ _ _ _ h
  | .cqHead _ _ _ _ => execCqHead_evolves _ _ _ _ _ h
  | .doorbellWriteDropped _ _ _ => execDoorbellWriteDropped_evolves _ _ _ _ h
  | .readCtx _ => execReadCtx_evolves _ _ h
  | .writeCtx _ => execWriteCtx_evolves _ _ h
  | .enable _ => execEnable_evolves _ _ h
  | .disableDrain _ => execDisableDrain_evolves _ _ h
  | .disableAbort _ => execDisableAbort_evolves _ _ h
  | .clearPred _ => execClearPred_evolves _ _ h
  | .descriptorFetch _ => execDescriptorFetch_evolves _ _ h
  | .predicateRelease _ => execPredicateRelease_evolves _ _ h
  | .waitSlotsCleared _ => execWaitSlotsCleared_evolves _ _ h
  | .moderationTimerExpiry _ => execModerationTimerExpiry_evolves _ _ h
  | .copy2d _ => execCopy2d_evolves _ _ h
  | .fill _ => execFill_evolves _ _ h
  | .gather _ => execGather_evolves _ _ h
  | .scatterAdd _ => execScatterAdd_evolves _ _ h
  | .embedBag _ => execEmbedBag_evolves _ _ h
  | .reduce _ => execReduce_evolves _ _ h
  | .atomic _ => execAtomic_evolves _ _ h
  | .quantize _ => execQuantize_evolves _ _ h
  | .scrubRange _ => execScrubRange_evolves _ _ h
  | .attendDecode _ => execAttendDecode_evolves _ _ h
  | .attendMerge _ => execAttendMerge_evolves _ _ h
  | .topk _ => execTopk_evolves _ _ h
  | .moeDispatch _ => execMoeDispatch_evolves _ _ h
  | .expertFfn _ => execExpertFfn_evolves _ _ h
  | .moeCombine _ => execMoeCombine_evolves _ _ h
  | .publish _ => execPublish_evolves _ _ h
  | .publishComplete _ => execPublishComplete_evolves _ _ h
  | .revoke _ => execRevoke_evolves _ _ h
  | .revokeDrainDone _ _ => execRevokeDrainDone_evolves _ _ _ h
  | .revokeStragglerTimeout _ _ => execRevokeStragglerTimeout_evolves _ _ _ h
  | .waitListService => execWaitListService_evolves _ h
  | .tileDispatch _ _ => execTileDispatch_evolves _ _ _ h
  | .tileStart _ => execTileStart_evolves _ _ h
  | .tileLoadData _ _ _ => execTileLoadData_evolves _ _ _ _ h
  | .tileComputeDone _ _ _ _ => execTileComputeDone_evolves _ _ _ _ _ h
  | .tileRetire _ _ _ => execTileRetire_evolves _ _ _ _ h
  | .partialStateCombine _ _ _ => execPartialStateCombine_evolves _ _ _ _ h
  | .engineFault _ => execEngineFault_evolves _ _ h
  | .tileWatchdogExpiry _ _ => execTileWatchdogExpiry_evolves _ _ _ h
  | .spareActivated _ => execSpareActivated_evolves _ _ h
  | .nmeRetire _ => execNmeRetire_evolves _ _ h
  | .nmeCommit => execNmeCommit_evolves _ h
  | .dmaChannelSelect _ => execDmaChannelSelect_evolves _ _ h
  | .dmaPiece _ _ => execDmaPiece_evolves _ _ _ h
  | .flushReadComplete _ => execFlushReadComplete_evolves _ _ h
  | .dmaSuspendResume _ => execDmaSuspendResume_evolves _ _ h
  | .writeAcknowledge _ _ => execWriteAcknowledge_evolves _ _ _ h
  | .tenantCreate _ _ _ => execTenantCreate_evolves _ _ _ _ h
  | .keySlotLoaded _ => execKeySlotLoaded_evolves _ _ h
  | .tenantRetire _ => execTenantRetire_evolves _ _ h
  | .tenantKeyDestroy _ => execTenantKeyDestroy_evolves _ _ h
  | .invalidateRange _ _ _ _ => execInvalidateRange_evolves _ _ _ _ _ h
  | .invalidateTenant _ _ => execInvalidateTenant_evolves _ _ _ h
  | .leaseNotice _ _ _ => execLeaseNotice_evolves _ _ _ _ h
  | .invalidationComplete _ => execInvalidationComplete_evolves _ _ h
  | .tableSwap _ _ _ _ => execTableSwap_evolves _ _ _ _ _ h
  | .resmapClear _ _ _ => execResmapClear_evolves _ _ _ _ h
  | .translationMiss _ _ => execTranslationMiss_evolves _ _ _ h
  | .migEnClear => execMigEnClear_evolves _ h
  | .dmaMigCmd _ _ _ _ => execDmaMigCmd_evolves _ _ _ _ _ h
  | .migrationDone _ a b => execMigrationDone_evolves _ a b _ h
  | .dmaMigPop => execDmaMigPop_evolves _ h
  | .xtuMigDone _ _ => execXtuMigDone_evolves _ _ _ h
  | .rdReq _ _ => execRdReq_evolves _ _ _ h
  | .wrReq _ _ => execWrReq_evolves _ _ _ h
  | .atomicReq _ _ => execAtomicReq_evolves _ _ _ h
  | .doorbellPacket _ _ => execDoorbellPacket_evolves _ _ _ h
  | .tileBatch _ _ _ => execTileBatch_evolves _ _ _ _ h
  | .cmdFwd _ _ => execCmdFwd_evolves _ _ _ h
  | .setReq _ _ => execSetReq_evolves _ _ _ h
  | .setRsp _ _ => execSetRsp_evolves _ _ _ h
  | .setWithdraw _ _ => execSetWithdraw_evolves _ _ _ h
  | .withdrawAck _ _ => execWithdrawAck_evolves _ _ _ h
  | .rdRsp _ _ => execRdRsp_evolves _ _ _ h
  | .wrRsp _ _ => execWrRsp_evolves _ _ _ h
  | .atomicRsp _ _ => execAtomicRsp_evolves _ _ _ h
  | .batchRsp _ _ => execBatchRsp_evolves _ _ _ h
  | .cmdRsp _ _ => execCmdRsp_evolves _ _ _ h
  | .errRsp _ _ => execErrRsp_evolves _ _ _ h
  | .cacheRelease _ _ => execCacheRelease_evolves _ _ _ h
  | .replayCacheExpiry _ _ => execReplayCacheExpiry_evolves _ _ _ h
  | .flowRelease _ => execFlowRelease_evolves _ _ h
  | .nieFlowOpen _ _ _ => execNieFlowOpen_evolves _ _ _ _ h
  | .nieFlowClose _ _ _ => execNieFlowClose_evolves _ _ _ _ h
  | .jobBind _ _ _ _ => execJobBind_evolves _ _ _ _ _ h
  | .completionTimeout _ _ _ => execCompletionTimeout_evolves _ _ _ _ h
  | .rdShared _ _ _ => execRdShared_evolves _ _ _ _ h
  | .rdOwn _ _ _ => execRdOwn_evolves _ _ _ _ h
  | .upgrade _ _ _ => execUpgrade_evolves _ _ _ _ h
  | .wbData _ _ => execWbData_evolves _ _ _ h
  | .evictClean _ _ => execEvictClean_evolves _ _ _ h
  | .snpRsp _ _ => execSnpRsp_evolves _ _ _ h
  | .compAck _ _ => execCompAck_evolves _ _ _ h
  | .holdExpiry _ => execHoldExpiry_evolves _ _ h
  | .snoopTimeout _ _ => execSnoopTimeout_evolves _ _ _ h
  | .compAckTimeout _ => execCompAckTimeout_evolves _ _ h
  | .binvRange _ _ => execBinvRange_evolves _ _ _ h
  | .agentRelease _ => execAgentRelease_evolves _ _ h
  | .dirCommit => execDirCommit_evolves _ h
  | .packetHeaderArrival _ _ => execPacketHeaderArrival_evolves _ _ _ h
  | .headerHoldTimeout _ => execHeaderHoldTimeout_evolves _ _ h
  | .routeTableWrite _ _ _ => execRouteTableWrite_evolves _ _ _ _ h
  | .epochFlip _ _ => execEpochFlip_evolves _ _ _ h
  | .epochRetire => execEpochRetire_evolves _ h
  | .routerCommit => execRouterCommit_evolves _ h
  | .frameTransmit _ => execFrameTransmit_evolves _ _ h
  | .frameReceive _ _ _ _ => execFrameReceive_evolves _ _ _ _ _ h
  | .replayReq _ _ => execReplayReq_evolves _ _ _ h
  | .replayTimeout _ => execReplayTimeout_evolves _ _ h
  | .retrainReq _ => execRetrainReq_evolves _ _ h
  | .rttProbe _ _ => execRttProbe_evolves _ _ _ h
  | .rttEcho _ _ => execRttEcho_evolves _ _ _ h
  | .rttProbeTimer _ => execRttProbeTimer_evolves _ _ h
  | .lossOfSignal _ _ => execLossOfSignal_evolves _ _ _ h
  | .laneErrorLimit _ _ => execLaneErrorLimit_evolves _ _ _ h
  | .portEnable _ => execPortEnable_evolves _ _ h
  | .portDisable _ => execPortDisable_evolves _ _ h
  | .portRetrain _ => execPortRetrain_evolves _ _ h
  | .detectSignal _ => execDetectSignal_evolves _ _ h
  | .trainDone _ _ => execTrainDone_evolves _ _ _ h
  | .configDone _ _ => execConfigDone_evolves _ _ _ h
  | .retrainDone _ _ => execRetrainDone_evolves _ _ _ h
  | .retrainTimeout _ => execRetrainTimeout_evolves _ _ h
  | .autoUpTimer _ => execAutoUpTimer_evolves _ _ h
  | .rekeyTimer _ => execRekeyTimer_evolves _ _ h
  | .linkRekey _ _ => execLinkRekey_evolves _ _ _ h
  | .keyPhaseSwitch _ => execKeyPhaseSwitch_evolves _ _ h
  | .pairSet _ _ => execPairSet_evolves _ _ _ h
  | .admRelease => execAdmRelease_evolves _ h
  | .admRedecide => execAdmRedecide_evolves _ h
  | .admBktRead _ => execAdmBktRead_evolves _ _ h
  | .admBktWrite _ _ _ _ _ _ _ => execAdmBktWrite_evolves _ _ _ _ _ _ _ _ h
  | .fathomUpdate _ => execFathomUpdate_evolves _ _ h
  | .channelGrant _ _ _ _ => execChannelGrant_evolves _ _ _ _ _ h
  | .parityDelta _ => execParityDelta_evolves _ _ h
  | .refresh _ _ _ _ _ => execRefresh_evolves _ _ _ _ _ _ h
  | .channelRetrain _ _ _ _ => execChannelRetrain_evolves _ _ _ _ _ h
  | .smcRetrainNow _ _ => execSmcRetrainNow_evolves _ _ _ h
  | .stackNoResponse _ => execStackNoResponse_evolves _ _ h
  | .rebuildUnit _ => execRebuildUnit_evolves _ _ h
  | .ueLimitExceeded _ => execUeLimitExceeded_evolves _ _ h
  | .parRetire _ => execParRetire_evolves _ _ h
  | .mistralRead _ _ _ => execMistralRead_evolves _ _ _ _ h
  | .rowRepair _ _ _ _ _ _ => execRowRepair_evolves _ _ _ _ _ _ _ h
  | .smcLock => execSmcLock_evolves _ h
  | .smcCommit => execSmcCommit_evolves _ h
  | .xbarCommit => execXbarCommit_evolves _ h
  | .eraseRange _ _ _ _ _ => execEraseRange_evolves _ _ _ _ _ _ h
  | .eraseComplete _ => execEraseComplete_evolves _ _ h
  | .trngHealthFail => execTrngHealthFail_evolves _ h
  | .identityReady => execIdentityReady_evolves _ h
  | .debugGrant _ => execDebugGrant_evolves _ _ h
  | .spdmGetVersion => execSpdmGetVersion_evolves _ h
  | .spdmGetCapabilities => execSpdmGetCapabilities_evolves _ h
  | .spdmNegotiateAlgorithms => execSpdmNegotiateAlgorithms_evolves _ h
  | .spdmGetMeasurements _ _ _ => execSpdmGetMeasurements_evolves _ _ _ _ h
  | .mctpMessage _ _ _ => execMctpMessage_evolves _ _ _ _ h
  | .hifMbxSubmit _ => execHifMbxSubmit_evolves _ _ h
  | .hifMbxPop => execHifMbxPop_evolves _ h
  | .mailboxTake => execMailboxTake_evolves _ h
  | .pwrStatus _ _ => execPwrStatus_evolves _ _ _ h
  | .powerCap _ _ => execPowerCap_evolves _ _ _ h
  | .domainPower _ _ => execDomainPower_evolves _ _ _ h
  | .pointCeiling _ _ => execPointCeiling_evolves _ _ _ h
  | .thermalLimit _ _ => execThermalLimit_evolves _ _ _ h
  | .fwStage _ _ _ _ _ => execFwStage_evolves _ _ _ _ _ _ h
  | .fwActivate _ _ _ => execFwActivate_evolves _ _ _ _ h
  | .handover _ _ => execHandover_evolves _ _ _ h
  | .mgtStatus _ _ => execMgtStatus_evolves _ _ _ h
  | .cfgReport _ _ => execCfgReport_evolves _ _ _ h
  | .fieldGet _ _ => execFieldGet_evolves _ _ _ h
  | .fieldSet _ _ => execFieldSet_evolves _ _ _ h
  | .imageWrite _ _ _ _ => execImageWrite_evolves _ _ _ _ _ h
  | .recoveryWrite _ _ => execRecoveryWrite_evolves _ _ _ h
  | .attest _ _ _ => execAttest_evolves _ _ _ _ h
  | .svnAdvance source tag => absurd rfl (hc source tag)
  | .pldm _ _ => execPldm_evolves _ _ _ h
  | .cfgFeatCommit _ => execCfgFeatCommit_evolves _ _ h
  | .cfgRptRead => execCfgRptRead_evolves _ h
  | .claimRaise _ _ => execClaimRaise_evolves _ _ _ h
  | .claimDrop _ _ => execClaimDrop_evolves _ _ _ h
  | .heartbeat _ => execHeartbeat_evolves _ _ h
  | .watchdogExpiry _ => execWatchdogExpiry_evolves _ _ h
  | .selfDiagPeriodic _ => execSelfDiagPeriodic_evolves _ _ h
  | .standbyTakeover _ _ => execStandbyTakeover_evolves _ _ _ h
  | .pairBootDone _ _ => execPairBootDone_evolves _ _ _ h
  | .mgtPairReset _ _ => execMgtPairReset_evolves _ _ _ h
  | .doldrumsAlert => execDoldrumsAlert_evolves _ h
  | .dvfsTarget _ _ => execDvfsTarget_evolves _ _ _ h
  | .dvfsStepDone => execDvfsStepDone_evolves _ h
  | .avsTimeout _ => execAvsTimeout_evolves _ _ h
  | .powerLoop _ _ => execPowerLoop_evolves _ _ _ h
  | .thermalLoop _ _ => execThermalLoop_evolves _ _ _ h
  | .fastCurrentLimit => execFastCurrentLimit_evolves _ h
  | .hwThermalThrottle => execHwThermalThrottle_evolves _ h
  | .thermtrip => execThermtrip_evolves _ h
  | .pdSwitch _ _ _ => execPdSwitch_evolves _ _ _ _ h
  | .telCommit => execTelCommit_evolves _ h
  | .telCntClear _ => execTelCntClear_evolves _ _ h
  | .telDumpEnable => execTelDumpEnable_evolves _ h
  | .telDumpPeriod _ a => execTelDumpPeriod_evolves _ a _ h
  | .telSampCtlWrite _ _ _ _ => execTelSampCtlWrite_evolves _ _ _ _ _ h
  | .pcieLinkUp _ _ _ => execPcieLinkUp_evolves _ _ _ _ h
  | .hwThermalThrottleRelease => execHwThermalThrottleRelease_evolves _ h
  | .trngHealthPass => execTrngHealthPass_evolves _ h
  | .atsTranslationCompletion _ _ _ _ _ _ => execAtsTranslationCompletion_evolves _ _ _ _ _ _ _ h
  | .vfEnable _ => execVfEnable_evolves _ _ h
  | .d3hotTransition _ _ => execD3hotTransition_evolves _ _ _ h
  | .replayReqResendTimeout _ => execReplayReqResendTimeout_evolves _ _ h
  | .openMaxExpiry _ _ _ _ => execOpenMaxExpiry_evolves _ _ _ _ _ h
  | .zmapReady => execZmapReady_evolves _ h
  | .pdSwitchDone => execPdSwitchDone_evolves _ h

/-- What `OutEvolves` says of a next state that a command answers. -/
theorem evolves_of_exec_eq_next {s₀ s t : State} {c : Instr} (ho : OutEvolves s₀ (exec c s)) (ht : exec c s = .next t) : Evolves s₀ t := by
  rwa [ht] at ho

/-- A command other than SVN_ADVANCE leaves the svn fuses as they are (R367). -/
theorem exec_svn_of_ne_svnAdvance {c : Instr} {s t : State} (hc : ∀ source tag, c ≠ .svnAdvance source tag) (ht : exec c s = .next t) :
    t.fuse.svn = s.fuse.svn :=
  (evolves_of_exec_eq_next (exec_evolves_of_ne_svnAdvance c hc (evolves_refl s)) ht).svn

/-- SVN_ADVANCE raises the svn fuses to a value that they already reach or that the running images reach (R367). -/
theorem exec_svnAdvance_svn {source tag : Nat} {s t : State} (ht : exec (.svnAdvance source tag) s = .next t) :
    ∃ v, (v ≤ s.fuse.svn ∨ v ≤ runningSvn s) ∧ t.fuse.svn = max s.fuse.svn v := by
  obtain ⟨v, hv, ho⟩ := execSvnAdvance_evolves source tag s
  exact ⟨v, hv, (evolves_of_exec_eq_next ho ht).svn⟩

/-- Settles O6: any other command leaves the fuses alone, and SVN_ADVANCE takes the maximum with a value that the fuses or the running
images already reach. -/
theorem svnFusesAdvanceOnlyByTheirCommand : Obligations.SvnFusesAdvanceOnlyByTheirCommand := by
  intro c s t ht
  by_cases hc : ∃ source tag, c = .svnAdvance source tag
  · obtain ⟨source, tag, rfl⟩ := hc
    obtain ⟨v, hv, hsvn⟩ := exec_svnAdvance_svn ht
    exact ⟨by omega, fun hne => ⟨⟨source, tag, rfl⟩, by omega⟩⟩
  · have hsvn : t.fuse.svn = s.fuse.svn := exec_svn_of_ne_svnAdvance (fun source tag e => hc ⟨source, tag, e⟩) ht
    exact ⟨Nat.le_of_eq hsvn.symm, fun hne => absurd hsvn hne⟩

end Sys2Proof.Security
end

section
/-!
Proofs of the statements about one step (spec 95): which command it takes, and what it never undoes.
-/
namespace Sys2Proof.Steps
open Sys2Proof Sys2Proof.Machine Sys2Proof.Security

/-- The state that TEL_COMMIT answers. As a definition it is elaborated before the text below is read, and with it the equations of
`exec`: the proofs that follow are checked side by side, and each would hold a thread of its own until those equations are there. -/
def telCommitted (s : State) : { t : State // exec .telCommit s = .next t } :=
  ⟨telCommit s, by simp only [exec, execTelCommit]⟩

/-- Settles O1. -/
theorem stepRunsTheFrontCommand : Obligations.StepRunsTheFrontCommand := by
  refine ⟨fun s c rest h => ?_, fun s h => ?_⟩ <;> simp [step, h]

/-- What a command answers evolves the machine, but for the svn fuses, which SVN_ADVANCE alone may have raised first (R367). -/
theorem exec_evolves_upto_svn {c : Instr} {s t : State} (ht : exec c s = .next t) :
    ∃ v, Evolves { s with fuse := { s.fuse with svn := v } } t := by
  by_cases hc : ∃ source tag, c = .svnAdvance source tag
  · obtain ⟨source, tag, rfl⟩ := hc
    obtain ⟨v, -, ho⟩ := execSvnAdvance_evolves source tag s
    exact ⟨_, evolves_of_exec_eq_next ho ht⟩
  · have ho := exec_evolves_of_ne_svnAdvance c (fun source tag e => hc ⟨source, tag, e⟩) (evolves_refl s)
    exact ⟨s.fuse.svn, evolves_of_exec_eq_next ho ht⟩

/-- A step evolves the machine whose queue has given up its front command, but for the svn fuses. -/
theorem step_evolves_upto_svn {s t : State} (ht : step s = .next t) :
    ∃ v, Evolves { s with pending := s.pending.tail, fuse := { s.fuse with svn := v } } t := by
  obtain ⟨hrun, hidle⟩ := stepRunsTheFrontCommand
  cases hp : s.pending with
  | nil =>
    rw [hidle s hp] at ht
    cases ht
    have hev := advance_evolves s (s.nowNs + 1) (evolves_refl s)
    exact ⟨s.fuse.svn, { hev with pending := hev.pending.trans hp }⟩
  | cons c rest => exact exec_evolves_upto_svn (s := { s with pending := rest }) (hrun s c rest hp ▸ ht)

/-- Settles O2: nothing that evolves the machine touches the queue. -/
theorem stepsTakeCommandsFirstInFirstOut : Obligations.StepsTakeCommandsFirstInFirstOut := by
  intro s t ht
  obtain ⟨v, hev⟩ := step_evolves_upto_svn ht
  exact hev.pending

/-- The three parts of a well-formed machine. -/
theorem wf_iff {s : State} : State.wf s = true ↔ NMap.sorted s.regs ∧ NMap.sorted s.shadow ∧ Memory.wf s.mem = true := by
  simp [State.wf, and_assoc]

/-- Settles O4: whatever evolves the machine keeps each of its maps canonical. -/
theorem stepsKeepTheMapsCanonical : Obligations.StepsKeepTheMapsCanonical := by
  intro s t hs ht
  obtain ⟨v, hev⟩ := step_evolves_upto_svn ht
  obtain ⟨hregs, hshadow, hmem⟩ := wf_iff.mp hs
  exact wf_iff.mpr ⟨hev.regs hregs, hev.shadow hshadow, hev.mem hmem⟩

/-- Settles O5: the clock, the count of free values, the fuses apart from svn and the host's messages only move forward. -/
theorem nothingIsUndone : Obligations.NothingIsUndone := by
  intro s t ht
  obtain ⟨v, hev⟩ := step_evolves_upto_svn ht
  exact ⟨hev.time, hev.free, hev.slots, hev.lock, hev.fleet, hev.floor, hev.host⟩

/-- Settles O3: no register of the state after reset is listed, so that each reads as its reset value. -/
theorem resetIsCanonical : Obligations.ResetIsCanonical :=
  ⟨wf_iff.mpr ⟨List.Pairwise.nil, List.Pairwise.nil, memwf_reset⟩, rfl, getF_reset⟩

end Sys2Proof.Steps
end

section
/-!
Proofs of the layout statements (spec 10, R210 to R217): the interleaving of an extent over stacks, frames and channels can be undone,
and the frames it reaches lie below those of reserved memory.
-/
namespace Sys2Proof.Layouts
open Sys2Proof Sys2Proof.Machine

/-! Grains and places in a frame -/

/-- The power of two that a profile's grain is, at most a frame. -/
theorem profGrain_eq_two_pow (s : State) (n : Nat) : ∃ e, e ≤ 16 ∧ profGrain s n = 2 ^ e := by
  refine ⟨_, ?_, rfl⟩
  unfold clamp
  split
  · omega
  · split <;> omega

/-- A grain fits a frame a whole number of times. -/
theorem profGrain_mul (s : State) (n : Nat) : ∃ k, 0 < profGrain s n ∧ k * profGrain s n = ellBytes := by
  obtain ⟨e, he, hg⟩ := profGrain_eq_two_pow s n
  refine ⟨2 ^ (16 - e), hg ▸ Nat.two_pow_pos e, ?_⟩
  rw [hg, ← Nat.pow_add, Nat.sub_add_cancel he]
  rfl

/-- A byte's place in a frame is found again from its channel and its place in the channel's unit row. -/
theorem place_inj {u y z : Nat} (hu : 0 < u) (hchan : y / u % 4 = z / u % 4) (hrow : y / u / 4 * u + y % u = z / u / 4 * u + z % u) :
    y = z := by
  have hdiv (w : Nat) : (w / u / 4 * u + w % u) / u = w / u / 4 := by
    rw [Nat.add_comm, Nat.add_mul_div_right _ _ hu, Nat.div_eq_of_lt (Nat.mod_lt _ hu), Nat.zero_add]
  have hunit : y / u / 4 = z / u / 4 := by rw [← hdiv y, ← hdiv z, hrow]
  have hmod : y % u = z % u := by rw [hunit] at hrow; exact Nat.add_left_cancel hrow
  have hquot : y / u = z / u := by omega
  rw [← Nat.div_add_mod y u, ← Nat.div_add_mod z u, hquot, hmod]

/-! Frames of stacks -/

/-- A layout grain: its channel unit is a power of two that divides the 16,384 bytes of a channel's share of a frame (R215). -/
def ChanGrain (g : Nat) : Prop := ∃ k n, min g 16384 = 2 ^ k ∧ 2 ^ k * n = 16384

theorem chanGrain_profGrain (s : State) (n : Nat) : ChanGrain (profGrain s n) := by
  obtain ⟨k, hk, -, hk14⟩ := chanUnit_dvd s n
  exact ⟨k, 2 ^ (14 - k), hk, by rw [← Nat.pow_add, Nat.add_sub_cancel' hk14]⟩

/-- The grain of reserved memory (R211). -/
theorem chanGrain_4096 : ChanGrain 4096 := ⟨12, 4, rfl, rfl⟩

/-- A place names its stack and the data frame on it, whatever the grain (R215). -/
theorem frameByte_frame {s : State} {st st' d d' y y' g g' : Nat} (hg : ChanGrain g) (hg' : ChanGrain g') (hy : y < ellBytes)
    (hy' : y' < ellBytes) (hd : d < framesOf s st) (hd' : d' < framesOf s st') (h : frameByte s st d y g = frameByte s st' d' y' g') :
    st = st' ∧ d = d' := by
  obtain ⟨k, n, hk, hn⟩ := hg
  obtain ⟨k', n', hk', hn'⟩ := hg'
  obtain ⟨hst, hch, hrow, -⟩ := frameByte_split s st d y k n g hk hn hy (physFrame_lt s st d hd)
  obtain ⟨hst', hch', hrow', -⟩ := frameByte_split s st' d' y' k' n' g' hk' hn' hy' (physFrame_lt s st' d' hd')
  rw [← h] at hst' hch' hrow'
  have hstack : st = st' := hst.symm.trans hst'
  subst hstack
  have hphys : physFrame s st d = physFrame s st d' := by omega
  exact ⟨rfl, physFrame_inj s st d d' hphys⟩

/-- A place names its byte of the frame too, under the grain that it was laid out with. -/
theorem frameByte_inj {s : State} {st st' d d' y y' g : Nat} (hg : ChanGrain g) (hy : y < ellBytes)
    (hy' : y' < ellBytes) (hd : d < framesOf s st) (hd' : d' < framesOf s st') (h : frameByte s st d y g = frameByte s st' d' y' g) :
    st = st' ∧ d = d' ∧ y = y' := by
  obtain ⟨hst, hframe⟩ := frameByte_frame hg hg hy hy' hd hd' h
  subst hst hframe
  obtain ⟨k, n, hk, hn⟩ := hg
  obtain ⟨-, hch, -, hrow⟩ := frameByte_split s st d y k n g hk hn hy (physFrame_lt s st d hd)
  obtain ⟨-, hch', -, hrow'⟩ := frameByte_split s st d y' k n g hk hn hy' (physFrame_lt s st d hd)
  rw [← h] at hch' hrow'
  exact ⟨rfl, rfl, place_inj (Nat.two_pow_pos k) (by omega) (hrow.symm.trans hrow')⟩

/-! Interleaving over a list of stacks -/

/-- An offset within a row of frames, one of each stack of the list: the unit's place in its stack's frame (R213). -/
theorem place_lt_ellBytes {m g k x : Nat} (hg : 0 < g) (hk : k * g = ellBytes) (hx : x < m * ellBytes) :
    x / g / m * g + x % g < ellBytes := by
  have hdiv : x / g / m < k := by
    rw [Nat.div_div_eq_div_mul]
    apply Nat.div_lt_of_lt_mul
    calc x < m * ellBytes := hx
      _ = g * m * k := by rw [← hk]; ac_rfl
  have hmod : x % g < g := Nat.mod_lt _ hg
  calc x / g / m * g + x % g < x / g / m * g + g := Nat.add_lt_add_left hmod _
    _ = (x / g / m + 1) * g := (Nat.succ_mul ..).symm
    _ ≤ k * g := Nat.mul_le_mul_right g hdiv
    _ = ellBytes := hk

/-- An offset within a row of frames is found again from its stack's index and its place in that stack's frame. -/
theorem rowOffset_inj {m g x x' : Nat} (hg : 0 < g) (hidx : x / g % m = x' / g % m)
    (hplace : x / g / m * g + x % g = x' / g / m * g + x' % g) : x = x' := by
  have hdiv (w : Nat) : (w / g / m * g + w % g) / g = w / g / m := by
    rw [Nat.add_comm, Nat.add_mul_div_right _ _ hg, Nat.div_eq_of_lt (Nat.mod_lt _ hg), Nat.zero_add]
  have hrow : x / g / m = x' / g / m := by rw [← hdiv x, ← hdiv x', hplace]
  have hmod : x % g = x' % g := by rw [hrow] at hplace; exact Nat.add_left_cancel hplace
  have hunit : x / g = x' / g := by rw [← Nat.div_add_mod (x / g) m, ← Nat.div_add_mod (x' / g) m, hrow, hidx]
  rw [← Nat.div_add_mod x g, ← Nat.div_add_mod x' g, hunit, hmod]

theorem members_nodup (s : State) : (members s).Nodup := by
  unfold members
  split
  · exact List.nodup_range.filter _
  · exact List.nodup_range

/-- Of twelve stacks at most one is the spare, so that a member is always left. -/
theorem members_ne_nil (s : State) : members s ≠ [] := by
  unfold members
  split
  · by_cases h0 : s.mem.spare = 0
    · exact List.ne_nil_of_mem (a := 1) (by simp [h0])
    · exact List.ne_nil_of_mem (a := 0) (by simp [Ne.symm h0])
  · simp

theorem profList_nodup (s : State) (n : Nat) : (profList s n).Nodup := by
  simp only [profList]
  split
  · exact members_nodup s
  · exact (members_nodup s).filter _

theorem profList_length_pos (s : State) (n : Nat) : 0 < (profList s n).length := by
  simp only [profList]
  split
  · exact List.length_pos_iff.mpr (members_ne_nil s)
  · exact List.length_pos_iff.mpr ‹_›

/-- Inside a list the default of a lookup plays no part. -/
theorem getD_of_lt {l : List Nat} {i : Nat} (d : Nat) (h : i < l.length) : l.getD i d = l[i] := by
  rw [List.getD_eq_getElem?_getD, List.getElem?_eq_getElem h, Option.getD_some]

/-- Equal stacks of a list without repetition stand at equal places. -/
theorem getD_inj_of_nodup {l : List Nat} (hl : l.Nodup) {i j : Nat} (hi : i < l.length) (hj : j < l.length) (h : l.getD i 0 = l.getD j 0) :
    i = j := by
  rw [getD_of_lt 0 hi, getD_of_lt 0 hj] at h
  exact (List.getElem_inj hl).mp h

/-! Where an extent's byte lies -/

/-- Under affinity a byte lies on its stack, in a frame below the reserved ones (R214). -/
theorem locate_affinity {s : State} {pl : Place} {l p : Nat} (haff : pl.affEn = true) (h : locate s pl l = some p) :
    l / ellBytes % framesOf s pl.affStack < framesOf s pl.affStack - rsvFrames s ∧
    p = frameByte s pl.affStack (l / ellBytes % framesOf s pl.affStack) (l % ellBytes) (profGrain s pl.icls) := by
  simp only [locate, haff, if_true] at h
  split at h
  · cases h
  · split at h
    · rename_i hin
      exact ⟨hin.2, (Option.some.inj h).symm⟩
    · cases h

/-- Without affinity a byte lies on a stack of its profile's list, in a frame below the reserved ones (R213). -/
theorem locate_interleaved {s : State} {pl : Place} {l p : Nat} (haff : pl.affEn = false) (h : locate s pl l = some p) :
    let list := profList s pl.icls
    let g := profGrain s pl.icls
    let x := l % (list.length * ellBytes)
    let st := list.getD (x / g % list.length) 0
    l / (list.length * ellBytes) < framesOf s st - rsvFrames s ∧
    p = frameByte s st (l / (list.length * ellBytes)) (x / g / list.length * g + x % g) g := by
  simp only [locate, haff, Bool.false_eq_true, if_false] at h
  split at h
  · cases h
  · split at h
    · rename_i hall
      have hidx := Nat.mod_lt (l % ((profList s pl.icls).length * ellBytes) / profGrain s pl.icls) (profList_length_pos s pl.icls)
      have hst := List.all_eq_true.mp hall _ (List.getElem_mem hidx)
      rw [← getD_of_lt 0 hidx] at hst
      exact ⟨of_decide_eq_true hst, (Option.some.inj h).symm⟩
    · cases h

/-- Settles O55: stack, frame and byte of a place give back the offset within its row of frames and the row. -/
theorem layoutsKeepBytesApart : Obligations.LayoutsKeepBytesApart := by
  intro s pl a b p ha hb hpass
  have hg := chanGrain_profGrain s pl.icls
  cases haff : pl.affEn with
  | true =>
    obtain ⟨hfa, hpa⟩ := locate_affinity haff ha
    obtain ⟨hfb, hpb⟩ := locate_affinity haff hb
    obtain ⟨-, hframe, hbyte⟩ := frameByte_inj hg (Nat.mod_lt _ (by decide)) (Nat.mod_lt _ (by decide))
      (by omega) (by omega) (hpa.symm.trans hpb)
    have hell : a / ellBytes = b / ellBytes := by
      rw [← Nat.div_add_mod (a / ellBytes) (framesOf s pl.affStack), hpass haff, hframe, Nat.div_add_mod]
    rw [← Nat.div_add_mod a ellBytes, hell, hbyte, Nat.div_add_mod]
  | false =>
    obtain ⟨hfa, hpa⟩ := locate_interleaved haff ha
    obtain ⟨hfb, hpb⟩ := locate_interleaved haff hb
    have hm := profList_length_pos s pl.icls
    obtain ⟨k, hgpos, hk⟩ := profGrain_mul s pl.icls
    have hx (l : Nat) : l % ((profList s pl.icls).length * ellBytes) < (profList s pl.icls).length * ellBytes :=
      Nat.mod_lt _ (Nat.mul_pos hm (by decide))
    obtain ⟨hst, hrow, hplace⟩ := frameByte_inj hg (place_lt_ellBytes hgpos hk (hx a)) (place_lt_ellBytes hgpos hk (hx b))
      (by omega) (by omega) (hpa.symm.trans hpb)
    have hidx := getD_inj_of_nodup (profList_nodup s pl.icls) (Nat.mod_lt _ hm) (Nat.mod_lt _ hm) hst
    have hoff := rowOffset_inj hgpos hidx hplace
    rw [← Nat.div_add_mod a ((profList s pl.icls).length * ellBytes), hrow, hoff, Nat.div_add_mod]

/-! Reserved memory -/

/-- At most 4,096 of a stack's frames are reserved (R211). -/
theorem rsvFrames_le_framesOf (s : State) (st : Nat) : rsvFrames s ≤ framesOf s st := by
  have hle : rsvFrames s ≤ 4096 := by
    unfold rsvFrames clamp
    split
    · omega
    · split <;> omega
  have hframes : 4096 ≤ framesOf s st := by
    unfold framesOf
    split
    · split <;> omega
    · omega
  omega

/-- A byte of reserved memory lies in one of the frames at the end of its stack (R211). -/
theorem locateRsv_frame {s : State} {l p : Nat} (h : locateRsv s l = some p) :
    ∃ st r y, r < rsvFrames s ∧ y < ellBytes ∧ p = frameByte s st (framesOf s st - rsvFrames s + r) y 4096 := by
  unfold locateRsv at h
  split at h
  · rename_i hin
    obtain ⟨hlo, hhi⟩ := hin
    have hm : 0 < (members s).length := List.length_pos_iff.mpr (members_ne_nil s)
    have ho : l - rsvBase s < (members s).length * ellBytes * rsvFrames s := by
      have hcomm : (members s).length * rsvFrames s * ellBytes = (members s).length * ellBytes * rsvFrames s :=
        Nat.mul_right_comm ..
      have hbase : rsvBase s = capacity s - (members s).length * ellBytes * rsvFrames s := by rw [rsvBase, hcomm]
      omega
    exact ⟨_, _, _, Nat.div_lt_of_lt_mul ho, place_lt_ellBytes (by decide) (k := 16) rfl (Nat.mod_lt _ (Nat.mul_pos hm (by decide))),
      (Option.some.inj h).symm⟩
  · cases h

/-- An extent's byte lies in a frame below the reserved ones of its stack, whatever its layout. -/
theorem locate_frame {s : State} {pl : Place} {l p : Nat} (h : locate s pl l = some p) :
    ∃ st d y, d < framesOf s st - rsvFrames s ∧ y < ellBytes ∧ p = frameByte s st d y (profGrain s pl.icls) := by
  cases haff : pl.affEn with
  | true =>
    obtain ⟨hd, hp⟩ := locate_affinity haff h
    exact ⟨_, _, _, hd, Nat.mod_lt _ (by decide), hp⟩
  | false =>
    obtain ⟨hd, hp⟩ := locate_interleaved haff h
    obtain ⟨k, hgpos, hk⟩ := profGrain_mul s pl.icls
    exact ⟨_, _, _, hd, place_lt_ellBytes hgpos hk (Nat.mod_lt _ (Nat.mul_pos (profList_length_pos s pl.icls) (by decide))), hp⟩

/-- Settles O56: one place would name one frame on both sides of the boundary. -/
theorem reservedMemoryIsApart : Obligations.ReservedMemoryIsApart := by
  intro s pl a b p ha hb
  obtain ⟨st, d, y, hd, hy, hp⟩ := locate_frame ha
  obtain ⟨st', r, y', hr, hy', hp'⟩ := locateRsv_frame hb
  have hle := rsvFrames_le_framesOf s st'
  obtain ⟨hst, hframe⟩ := frameByte_frame (chanGrain_profGrain s pl.icls) chanGrain_4096 hy hy' (by omega) (by omega) (hp.symm.trans hp')
  subst hst
  omega

end Sys2Proof.Layouts
end

section
/-!
Proofs of the encoding statements: bytes and guards (spec 00, 01), queue contexts (spec 03), number formats (spec 07) and pool bytes
(spec 10).
-/
namespace Sys2Proof.Encodings
open Sys2Proof Sys2Proof.Machine

/-! Little-endian bytes (R1) -/

@[simp] theorem length_natToLe (n v : Nat) : (natToLe n v).length = n := by
  induction n generalizing v with
  | zero => rfl
  | succ n ih => simp [natToLe, ih]

/-- One more byte of a number. -/
theorem two_pow_byte_succ (n : Nat) : 2 ^ (8 * (n + 1)) = 256 * 2 ^ (8 * n) := by
  rw [Nat.mul_succ, Nat.pow_add, Nat.mul_comm]

theorem leToNat_natToLe (n v : Nat) : leToNat (natToLe n v) = v % 2 ^ (8 * n) := by
  induction n generalizing v with
  | zero => simp [natToLe, leToNat, Nat.mod_one]
  | succ n ih =>
    rw [natToLe, leToNat, ih, two_pow_byte_succ, Nat.mod_mul]
    simp

theorem natToLe_getElem? (n v : Nat) {i : Nat} (h : i < n) : (natToLe n v)[i]? = some (BitVec.ofNat 8 (v / 2 ^ (8 * i))) := by
  induction n generalizing v i with
  | zero => omega
  | succ n ih =>
    cases i with
    | zero => simp [natToLe]
    | succ i => rw [natToLe, List.getElem?_cons_succ, ih _ (by omega), two_pow_byte_succ, Nat.div_div_eq_div_mul]

theorem leToNat_lt (bs : List Byte) : leToNat bs < 2 ^ (8 * bs.length) := by
  induction bs with
  | nil => simp [leToNat]
  | cons b bs ih =>
    rw [leToNat, List.length_cons, two_pow_byte_succ]
    omega

theorem natToLe_leToNat (bs : List Byte) : natToLe bs.length (leToNat bs) = bs := by
  induction bs with
  | nil => rfl
  | cons b bs ih =>
    have hhigh : (b.toNat + 256 * leToNat bs) / 256 = leToNat bs := by omega
    have hlow : BitVec.ofNat 8 (b.toNat + 256 * leToNat bs) = b := by
      apply BitVec.eq_of_toNat_eq
      rw [BitVec.toNat_ofNat]
      omega
    rw [List.length_cons, leToNat, natToLe, hhigh, hlow, ih]

/-- Settles O49. -/
theorem bytesAreLittleEndian : Obligations.BytesAreLittleEndian :=
  ⟨fun n v => ⟨length_natToLe n v, leToNat_natToLe n v, fun _ hi => natToLe_getElem? n v hi⟩,
   fun bs => ⟨leToNat_lt bs, natToLe_leToNat bs⟩⟩

/-- Zero bytes leave the guard at zero. -/
theorem crc16_zeros (n : Nat) : crc16 (List.replicate n 0) = 0 := by
  induction n with
  | zero => rfl
  | succ n ih =>
    have hbyte : crc16Byte 0 0 = 0 := rfl
    rwa [List.replicate_succ, crc16, List.foldl_cons, hbyte]

/-- Settles O50: the guard is a fold over the bytes, so that the last byte is folded last. -/
theorem guardsHaveTheCheckValues : Obligations.GuardsHaveTheCheckValues := by
  refine ⟨by decide +kernel, crc16_zeros 64, by decide +kernel, fun bs b => ?_⟩
  rw [crc16, crc16, List.foldl_append]
  rfl

/-! Pool bytes -/

theorem putBytes_eq_mem (bs : List Byte) : ∀ (s : State) (p : Nat), putBytes s p bs = { s with mem := (putBytes s p bs).mem } := by
  induction bs with
  | nil => intro s p; rfl
  | cons b bs ih => intro s p; exact ih (putByte s p b) (p + 1)

/-- Settles O51. -/
theorem poolBytesReadBack : Obligations.PoolBytesReadBack := by
  refine fun s p bs => ⟨fun i b hb => ?_, fun q hq => ?_, fun hwf => memwf_putBytes bs hwf p, putBytes_eq_mem bs s p⟩
  · obtain ⟨hi, hget⟩ := List.getElem?_eq_some_iff.mp hb
    rw [byteAt_putBytes bs s p i hi, hget]
  · rcases hq with hbelow | habove
    · exact byteAt_putBytes_below bs s hbelow
    · exact byteAt_putBytes_above bs s habove

/-! Fields packed into one number -/

/-- The number in which each (value, low bit, width) of a list stands at its bits. -/
def pack (a : Nat) (l : List (Nat × Nat × Nat)) : Nat := l.foldl (fun a x => a + x.1 % 2 ^ x.2.2 * 2 ^ x.2.1) a

/-- The fields of a list follow one another from bit b on. -/
def Packed : Nat → List (Nat × Nat × Nat) → Prop
  | _, [] => True
  | b, x :: l => b ≤ x.2.1 ∧ Packed (x.2.1 + x.2.2) l

/-- A field at or above bit lo + w does not reach the bits from lo on, w of them. -/
theorem bitsOf_add_above {lo w k : Nat} (a x : Nat) (h : lo + w ≤ k) : bitsOf (a + x * 2 ^ k) lo w = bitsOf a lo w := by
  obtain ⟨d, rfl⟩ := Nat.exists_eq_add_of_le h
  have hsplit : x * 2 ^ (lo + w + d) = x * 2 ^ d * 2 ^ w * 2 ^ lo := by rw [Nat.pow_add, Nat.pow_add]; ac_rfl
  rw [bitsOf, bitsOf, hsplit, Nat.add_mul_div_right _ _ (Nat.two_pow_pos lo), Nat.add_mul_mod_self_right]

theorem bitsOf_pack_below {lo w b : Nat} (l : List (Nat × Nat × Nat)) (a : Nat) (hl : Packed b l) (h : lo + w ≤ b) :
    bitsOf (pack a l) lo w = bitsOf a lo w := by
  induction l generalizing a b with
  | nil => rfl
  | cons x l ih =>
    obtain ⟨hx, hl⟩ := hl
    exact (ih _ hl (by omega)).trans (bitsOf_add_above a _ (by omega))

/-- What stands below a field leaves the number below the field's end. -/
theorem add_field_lt {a lo w : Nat} (v : Nat) (ha : a < 2 ^ lo) : a + v % 2 ^ w * 2 ^ lo < 2 ^ (lo + w) := by
  have hv : v % 2 ^ w + 1 ≤ 2 ^ w := Nat.mod_lt _ (Nat.two_pow_pos w)
  calc a + v % 2 ^ w * 2 ^ lo < (v % 2 ^ w + 1) * 2 ^ lo := by rw [Nat.succ_mul]; omega
    _ ≤ 2 ^ w * 2 ^ lo := Nat.mul_le_mul_right _ hv
    _ = 2 ^ (lo + w) := by rw [Nat.pow_add, Nat.mul_comm]

/-- A packed field reads as its value, cut to its width. -/
theorem bitsOf_pack {b : Nat} (l : List (Nat × Nat × Nat)) (a : Nat) (hl : Packed b l) (ha : a < 2 ^ b) {v lo w : Nat}
    (hmem : (v, lo, w) ∈ l) : bitsOf (pack a l) lo w = v % 2 ^ w := by
  induction l generalizing a b with
  | nil => cases hmem
  | cons x l ih =>
    obtain ⟨hx, hl⟩ := hl
    have hax : a < 2 ^ x.2.1 := Nat.lt_of_lt_of_le ha (Nat.pow_le_pow_right (by decide) hx)
    rcases List.mem_cons.mp hmem with rfl | hmem
    · have hrest := bitsOf_pack_below l (a + v % 2 ^ w * 2 ^ lo) hl (Nat.le_refl _)
      refine hrest.trans ?_
      rw [bitsOf, Nat.add_mul_div_right _ _ (Nat.two_pow_pos lo), Nat.div_eq_of_lt hax, Nat.zero_add, Nat.mod_mod]
    · exact ih _ hl (add_field_lt _ hax) hmem

/-- Bits that no packed field covers read zero. -/
theorem bitsOf_pack_gap {b lo w : Nat} (l : List (Nat × Nat × Nat)) (a : Nat) (hl : Packed b l) (ha : a < 2 ^ b) (hb : b ≤ lo)
    (hgap : ∀ x ∈ l, lo + w ≤ x.2.1 ∨ x.2.1 + x.2.2 ≤ lo) : bitsOf (pack a l) lo w = 0 := by
  have hzero : bitsOf a lo w = 0 := by
    rw [bitsOf, Nat.div_eq_of_lt (Nat.lt_of_lt_of_le ha (Nat.pow_le_pow_right (by decide) hb)), Nat.zero_mod]
  induction l generalizing a b with
  | nil => exact hzero
  | cons x l ih =>
    obtain ⟨hx, hl⟩ := hl
    have hax : a < 2 ^ x.2.1 := Nat.lt_of_lt_of_le ha (Nat.pow_le_pow_right (by decide) hx)
    rcases hgap x (List.mem_cons_self ..) with habove | hbelow
    · exact (bitsOf_pack_below (x :: l) a ⟨Nat.le_refl _, hl⟩ habove).trans hzero
    · have hsum := add_field_lt (w := x.2.2) x.1 hax
      refine ih _ hl hsum hbelow (fun y hy => hgap y (List.mem_cons_of_mem _ hy)) ?_
      rw [bitsOf, Nat.div_eq_of_lt (Nat.lt_of_lt_of_le hsum (Nat.pow_le_pow_right (by decide) hbelow)), Nat.zero_mod]

/-! Queue contexts (R51) -/

/-- The fields of a context in the order of their bits. -/
def ctxFields (c : QCtx) : List (Nat × Nat × Nat) :=
  [(c.state, 0, 2), (b2n c.sqHost, 2, 1), (b2n c.cqHost, 3, 1), (c.sqLog2, 4, 5), (c.cqLog2, 9, 5), (c.tenant, 14, 12),
   (c.qprio, 28, 2), (c.predCount, 32, 9), (c.predBase, 48, 16), (c.sqBase, 64, 64), (c.cqBase, 128, 64), (c.pasid, 192, 20),
   (c.intMode, 224, 2), (c.intVector, 226, 11), (c.modCount, 240, 8), (c.modTime, 256, 10), (c.notifyNode, 272, 14),
   (c.sqTail, 288, 32), (c.sqHead, 320, 32), (c.cqTail, 352, 32), (c.cqHead, 384, 32), (c.inflight, 416, 17), (c.errCause, 448, 8)]

theorem ctxNat_eq_pack (c : QCtx) : ctxNat c = pack 0 (ctxFields c) := rfl

theorem packed_ctxFields (c : QCtx) : Packed 0 (ctxFields c) := by
  simp only [ctxFields, Packed]
  decide

/-- A field of a written context that fits its width reads as its value. -/
theorem bitsOf_ctxNat (c : QCtx) {v lo w : Nat} (hv : v < 2 ^ w) (hmem : (v, lo, w) ∈ ctxFields c) : bitsOf (ctxNat c) lo w = v :=
  (bitsOf_pack _ 0 (packed_ctxFields c) (by decide) hmem).trans (Nat.mod_eq_of_lt hv)

/-- A one-bit field of a written context. -/
theorem bitOf_ctxNat (c : QCtx) {b : Bool} {lo : Nat} (hmem : (b2n b, lo, 1) ∈ ctxFields c) : bitOf (ctxNat c) lo = b := by
  have h : bitsOf (ctxNat c) lo 1 = b2n b := bitsOf_ctxNat c (by cases b <;> decide) hmem
  rw [bitsOf, Nat.pow_one] at h
  rw [bitOf, h]
  cases b <;> rfl

/-- Reserved bits of a written context are zero. -/
theorem bitsOf_ctxNat_rsv (c : QCtx) {lo w : Nat} (hgap : ∀ x ∈ ctxFields c, lo + w ≤ x.2.1 ∨ x.2.1 + x.2.2 ≤ lo) :
    bitsOf (ctxNat c) lo w = 0 :=
  bitsOf_pack_gap _ 0 (packed_ctxFields c) (by decide) (Nat.zero_le _) hgap

/-- Settles O19: each field is read where it was packed. -/
theorem queueContextsRoundTrip : Obligations.QueueContextsRoundTrip := by
  intro c h1 h2 h3 h4 h5 h6 h7 h8 h9 h10 h11 h12 h13 h14 h15 h16 h17 h18 h19 h20 h21 hrsv
  have field {v lo w : Nat} (hv : v < 2 ^ w) := bitsOf_ctxNat c (lo := lo) hv
  have bit {b : Bool} {lo : Nat} := bitOf_ctxNat c (b := b) (lo := lo)
  have gap {lo w : Nat} := bitsOf_ctxNat_rsv c (lo := lo) (w := w)
  simp only [ctxFields, List.mem_cons, List.not_mem_nil] at field bit
  simp only [ctxFields, List.forall_mem_cons, List.not_mem_nil] at gap
  rw [parseCtx, field h1 (by simp), field h2 (by simp), field h3 (by simp), field h4 (by simp), field h5 (by simp), field h6 (by simp),
    field h7 (by simp), field h8 (by simp), field h9 (by simp), field h10 (by simp), field h11 (by simp), field h12 (by simp),
    field h13 (by simp), field h14 (by simp), field h15 (by simp), field h16 (by simp), field h17 (by simp), field h18 (by simp),
    field h19 (by simp), field h20 (by simp), field h21 (by simp), bit (b := c.sqHost) (by simp), bit (b := c.cqHost) (by simp),
    gap (lo := 26) (by simp), gap (lo := 30) (by simp), gap (lo := 41) (by simp), gap (lo := 212) (by simp),
    gap (lo := 237) (by simp), gap (lo := 248) (by simp), gap (lo := 266) (by simp), gap (lo := 286) (by simp),
    gap (lo := 433) (by simp), gap (lo := 456) (by simp)]
  simp [← hrsv]

end Sys2Proof.Encodings
end

section
/-!
Proofs of the statements about arbiters (spec 10, R226 and R227), number formats (spec 07), configuration fields (spec 19) and
register fields (spec 00, R3 and R5).
-/
namespace Sys2Proof.Encodings
open Sys2Proof Sys2Proof.Machine

/-! Arbiters (R226, R227) -/

/-- The least of a list that is not empty is one of it. -/
theorem foldl_min_mem (p : Nat) (l : List Nat) : l.foldl min p ∈ p :: l := List.min?_mem List.min?_cons'

/-- The rotating search ends at one of the positions, where any lies inside the arbiter. -/
theorem fromPtr_mem {r ptr : Nat} {ps : List Nat} (hr : ∀ p ∈ ps, p < r) (hne : ps ≠ []) : ∃ w, fromPtr r ptr ps = some w ∧ w ∈ ps := by
  unfold fromPtr
  split
  · rename_i p rest hge
    exact ⟨_, rfl, (List.mem_filter.mp (hge ▸ foldl_min_mem p rest)).1⟩
  · rw [List.filter_eq_self.mpr (fun p hp => decide_eq_true (hr p hp))]
    cases ps with
    | nil => exact absurd rfl hne
    | cons p rest => exact ⟨_, rfl, foldl_min_mem p rest⟩

/-- The highest of some values is one of them, and none is above it. -/
theorem foldl_max_zero {l : List Nat} (hne : l ≠ []) : l.foldl max 0 ∈ l ∧ ∀ b ∈ l, b ≤ l.foldl max 0 := by
  cases l with
  | nil => exact absurd rfl hne
  | cons x l =>
    have hmax : (x :: l).max? = some ((x :: l).foldl max 0) := by rw [List.max?_cons', List.foldl_cons, Nat.zero_max]
    exact List.max?_eq_some_iff.mp hmax

/-- What a decision goes by: the waits in a reserved grant (R227), else the ranks (R226). -/
def arbValue (n : Nat) (a : ArbState) (q : Nat × Nat) : Nat := if a.cnt % n == n - 1 then ngetD 0 a.waits q.1 else q.2

/-- The requesters of the highest value. -/
def arbCands (n : Nat) (a : ArbState) (reqs : List (Nat × Nat)) : List Nat :=
  (reqs.filter (fun q => arbValue n a q == (reqs.map (arbValue n a)).foldl max 0)).map (·.1)

/-- A decision serves the one of them that the rotating pointer meets first. -/
theorem arbCore_of_fromPtr {r n : Nat} {a : ArbState} {reqs : List (Nat × Nat)} {w : Nat}
    (h : fromPtr r a.ptr (arbCands n a reqs) = some w) : (arbCore r n a reqs).1 = some w ∧
    (arbCore r n a reqs).2.cnt = (a.cnt + 1) % n ∧
    (arbCore r n a reqs).2.ptr = if a.cnt % n = n - 1 then a.ptr else (w + 1) % r := by
  unfold arbCands arbValue at h
  unfold arbCore
  dsimp only
  rw [h]
  simp

/-- A decision with requests: the winner is a requester of the highest value that the decision goes by. -/
theorem arbCore_some {r n : Nat} {a : ArbState} {reqs : List (Nat × Nat)} (hr : ∀ q ∈ reqs, q.1 < r) (hne : reqs ≠ []) :
    ∃ w k, (w, k) ∈ reqs ∧ (a.cnt % n ≠ n - 1 → ∀ q ∈ reqs, q.2 ≤ k) ∧ (arbCore r n a reqs).1 = some w ∧
      (arbCore r n a reqs).2.cnt = (a.cnt + 1) % n ∧
      (arbCore r n a reqs).2.ptr = if a.cnt % n = n - 1 then a.ptr else (w + 1) % r := by
  obtain ⟨hin, hmax⟩ := foldl_max_zero (l := reqs.map (arbValue n a)) (by simpa using hne)
  obtain ⟨q₀, hq₀, hbest⟩ := List.mem_map.mp hin
  have hcands : arbCands n a reqs ≠ [] :=
    List.ne_nil_of_mem (List.mem_map_of_mem (List.mem_filter.mpr ⟨hq₀, beq_iff_eq.mpr hbest⟩))
  have hlt : ∀ p ∈ arbCands n a reqs, p < r := by
    intro p hp
    obtain ⟨q, hq, rfl⟩ := List.mem_map.mp hp
    exact hr q ((List.mem_filter.mp hq).1)
  obtain ⟨w, hw, hwc⟩ := fromPtr_mem (ptr := a.ptr) hlt hcands
  obtain ⟨⟨w', k⟩, hq, rfl⟩ := List.mem_map.mp hwc
  obtain ⟨hreq, hval⟩ := List.mem_filter.mp hq
  refine ⟨w', k, hreq, fun hfree q hqr => ?_, arbCore_of_fromPtr hw⟩
  have hle := hmax (arbValue n a q) (List.mem_map_of_mem hqr)
  rw [← beq_iff_eq.mp hval] at hle
  simpa [arbValue, hfree] using hle

/-- The wait hints of the losers change neither the winner nor the pointer and the count. -/
theorem arbPick_eq_arbCore (r n : Nat) (a : ArbState) (reqs : List (Nat × Nat)) :
    (arbPick r n a reqs).1 = (arbCore r n a reqs).1 ∧ (arbPick r n a reqs).2.cnt = (arbCore r n a reqs).2.cnt ∧
    (arbPick r n a reqs).2.ptr = (arbCore r n a reqs).2.ptr := by
  unfold arbPick
  split <;> exact ⟨rfl, rfl, rfl⟩

/-- Settles O52. -/
theorem arbitersPickARequester : Obligations.ArbitersPickARequester := by
  intro r n a reqs hr
  refine ⟨fun hnil => by rw [hnil]; rfl, fun hne => ?_⟩
  obtain ⟨hwin, hcnt, hptr⟩ := arbPick_eq_arbCore r n a reqs
  obtain ⟨w, k, hwk, hrank, hw, hcnt', hptr'⟩ := arbCore_some (n := n) (a := a) hr hne
  rw [hwin, hcnt, hptr, hcnt', hptr']
  exact ⟨w, hw, List.mem_map_of_mem hwk, rfl, fun hfree => ⟨⟨k, hwk, hrank hfree⟩, if_neg hfree⟩, fun hres => if_pos hres⟩

/-! Number formats (R146, R147) -/

/-- In a format with infinities, an exponent of all ones and a mantissa that is not zero is a NaN. -/
theorem fpDecode_nan_of_ieee {f : FFmt} {b : Nat} (hf : f.ieee = true) (hex : bitsOf b f.mbits f.ebits = 2 ^ f.ebits - 1)
    (hma : bitsOf b 0 f.mbits ≠ 0) : fpDecode f b = .nan := by
  simp [fpDecode, hf, hex, hma]

/-- In E4M3 the pattern of all ones, either sign, is the NaN. -/
theorem fpDecode_e4m3_nan {b : Nat} (h : b % 128 = 127) : fpDecode ffE4m3 b = .nan := by
  have hex : bitsOf b 3 4 = 15 := by simp only [bitsOf]; omega
  have hma : bitsOf b 0 3 = 7 := by simp only [bitsOf]; omega
  simp [fpDecode, ffE4m3, hex, hma]

/-- The 254 numbers of E4M3 and the 248 numbers and two infinities of E5M2 encode as they decode. -/
theorem fp8_roundTrip : ∀ b < 256, (b % 128 ≠ 127 → fpDecode ffE4m3 b ≠ .nan ∧ fpBits ffE4m3 (fpDecode ffE4m3 b) = b) ∧
    (b % 128 ≤ 0x7C → fpDecode ffE5m2 b ≠ .nan ∧ fpBits ffE5m2 (fpDecode ffE5m2 b) = b) := by
  decide +kernel

/-- Settles O53. -/
theorem naNsAreCanonical : Obligations.NaNsAreCanonical := by
  refine ⟨rfl, rfl, rfl, rfl, rfl, fun f hf b hex hma => fpDecode_nan_of_ieee ?_ hex hma, fun b => fpDecode_e4m3_nan, fp8_roundTrip⟩
  have hall : ∀ f ∈ [ffFp32, ffBf16, ffFp16, ffE5m2], f.ieee = true := by decide
  exact hall f hf

/-! Configuration fields (R405, R406) -/

/-- Every range of the field table has its lower end below its upper. -/
theorem fieldTable_range : ∀ r ∈ fieldTable, r.lo ≤ r.hi := by decide

/-- Settles O54. -/
theorem fieldChecksStayInRange : Obligations.FieldChecksStayInRange := by
  intro r hr inst v hprof hvc
  have hrange := fieldTable_range r hr
  refine ⟨fun hplain => ?_, fun henum => ?_⟩
  · have hcheck : fieldCheck r inst v = if v < r.lo then (1, r.lo) else if r.hi < v then (1, r.hi) else (0, v) := by
      simp [fieldCheck, hprof, hvc, hplain]
    rw [hcheck]
    refine ⟨?_, ?_, fun hlo hhi => ?_, fun hlo => if_pos hlo, fun hhi => ?_⟩
    · split
      · exact Nat.le_refl _
      · split
        · exact hrange
        · omega
    · split
      · exact hrange
      · split
        · exact Nat.le_refl _
        · omega
    · rw [if_neg (by omega), if_neg (by omega)]
    · rw [if_neg (by omega), if_pos hhi]
  · have hcheck : fieldCheck r inst v = if v ≤ r.hi ∨ (r.id = 0x0013 ∧ v = 15) then (0, v) else (2, fieldDefault r.id inst) := by
      simp [fieldCheck, hprof, hvc, henum]
    rw [hcheck]
    exact ⟨fun hin => if_pos (.inl hin), fun hout hid => if_neg (by omega)⟩

/-! Register fields (R3, R5) -/

/-- A field with no ring behind it takes a write in the registers or the pending values alone, at its own place. -/
theorem writeFld_frame (s : State) (t : FTy) {f : Fld} (n v : Nat) (hring : headRing f = none) :
    writeFld s t f n v = { s with regs := (writeFld s t f n v).regs, shadow := (writeFld s t f n v).shadow } ∧
    ∀ (g : Fld) (m : Nat), fldKey g m ≠ fldKey f n → getF (writeFld s t f n v) g m = getF s g m := by
  cases t with
  | ro => exact ⟨rfl, fun g m _ => rfl⟩
  | wo => exact ⟨rfl, fun g m _ => rfl⟩
  | rw =>
    simp only [writeFld, hring]
    exact ⟨rfl, fun g m hne => getF_setF_ne s _ hne⟩
  | rwc => exact ⟨rfl, fun g m _ => rfl⟩
  | w1s => exact ⟨rfl, fun g m hne => getF_setF_ne s _ hne⟩
  | w1c =>
    simp only [writeFld]
    split
    · exact ⟨rfl, fun g m hne => getF_setF_ne s _ hne⟩
    · exact ⟨rfl, fun g m _ => rfl⟩

/-- Settles O47. -/
theorem fieldsAreWrittenByTheirType : Obligations.FieldsAreWrittenByTheirType := by
  intro s f n v _
  refine ⟨rfl, rfl, fun hring => ?_, rfl, nfind_nput_self .., fun hones => ?_, fun hother => if_neg hother, getF_setF_self ..,
    fun t g m hring => (writeFld_frame s t n v hring).2 g m, fun t hring => (writeFld_frame s t n v hring).1⟩
  · simp only [writeFld, hring]
    exact getF_setF_self ..
  · simp only [writeFld, hones, if_true]
    exact (getF_setF_self ..).trans (Nat.zero_mod _)

/-! Commits (R5) -/

/-- A pending-value field that a table names at a bit address stands at that address. -/
theorem fldKey_of_rwcAt {tbl : List RegDesc} {k n : Nat} {f : Fld} (h : rwcAt tbl k = some (f, n)) : fldKey f n = k := by
  obtain ⟨r, -, hr⟩ := List.exists_of_findSome?_eq_some h
  obtain ⟨e, -, he⟩ := List.exists_of_findSome?_eq_some hr
  rw [Option.ite_none_right_eq_some, Option.ite_none_right_eq_some] at he
  obtain ⟨-, ⟨hkey, -⟩, hfld⟩ := he
  cases hfld
  exact hkey

/-- The effect of a commit for one pending value. -/
def commitOne (tbl : List RegDesc) (s : State) (e : Nat × Nat) : State :=
  match rwcAt tbl e.1 with
  | some (f, n) => { setF s f e.2 n with shadow := ndel s.shadow e.1 }
  | none => s

theorem commitTable_eq_foldl (s : State) (tbl : List RegDesc) : commitTable s tbl = s.shadow.foldl (commitOne tbl) s := rfl

/-- A pending value concerns the field at its bit address alone. -/
theorem commitOne_ne (tbl : List RegDesc) (s : State) {e : Nat × Nat} {f : Fld} {n : Nat} (h : fldKey f n ≠ e.1) :
    getF (commitOne tbl s e) f n = getF s f n ∧ nfind (commitOne tbl s e).shadow (fldKey f n) = nfind s.shadow (fldKey f n) := by
  unfold commitOne
  split
  · rename_i g m hat
    refine ⟨getF_setF_ne s e.2 (fldKey_of_rwcAt hat ▸ h), nfind_ndel_ne _ h⟩
  · exact ⟨rfl, rfl⟩

/-- A field whose address is not among some pending values keeps its value, in force and pending, while they are applied. -/
theorem foldl_commitOne_ne (tbl : List RegDesc) (l : NMap Nat) (s : State) {f : Fld} {n : Nat} (h : nfind l (fldKey f n) = none) :
    getF (l.foldl (commitOne tbl) s) f n = getF s f n ∧
    nfind (l.foldl (commitOne tbl) s).shadow (fldKey f n) = nfind s.shadow (fldKey f n) := by
  induction l generalizing s with
  | nil => exact ⟨rfl, rfl⟩
  | cons e l ih =>
    obtain ⟨k, v⟩ := e
    by_cases hk : k = fldKey f n
    · simp [nfind, hk] at h
    · rw [nfind, if_neg hk] at h
      obtain ⟨hget, hpend⟩ := ih (commitOne tbl s (k, v)) h
      obtain ⟨hget1, hpend1⟩ := commitOne_ne tbl s (e := (k, v)) (Ne.symm hk)
      exact ⟨hget.trans hget1, hpend.trans hpend1⟩

/-- A pending value of a field of the table is in force once it was applied, and stays so. -/
theorem foldl_commitOne_self {tbl : List RegDesc} {l : NMap Nat} (hl : NMap.sorted l) (s : State) {f : Fld} {n v : Nat}
    (hat : rwcAt tbl (fldKey f n) = some (f, n)) (h : nfind l (fldKey f n) = some v) :
    getF (l.foldl (commitOne tbl) s) f n = v % 2 ^ f.width ∧ nfind (l.foldl (commitOne tbl) s).shadow (fldKey f n) = none := by
  induction l generalizing s with
  | nil => cases h
  | cons e l ih =>
    obtain ⟨k, w⟩ := e
    by_cases hk : k = fldKey f n
    · subst hk
      rw [nfind, if_pos rfl] at h
      cases h
      have happly : commitOne tbl s (fldKey f n, v) = { setF s f v n with shadow := ndel s.shadow (fldKey f n) } := by
        rw [commitOne, hat]
      obtain ⟨hget, hpend⟩ := foldl_commitOne_ne tbl l (commitOne tbl s (fldKey f n, v)) (nfind_none_of_lt (sorted_head hl))
      rw [List.foldl_cons, hget, hpend, happly]
      exact ⟨getF_setF_self s f v n, nfind_ndel_self ..⟩
    · rw [nfind, if_neg hk] at h
      exact ih (List.pairwise_cons.mp hl).2 _ h

/-- Settles O48. -/
theorem commitsApplyWhatIsPending : Obligations.CommitsApplyWhatIsPending := by
  intro s tbl
  simp only [commitTable_eq_foldl]
  refine ⟨fun hnone => by rw [hnone]; rfl, fun hsorted => ⟨fun f n v hat hv => ?_, fun f n hnone => ?_⟩⟩
  · exact foldl_commitOne_self hsorted s hat hv
  · exact (foldl_commitOne_ne tbl s.shadow s hnone).1

end Sys2Proof.Encodings
end

section
/-!
Proof that no command is refused and that only a start below 0 degrees stops (R439).
-/
namespace Sys2Proof.Steps
open Sys2Proof Sys2Proof.Machine

/-- A command answers a next state. -/
def Answers (o : Out) : Prop := ∃ t, o = .next t

theorem answers_next (t : State) : Answers (.next t) := ⟨t, rfl⟩

theorem answers_ite {p : Prop} [Decidable p] {a b : Out} (ha : Answers a) (hb : Answers b) : Answers (if p then a else b) := by
  split
  · exact ha
  · exact hb

/-- Every command but DEVICE_START answers on each of its paths: at once, after one or two tests, or after it has looked up what it names. -/
theorem exec_answers (c : Instr) (hc : ∀ env, c ≠ .deviceStart env) (s : State) : Answers (exec c s) := by
  cases c
  case deviceStart env => exact absurd rfl (hc env)
  case
    deviceReset | atsInvalidationRequest | sqTail | cqHead | readCtx | copy2d | fill | gather | scatterAdd | embedBag | reduce |
    atomic | quantize | attendDecode | attendMerge | topk | moeDispatch | expertFfn | moeCombine | revoke | tileDispatch |
    tileLoadData | tileComputeDone | tileRetire | tileWatchdogExpiry | nmeCommit | invalidateRange | invalidateTenant | tableSwap |
    resmapClear | dmaMigPop | rdReq | wrReq | atomicReq | tileBatch | cmdFwd | setReq | rdShared | rdOwn | upgrade | dirCommit |
    routeTableWrite | routerCommit | linkRekey | pairSet | admBktRead | admBktWrite | fathomUpdate | channelRetrain | smcRetrainNow |
    parRetire | smcLock | smcCommit | xbarCommit | eraseRange | trngHealthFail | pwrStatus | powerCap | domainPower | pointCeiling |
    thermalLimit | fwStage | fwActivate | handover | mgtStatus | cfgReport | fieldGet | fieldSet | imageWrite | recoveryWrite |
    attest | svnAdvance | pldm | cfgFeatCommit | claimRaise | claimDrop | mgtPairReset | fastCurrentLimit | hwThermalThrottle |
    thermtrip | telCommit | telDumpEnable | telSampCtlWrite | hwThermalThrottleRelease | zmapReady =>
    exact answers_next _
  case
    pcieReset | pcieLinkDown | vfDisable | blockUnavailableTimeout | disableDrain | disableAbort | clearPred | engineFault |
    keySlotLoaded | tenantRetire | leaseNotice | translationMiss | migEnClear | setWithdraw | withdrawAck | cacheRelease |
    nieFlowClose | jobBind | replayReq | replayTimeout | retrainReq | rttProbe | rttEcho | rttProbeTimer | lossOfSignal |
    laneErrorLimit | portEnable | portDisable | portRetrain | detectSignal | trainDone | configDone | retrainTimeout | autoUpTimer |
    refresh | ueLimitExceeded | identityReady | spdmGetVersion | spdmGetCapabilities | spdmNegotiateAlgorithms | hifMbxSubmit |
    hifMbxPop | mailboxTake | cfgRptRead | heartbeat | dvfsTarget | avsTimeout | powerLoop | thermalLoop | pdSwitch | telCntClear |
    pcieLinkUp | trngHealthPass | vfEnable | d3hotTransition =>
    exact answers_ite (answers_next _) (answers_next _)
  case
    doorbellWriteDropped | writeCtx | nieFlowOpen | binvRange | agentRelease | stackNoResponse | rowRepair | debugGrant |
    spdmGetMeasurements | watchdogExpiry | standbyTakeover | telDumpPeriod =>
    exact answers_ite (answers_next _) (answers_ite (answers_next _) (answers_next _))
  case
    functionLevelReset | pageRequestResponse | priTimeout | hostCompletion | hostCompletionTimeout | registerWrite | enable |
    descriptorFetch | predicateRelease | waitSlotsCleared | moderationTimerExpiry | scrubRange | publish | publishComplete |
    revokeDrainDone | revokeStragglerTimeout | waitListService | tileStart | partialStateCombine | spareActivated | nmeRetire |
    dmaChannelSelect | dmaPiece | flushReadComplete | dmaSuspendResume | writeAcknowledge | tenantCreate | tenantKeyDestroy |
    invalidationComplete | dmaMigCmd | migrationDone | xtuMigDone | doorbellPacket | setRsp | rdRsp | wrRsp | atomicRsp | batchRsp |
    cmdRsp | errRsp | replayCacheExpiry | flowRelease | completionTimeout | wbData | evictClean | snpRsp | compAck | holdExpiry |
    snoopTimeout | compAckTimeout | packetHeaderArrival | headerHoldTimeout | epochFlip | epochRetire | frameTransmit | frameReceive |
    retrainDone | rekeyTimer | keyPhaseSwitch | admRelease | admRedecide | channelGrant | parityDelta | rebuildUnit | mistralRead |
    eraseComplete | mctpMessage | selfDiagPeriodic | pairBootDone | doldrumsAlert | dvfsStepDone | atsTranslationCompletion |
    replayReqResendTimeout | openMaxExpiry | pdSwitchDone =>
    simp only [exec,
      execFunctionLevelReset, execPageRequestResponse, execPriTimeout, execHostCompletion, execHostCompletionTimeout,
      execRegisterWrite, execEnable, execDescriptorFetch, execPredicateRelease, execWaitSlotsCleared, execModerationTimerExpiry,
      execScrubRange, execPublish, execPublishComplete, execRevokeDrainDone, execRevokeStragglerTimeout, execWaitListService,
      execTileStart, execPartialStateCombine, execSpareActivated, execNmeRetire, execDmaChannelSelect, execDmaPiece,
      execFlushReadComplete, execDmaSuspendResume, execWriteAcknowledge, execTenantCreate, execTenantKeyDestroy,
      execInvalidationComplete, execDmaMigCmd, execMigrationDone, execXtuMigDone, execDoorbellPacket, execSetRsp, execRdRsp, execWrRsp,
      execAtomicRsp, execBatchRsp, execCmdRsp, execErrRsp, execReplayCacheExpiry, execFlowRelease, execCompletionTimeout, execWbData,
      execEvictClean, execSnpRsp, execCompAck, execHoldExpiry, execSnoopTimeout, execCompAckTimeout, execPacketHeaderArrival,
      execHeaderHoldTimeout, execEpochFlip, execEpochRetire, execFrameTransmit, execFrameReceive, execRetrainDone, execRekeyTimer,
      execKeyPhaseSwitch, execAdmRelease, execAdmRedecide, execChannelGrant, execParityDelta, execRebuildUnit, execMistralRead,
      execEraseComplete, execMctpMessage, execSelfDiagPeriodic, execPairBootDone, execDoldrumsAlert, execDvfsStepDone,
      execAtsTranslationCompletion, execReplayReqResendTimeout, execOpenMaxExpiry, execPdSwitchDone]
    repeat' split
    all_goals exact answers_next _

/-- DEVICE_START answers too, but in phase 0, with no trip, where a sensor reads below 0 degrees (R439). -/
theorem execDeviceStart_answers (env : StartEnv) (s : State) :
    Answers (execDeviceStart env s) ∨ env.cold = true ∧ execDeviceStart env s = .fault .startBelowZero := by
  unfold execDeviceStart
  split
  · exact .inl (answers_next _)
  · split
    · exact .inr ⟨‹_›, rfl⟩
    · exact .inl (answers_next _)

/-- Settles O11. -/
theorem onlyAColdStartStops : Obligations.OnlyAColdStartStops := by
  intro c s
  by_cases hc : ∃ env, c = .deviceStart env
  · obtain ⟨env, rfl⟩ := hc
    rcases execDeviceStart_answers env s with hnext | ⟨hcold, hstop⟩
    · exact .inl hnext
    · exact .inr ⟨env, rfl, hcold, hstop⟩
  · exact .inl (exec_answers c (fun env e => hc ⟨env, e⟩) s)

end Sys2Proof.Steps
end

section
/-!
Proofs of the statements about requests of the management mailbox (spec 16, 17, 18, 19, 21).
-/
namespace Sys2Proof.Requests
open Sys2Proof Sys2Proof.Machine Sys2Proof.Encodings

section
variable {s : State} {source tag code : Nat} {e : MbxEnt} {lenOk : Nat → Bool} {f : State → MbxEnt → List Byte → State}

/-- A taken request whose body has a length its command takes is served by the command (R391, R411). -/
theorem serve_of_lenOk (h : takenReq s source tag code = some e) (hlen : lenOk (msgByte e.msg 4) = true) :
    serve s source tag code lenOk f = f s e (msgBody e.msg) := by
  simp [serve, h, hlen]

/-- Another length is answered BAD_LENGTH (R391, R411). -/
theorem serve_of_not_lenOk (h : takenReq s source tag code = some e) (hlen : lenOk (msgByte e.msg 4) = false) :
    serve s source tag code lenOk f = answer s e 3 0 [] := by
  simp [serve, h, hlen]

/-- A command that serves a request, served. -/
theorem next_serve (h : takenReq s source tag code = some e) (hlen : lenOk (msgByte e.msg 4) = true) :
    (.next (serve s source tag code lenOk f) : Out) = .next (f s e (msgBody e.msg)) :=
  congrArg Host.Outcome.next (serve_of_lenOk h hlen)

/-- A command of one length serves a request of that length. -/
theorem next_serve_len {k : Nat} (h : takenReq s source tag code = some e) (hlen : msgByte e.msg 4 = k) :
    (.next (serve s source tag code (fun n => n == k) f) : Out) = .next (f s e (msgBody e.msg)) :=
  next_serve h (beq_iff_eq.mpr hlen)

/-- A command that serves a request, refused for its length. -/
theorem next_serve_badLength (h : takenReq s source tag code = some e) (hlen : lenOk (msgByte e.msg 4) = false) :
    (.next (serve s source tag code lenOk f) : Out) = .next (answer s e 3 0 []) :=
  congrArg Host.Outcome.next (serve_of_not_lenOk h hlen)

end

/-- Settles O12: every command of the mailbox serves through `serve`. -/
theorem mailboxRequestsOfAWrongLengthAreRefused : Obligations.MailboxRequestsOfAWrongLengthAreRefused := by
  intro source tag s e n bad
  have other {k : Nat} (h : n ≠ k) : (n == k) = false := beq_false_of_ne h
  refine ⟨fun h hn => ?_, fun h hn => ?_, fun h hn => ?_, fun h hn => ?_, fun h hn => ?_, fun im fails ok h hn => ?_, fun cause h hn => ?_,
    fun h hn => ?_, fun h hn => ?_, fun h hn => ?_, fun h hn => ?_, fun h hn => ?_, fun im ok h hn => ?_, fun h hn => ?_,
    fun fails h hn => ?_, fun h hn => ?_, fun h hn => ?_⟩
  case refine_14 =>
    have hlen : (decide (4 ≤ n) && decide (n ≤ 236)) = false := by simp only [Bool.and_eq_false_iff, decide_eq_false_iff_not]; omega
    exact next_serve_badLength h hlen
  case refine_17 =>
    have hlen : decide (n ≤ 240) = false := decide_eq_false (by omega)
    exact next_serve_badLength h hlen
  all_goals exact next_serve_badLength h (other hn)

/-! Power (R391) -/

/-- Settles O13. -/
theorem powerRequestsTakeTheirEffect : Obligations.PowerRequestsTakeTheirEffect := by
  intro source tag s e n b
  refine ⟨next_serve_len, next_serve_len, next_serve_len, fun h hn hpd => (next_serve_len h hn).trans ?_,
    fun h hn hpd => (next_serve_len h hn).trans ?_, fun h hn => ⟨_, ?_, next_serve_len h hn⟩,
    fun h hn => ⟨_, _, ?_, rfl, next_serve_len h hn⟩⟩
  · rw [hpd]
    rfl
  · rw [Option.isSome_iff_ne_none.mpr hpd]
    rfl
  · simp
  · simp

/-! Configuration (R411, R412) -/

/-- Settles O14. -/
theorem fieldAndReportRequestsTakeTheirEffect : Obligations.FieldAndReportRequestsTakeTheirEffect := by
  intro source tag s e
  dsimp only
  refine ⟨next_serve_len, fun h hn => ⟨fun r hrow hin => ?_, fun habsent => ?_⟩,
    fun h hn => ⟨fun hdenied => ?_, fun r hrow hrun hall => ⟨fun hout => ?_, fun hin hdom => ?_⟩⟩⟩
  all_goals refine (next_serve_len h hn).trans (congrArg Host.Outcome.next ?_)
  · simp only [hrow, if_neg (Nat.not_le.mpr hin)]
  · rcases habsent with hnone | ⟨r, hrow, hout⟩
    · simp only [hnone]
    · simp only [hrow, if_pos hout]
  · rcases hdenied with hnone | hall | ⟨r, hrow, hrun⟩
    · simp only [hnone]
    · dsimp only
      split
      · rfl
      · rw [if_pos (by simp [hall])]
    · simp only [hrow]
      rw [if_pos (by simp [hrun])]
  · simp only [hrow]
    rw [if_neg (by simp [hrun, hall]), if_pos hout]
  · simp only [hrow]
    rw [if_neg (by simp [hrun, hall]), if_neg (Nat.not_le.mpr hin), if_neg]
    rintro ⟨hport, hoff⟩
    rcases hdom with hid | hdom
    · exact hport hid
    · split at hoff
      · rename_i d hd
        rw [hdom d hd] at hoff
        cases hoff
      · cases hoff

/-! Images (R383, R413, R414) -/

/-- Settles O15. -/
theorem imageRequestsTakeTheirEffect : Obligations.ImageRequestsTakeTheirEffect := by
  intro source tag s e
  dsimp only
  refine ⟨fun im fails bytes h hn hf => ⟨fun hok => ?_, fun hbad => ?_⟩, fun im bytes h hn hf hstate => ?_,
    fun h hlo hhi hlen => ⟨fun htaken hsrc harea => ?_, fun htaken => ?_⟩, fun w h hn hw hopen => ?_,
    fun w cause h hn hw hopen => ⟨fun hon hcause => ?_, fun hoff => ?_⟩⟩
  · refine (next_serve_len h hn).trans ?_
    simp only [hf, if_neg (not_not_intro hok), if_true]
  · refine (next_serve_len h hn).trans ?_
    simp only [hf, if_pos hbad]
  · refine (next_serve_len h hn).trans ?_
    simp only [hf, if_neg hstate, if_true]
  · refine (next_serve h (by simp only [Bool.and_eq_true, decide_eq_true_eq]; omega)).trans (congrArg Host.Outcome.next ?_)
    have hdata : (msgBody e.msg).drop 4 ≠ [] := List.ne_nil_of_length_pos (by omega)
    simp only [hlen]
    rw [if_neg (by simp [htaken, hsrc, harea]), if_neg hdata]
  · refine (next_serve h (by simp only [Bool.and_eq_true, decide_eq_true_eq]; omega)).trans (congrArg Host.Outcome.next ?_)
    exact if_pos (.inl htaken)
  · refine (next_serve_len h hn).trans ?_
    simp only [hw, hopen, if_true]
  · refine (next_serve_len h hn).trans ?_
    simp [hw, hopen, hon, hcause]
  · refine (next_serve_len h hn).trans ?_
    simp [hw, hopen, hoff]

/-! Security (R367, R368, R411) -/

/-- Settles O16. -/
theorem securityRequestsTakeTheirEffect : Obligations.SecurityRequestsTakeTheirEffect := by
  intro source tag s e
  dsimp only
  refine ⟨fun h hn => ⟨fun hin => ?_, fun hout => ?_⟩,
    fun h hn => ⟨fun fails hid => ?_, fun fails ppa rep u hid hppa halign hlt hown hrsv hroom hrep => ?_⟩, fun h hn => ?_⟩
  · exact (next_serve_len h hn).trans (congrArg Host.Outcome.next (if_neg (Nat.not_lt.mpr hin)))
  · exact (next_serve_len h hn).trans (congrArg Host.Outcome.next (if_pos hout))
  · refine (next_serve_len h hn).trans ?_
    simp only [hid, Bool.not_false, if_true]
  · refine (next_serve_len h hn).trans ?_
    subst hppa
    have hplace : ¬ (argAt (msgBody e.msg) 34 8 % 64 ≠ 0 ∨ 2 ^ 56 ≤ argAt (msgBody e.msg) 34 8 ∨
        ownerOf (argAt (msgBody e.msg) 34 8) ≠ s.dev.node ∨ localOf (argAt (msgBody e.msg) 34 8) < rsvBase s ∨
        capacity s < localOf (argAt (msgBody e.msg) 34 8) + 5861) := by omega
    simp only [hid, Bool.not_true, Bool.false_eq_true, if_false, if_neg hplace, hrep]
  · have hk : (fresh s).1 % 241 < 241 := Nat.mod_lt _ (by decide)
    exact ⟨_, _, _, Nat.le_of_lt_succ hk, rfl, next_serve h (decide_eq_true hn)⟩

end Sys2Proof.Requests
end

section
/-!
Proofs of the statements about the host interface (spec 16), the mailbox's transport (spec 18) and host translations (spec 08).
-/
namespace Sys2Proof.HostInterface
open Sys2Proof Sys2Proof.Machine

/-! Shared facts -/

/-- The clock comes to the given time, or stays where it is past it. -/
theorem advance_nowNs (s : State) (t : Nat) : (advance s t).nowNs = max s.nowNs t := by
  unfold advance
  split
  · exact (Nat.max_eq_left ‹_›).symm
  · exact (Nat.max_eq_right (Nat.le_of_not_le ‹_›)).symm

/-- BAR2 answers a function exactly where HIF is ready, the link is up and the function is not in D3hot (R334, R345). -/
theorem bar2Open_iff {s : State} {fn : Nat} : bar2Open s fn = true ↔ s.hif.ready = true ∧ s.hif.linkUp = true ∧ fn ∉ s.hif.d3 := by
  simp [bar2Open, and_assoc]

theorem le_clamp {lo hi v : Nat} (h : lo ≤ hi) : lo ≤ clamp lo hi v := by
  unfold clamp
  split
  · exact Nat.le_refl _
  · split <;> omega

theorem clamp_le {lo hi v : Nat} (h : lo ≤ hi) : clamp lo hi v ≤ hi := by
  unfold clamp
  split
  · exact h
  · split <;> omega

/-- A one-bit field reads as before a write at another place. -/
theorem getB_setF_ne (s : State) {f g : Fld} (v : Nat) {n m : Nat} (h : fldKey g m ≠ fldKey f n) : getB (setF s f v n) g m = getB s g m := by
  rw [getB, getB, getF_setF_ne s v h]

/-! Register writes (R6, R339, R345, R376) -/

/-- Settles O46. -/
theorem registerWritesReachTheirRegister : Obligations.RegisterWritesReachTheirRegister := by
  refine ⟨fun env off size v s hopen hoff => ?_, fun env off size v s hclosed hup hd3 => ?_,
    fun b env off size v s hoff => ⟨fun hstop => ?_, fun hrun hwin hsize halign => ?_, fun hrun hwin hgate => ?_⟩⟩
  · have hpf0 : exec (.registerWrite .pf0 env off size v) s = .next (writeAt s .pf0 env off size v) := by
      simp only [exec, execRegisterWrite, hopen, hoff, decide_true, Bool.and_self, if_true]
    rw [hpf0]
    refine ⟨fun hbad => ?_, fun hsize halign => ?_, fun r n hsize halign hreg hwide => ?_, fun r n hsize halign hreg hnarrow => ?_⟩
    · rw [writeAt, if_pos hbad]
    · subst hsize
      simp [writeAt, halign]
    · subst hsize
      simp [writeAt, halign, hreg, hwide]
    · subst hsize
      simp [writeAt, halign, hreg, hnarrow]
  · simp [exec, execRegisterWrite, hclosed, hup, hd3]
  all_goals
    have hpair : exec (.registerWrite (if b then .pairB else .pairA) env off size v) s = .next (writePair s b env off size v) := by
      cases b <;> exact if_pos hoff
    refine hpair.trans (congrArg Host.Outcome.next ?_)
  · simp [writePair, hstop]
  · subst hsize
    simp [writePair, hrun, hwin, writeAt, halign]
  · simp [writePair, hrun, hwin, hgate]

/-! Functions and the link (R334, R341 to R344) -/

/-- The registers after link training show the link up at a speed within the two limits (R334, R343). -/
theorem linkTrain_regs (s : State) (speed width : Nat) (flit : Bool) :
    getB (linkTrain s speed width flit) Reg.hifLink_up = true ∧
    getF (linkTrain s speed width flit) Reg.hifLink_speed = clamp 1 (clamp 1 6 (fieldValue s 8 0)) speed := by
  have hmax : clamp 1 6 (fieldValue s 8 0) ≤ 6 := clamp_le (by decide)
  have hspeed : clamp 1 (clamp 1 6 (fieldValue s 8 0)) speed ≤ 6 := Nat.le_trans (clamp_le (le_clamp (by decide))) hmax
  refine ⟨?_, ?_⟩
  · refine (getB_setF_ne _ _ (by decide)).trans ((getB_setF_ne _ _ (by decide)).trans ((getB_setF_ne _ _ (by decide)).trans ?_))
    exact getB_setB_self s _ true 0 (by decide)
  · refine (getF_setF_ne _ _ (by decide)).trans ((getF_setF_ne _ _ (by decide)).trans ((getF_setF_self ..).trans ?_))
    exact Nat.mod_eq_of_lt (Nat.lt_of_le_of_lt hspeed (by decide))

/-- Settles O7. -/
theorem hostFunctionAndLinkCommandsComplete : Obligations.HostFunctionAndLinkCommandsComplete := by
  intro s
  refine ⟨fun hcfg => ⟨?_, ?_, fun v hv => ?_, fun n => ?_, fun n hd3 => ?_, fun fn hfn => ?_, fun fn hfn => ?_⟩, fun hup => if_pos hup,
    fun hon => if_pos hon, fun speed width flit host hon hdown => ?_, fun off hopen halign hoff => ?_⟩
  · simp [exec, execFunctionLevelReset, hcfg]
  · simp [exec, execFunctionLevelReset, hcfg]
  · have hfn : 2 + v ≠ 0 ∧ 2 + v ≠ 1 ∧ 2 + v < 2 + s.hif.vfs := by omega
    simp [exec, execFunctionLevelReset, hcfg, hfn]
  · exact ⟨_, exec_vfDisable_of_cfgOpen n hcfg, Nat.min_le_left ..⟩
  · simp [exec, execVfEnable, hcfg, hd3]
  · simp [exec, execD3hotTransition, hcfg, Nat.not_le.mpr hfn]
  · simp [exec, execD3hotTransition, hcfg, Nat.not_le.mpr hfn]
  · refine ⟨(linkTrain s speed width flit).regs, ?_, fun t ht => ?_⟩
    · simp only [exec, execPcieLinkUp, hon, hdown, Bool.not_true, Bool.false_eq_true, or_self, if_false]
      rfl
    · rw [getB_congr ht, getF_congr ht]
      exact linkTrain_regs s speed width flit
  · have htaken : ¬ (!bar2Open s 0 ∨ ¬ (4 = 4 ∨ 4 = 8) ∨ off % 4 ≠ 0 ∨ 2 ^ 28 ≤ off) := by
      simp only [hopen, halign, Nat.not_le.mpr hoff]
      decide
    exact ⟨if_neg htaken, if_neg htaken⟩

/-! The mailbox's transport (R347 to R350, R383) -/

/-- Settles O9. -/
theorem mailboxTransportCompletes : Obligations.MailboxTransportCompletes := by
  refine ⟨fun bytes s hopen => ?_, fun s id rest hopen hfifo => ?_, fun source m s hopen hlen => ?_,
    fun s b e hready hrec hwin hhand hfind hknown => ?_⟩
  · dsimp only
    intro hlen
    have hsub : exec (.hifMbxSubmit bytes) s = .next (mbxSubmit ((List.range 32).foldl (fun s i =>
        setF s Reg.hifMbxReq_data (leToNat (((fixLen 256 bytes).drop (8 * i)).take 8)) i) s)) := by
      simp [exec, execHifMbxSubmit, hopen]
    rw [hsub]
    generalize (List.range 32).foldl (fun s i => setF s Reg.hifMbxReq_data (leToNat (((fixLen 256 bytes).drop (8 * i)).take 8)) i) s = u
      at hlen ⊢
    have hfit : ¬ 240 < msgByte (stagedMsg u) 4 := Nat.not_lt.mpr hlen
    refine ⟨fun hroom hmbx => ?_, fun hfull hmbx => ?_⟩
    · have hfree : mbxFull u = false := by simp [mbxFull, hmbx, hroom]
      refine ⟨mbxEnqueue (setF u Reg.hifMbxSubmit_result 0) 0 _, by simp only [mbxSubmit, hfit, hfree, Bool.false_eq_true, if_false]; rfl,
        getF_setF_self u _ 0 0, ?_⟩
      rw [mbxEnqueue, setF_mbx, hmbx]
    · have hno : mbxFull u = true := by simp [mbxFull, hmbx, hfull]
      simp only [mbxSubmit, hfit, hno, if_false, if_true]
  · simp [exec, execHifMbxPop, hopen, mbxPop, hfifo]
  · dsimp only
    intro hbody hwhole hwrite
    have hpad : m ++ List.replicate (16 - m.length) 0 = m := by rw [Nat.sub_eq_zero_of_le hlen]; exact List.append_nil m
    have hform : ¬ (240 < msgByte (patch m 5 (natToLe 1 source)) 4 ∨
        (patch m 5 (natToLe 1 source)).length ≠ 16 + msgByte (patch m 5 (natToLe 1 source)) 4) := by omega
    have hgate : (!readOnlyCmd (msgCmd (patch m 5 (natToLe 1 source))) && !getB s Reg.hifCtl_mctp_write_en) = false := by
      rcases hwrite with h | h <;> simp [h]
    have hgo : exec (.mctpMessage source false m) s =
        if mbxFull s then .next (emit (logHif s 6 0xFF) (.mctp source (rspMsg (patch m 5 (natToLe 1 source)) source 1 1000 [])))
        else .next (mbxEnqueue s source (patch m 5 (natToLe 1 source))) := by
      simp only [exec, execMctpMessage, hopen, Bool.not_true, Bool.false_eq_true, if_false, hpad, hform, hgate]
    rw [hgo]
    exact ⟨fun hroom => if_neg (by simp [mbxFull, hroom]), fun hfull => if_pos (by simp [mbxFull, hfull])⟩
  · simp [exec, execMailboxTake, hready, mailboxTake, hrec, hwin, hhand, hfind, hknown]

/-! Host translations (R181, R182) -/

/-- Settles O10. -/
theorem hostTranslationCommandsComplete : Obligations.HostTranslationCommandsComplete := by
  refine ⟨fun fn pasid page pages tag s => ⟨_, rfl, fun e he => ?_, rfl, ⟨_, rfl, rfl, rfl⟩, rfl⟩,
    fun fn pasid page priMax rd wr s w hw => ⟨fun hright => ?_, fun hright hpri => ?_, fun hright hroom => ?_⟩,
    fun index dl s w hw => ?_⟩
  · have hkept := List.mem_filter.mp he
    refine ⟨hkept.1, fun hcovered => ?_⟩
    simp [hcovered] at hkept
  · simp only [exec, execAtsTranslationCompletion, hw, hright, if_true]
  · simp only [exec, execAtsTranslationCompletion, hw, hright, hpri, Bool.false_eq_true, if_false, if_true]
  · have hpri : priMax ≠ 0 := by rintro rfl; simp at hroom
    simp only [exec, execAtsTranslationCompletion, hw, hright, hpri, Nat.not_le.mpr hroom, Bool.false_eq_true, if_false]
    exact ⟨_, rfl, rfl, rfl⟩
  · simp only [exec, execPageRequestResponse, execPriTimeout, hw, Bool.false_eq_true, if_true, if_false]
    exact ⟨⟨_, rfl, rfl⟩, trivial, trivial⟩

end Sys2Proof.HostInterface
end

section
/-!
Proofs of the statements about queues and operators (spec 03, 05, 06) and the XTU's commands (spec 08).
-/
namespace Sys2Proof.Queues
open Sys2Proof Sys2Proof.Machine Sys2Proof.HostInterface

/-! Register arrays -/

/-- Copies of a field that repeats stand at places of their own. -/
theorem fldKey_inj {f : Fld} (hf : 0 < f.stride) {n m : Nat} (h : fldKey f n = fldKey f m) : n = m := by
  have hmul : f.stride * n = f.stride * m := by simp only [fldKey] at h; omega
  exact Nat.eq_of_mul_eq_mul_left hf hmul

/-- Writing copies of a repeated field leaves a copy that is not among them alone. -/
theorem getF_foldl_setF_of_not_mem {f : Fld} (hf : 0 < f.stride) (v : Nat → Nat) (l : List Nat) (s : State) {i : Nat} (hi : i ∉ l) :
    getF (l.foldl (fun s i => setF s f (v i) i) s) f i = getF s f i := by
  induction l generalizing s with
  | nil => rfl
  | cons j l ih =>
    obtain ⟨hij, hil⟩ := List.ne_and_not_mem_of_not_mem_cons hi
    exact (ih _ hil).trans (getF_setF_ne s _ (fun h => hij (fldKey_inj hf h)))

/-- Writing copies of a repeated field, each with a value of its own: each reads as its value. -/
theorem getF_foldl_setF {f : Fld} (hf : 0 < f.stride) (v : Nat → Nat) {l : List Nat} (hl : l.Nodup) (s : State) {i : Nat} (hi : i ∈ l) :
    getF (l.foldl (fun s i => setF s f (v i) i) s) f i = v i % 2 ^ f.width := by
  induction l generalizing s with
  | nil => cases hi
  | cons j l ih =>
    obtain ⟨hjl, hl⟩ := List.nodup_cons.mp hl
    rcases List.mem_cons.mp hi with rfl | hi
    · exact (getF_foldl_setF_of_not_mem hf v l _ hjl).trans (getF_setF_self ..)
    · exact ih hl _ hi

/-! Queue commands (R51, R52, R74) -/

/-- QMG_QCMD shows the queue and the result of a command. -/
theorem getF_qcmdResult (s : State) (q res : Nat) : getF (qcmdResult s q res) Reg.qmgQcmd_queue = q % 2 ^ Reg.qmgQcmd_queue.width ∧
    getF (qcmdResult s q res) Reg.qmgQcmd_result = res % 2 ^ Reg.qmgQcmd_result.width :=
  ⟨(getF_setF_ne _ _ (by decide)).trans (getF_setF_self ..), getF_setF_self ..⟩

/-- QMG_QCMD's result leaves the stage registers alone. -/
theorem getF_qcmdResult_stage (s : State) (q res : Nat) {i : Nat} (hi : i < 8) :
    getF (qcmdResult s q res) Reg.qmgQstage_data i = getF s Reg.qmgQstage_data i := by
  have hkey : fldKey Reg.qmgQstage_data i ≠ fldKey Reg.qmgQcmd_queue 0 ∧ fldKey Reg.qmgQstage_data i ≠ fldKey Reg.qmgQcmd_result 0 := by
    simp only [fldKey, Reg.qmgQstage_data, Reg.qmgQcmd_queue, Reg.qmgQcmd_result]
    omega
  exact (getF_setF_ne _ _ hkey.2).trans (getF_setF_ne _ _ hkey.1)

/-- Settles O17. -/
theorem queueCommandsTakeTheirEffect : Obligations.QueueCommandsTakeTheirEffect := by
  intro q s hq
  have hmod : q % 65536 = q := Nat.mod_eq_of_lt hq
  dsimp only
  refine ⟨⟨_, rfl, ?_, ?_, fun i hi => ?_⟩, fun hst => ?_, fun hst => ?_, fun hst hbad => ?_, fun hst hok => ?_, fun hst hbad => ?_,
    fun hst hok htn => ?_, fun hst hok htn => ?_, fun hst => ?_, fun hst => ?_⟩
  · rw [hmod, (getF_qcmdResult _ q 0).1]
    exact Nat.mod_eq_of_lt hq
  · rw [(getF_qcmdResult _ _ 0).2]
    exact Nat.zero_mod _
  · rw [hmod, getF_qcmdResult_stage _ q 0 hi]
    exact getF_foldl_setF (by decide) _ List.nodup_range _ (List.mem_range.mpr hi)
  all_goals simp only [exec, execWriteCtx, execEnable, execClearPred, execDisableAbort, execDisableDrain, hmod]
  · exact ⟨if_pos hst, if_pos hst, if_pos hst, if_neg hst⟩
  · exact ⟨if_pos hst, if_neg (by omega), if_neg (not_not_intro hst)⟩
  · rw [if_neg (not_not_intro hst), hbad]
    rfl
  · rw [if_neg (not_not_intro hst), hok]
    rfl
  · rw [if_neg (not_not_intro hst), hbad]
    rfl
  · rw [if_neg (not_not_intro hst), hok, htn]
    rfl
  · rw [if_neg (not_not_intro hst), hok, htn]
    rfl
  · exact if_pos hst
  · exact if_neg (by omega)

/-! Doorbells (R54 to R56) -/

/-- A doorbell write through a page that answers rings its queue. -/
theorem doorWrite_eq_ringDoor {s : State} {fn page p : Nat} (idx : Nat) (isCq : Bool) (value : Nat) (hopen : bar2Open s fn = true)
    (hpage : doorPage s fn page = some p) : doorWrite s fn page idx isCq value = ringDoor s (p * 64 + idx % 64) fn isCq value := by
  simp [doorWrite, hopen, hpage]

/-- Settles O18. -/
theorem doorbellsMoveAnEnabledQueuesIndexes : Obligations.DoorbellsMoveAnEnabledQueuesIndexes := by
  intro fn page idx value p s hopen hpage
  have hring (isCq : Bool) := doorWrite_eq_ringDoor idx isCq value hopen hpage
  dsimp only
  simp only [exec, execSqTail, execCqHead, hring, ringDoor, if_true, Bool.false_eq_true, if_false]
  refine ⟨fun hst => ⟨congrArg _ (if_pos hst), congrArg _ (if_pos hst)⟩, fun hst => ⟨fun hv hlt => ?_, fun hd => ⟨fun hfit => ?_, fun hover => ?_⟩,
    fun hfit => ?_, fun hover => ?_⟩, fun off bytes hdoor hpair => ⟨?_, dropDoorbell_qmg ..⟩⟩
  · rw [if_neg (not_not_intro hst), hv, Nat.add_sub_cancel_left, Nat.mod_self, if_pos rfl]
  · rw [if_neg (not_not_intro hst), if_neg hd, if_pos hfit]
  · rw [if_neg (not_not_intro hst), if_neg hd, if_neg (Nat.not_le.mpr hover)]
  · rw [if_neg (not_not_intro hst), if_pos hfit]
  · rw [if_neg (not_not_intro hst), if_neg (Nat.not_le.mpr hover)]
  · simp only [execDoorbellWriteDropped, hopen, hdoor, hpair, decide_false, Bool.or_self, Bool.not_true, Bool.false_eq_true, if_false]

/-! Fetch, predicates and interrupts (R57 to R59, R68, R69, R144) -/

/-- Settles O20. -/
theorem descriptorsAreFetchedAndJudged : Obligations.DescriptorsAreFetchedAndJudged := by
  refine ⟨fun hosts s => ⟨fun q hq => ?_, fun hq => ?_⟩, fun uid d s hd => ⟨fun hph => ?_, fun hph hw => ?_⟩,
    fun q t s ht hmod => ⟨_, rfl, advance_nowNs .., ?_⟩⟩
  · simp only [exec, execDescriptorFetch, hq]
  · simp only [exec, execDescriptorFetch, hq]
  · simp only [exec, execPredicateRelease, hd, hph, if_true]
  · simp only [exec, execWaitSlotsCleared, hd, hph, hw, and_self, if_true]
  · simp only [exec, execModerationTimerExpiry, ht, if_neg hmod]

/-! Operators (spec 05, 06) -/

/-- A command whose descriptor was fetched and stands ready takes it as it is. -/
theorem opTake_of_ready {s : State} {code u : Nat} {o : OpCmd} (h : readyDesc s (o.queue % 65536) (opImage code o) = some u) :
    opTake s code o = (some u, s) := by
  simp [opTake, h]

/-- An engine operator runs it. -/
theorem next_runOperator_of_ready {s : State} {code u : Nat} {o : OpCmd} (h : readyDesc s (o.queue % 65536) (opImage code o) = some u) :
    (.next (runOperator s code o) : Out) = .next (runDesc s u o.remote) := by
  simp [runOperator, opTake_of_ready h]

/-- Settles O21. -/
theorem operatorsRunTheirDescriptor : Obligations.OperatorsRunTheirDescriptor := by
  intro o u s
  refine ⟨next_runOperator_of_ready, next_runOperator_of_ready, next_runOperator_of_ready, next_runOperator_of_ready,
    next_runOperator_of_ready, next_runOperator_of_ready, next_runOperator_of_ready, next_runOperator_of_ready, next_runOperator_of_ready,
    next_runOperator_of_ready, next_runOperator_of_ready, next_runOperator_of_ready, next_runOperator_of_ready, next_runOperator_of_ready,
    fun far h => ?_, fun h => ?_, fun h => ?_, fun t tag addr ht => ?_⟩
  · simp only [exec, execScrubRange, opTake_of_ready h]
  · simp only [exec, execPublish, opTake_of_ready h]
  · simp only [exec, execRevoke, revokeBy, opTake_of_ready h]
  · simp only [exec, execRevoke, revokeBy, Nat.mod_eq_of_lt ht]

/-! Commands of the XTU (R176 to R183, R450) -/

/-- A command that passes its checks runs with its completion entry reserved; one that fails one shows why and does nothing else. -/
theorem issueRcmd_eq (s : State) (t tag addr count : Nat) (ok active : Bool) (f : State → State) :
    (rcmdRefusal s ok active = 0 → issueRcmd s t tag addr count ok active f =
      f { rcmd s t tag addr count 0 with xtu := { (rcmd s t tag addr count 0).xtu with ccqResv := (rcmd s t tag addr count 0).xtu.ccqResv + 1 } }) ∧
    (rcmdRefusal s ok active ≠ 0 → issueRcmd s t tag addr count ok active f = rcmd s t tag addr count (rcmdRefusal s ok active)) := by
  unfold issueRcmd
  exact ⟨fun h => by rw [h]; rfl, fun h => if_pos h⟩

/-- Settles O27. -/
theorem translationCommandsTakeTheirEffect : Obligations.TranslationCommandsTakeTheirEffect := by
  refine ⟨fun t tag addr count s ht => ?_, fun epoch n dma v s => ⟨fun hmem hep hnot => ?_, fun rest hv hep hnot => ?_⟩,
    fun tag v s hfind hnot hwait hreqs hbusy => ?_, fun t pva s ht hact hpva hmiss => ?_⟩
  · have hmod : t % 4096 = t := Nat.mod_eq_of_lt ht
    dsimp only
    simp only [exec, execInvalidateRange, execInvalidateTenant, execTableSwap, execResmapClear, hmod]
    exact ⟨⟨fun h => congrArg _ ((issueRcmd_eq ..).1 h), fun h => congrArg _ ((issueRcmd_eq ..).2 h)⟩,
      fun h => congrArg _ ((issueRcmd_eq ..).1 h), fun h => congrArg _ ((issueRcmd_eq ..).1 h), fun h => congrArg _ ((issueRcmd_eq ..).1 h)⟩
  · have hany : s.xtu.invals.any (fun v => v.epoch == epoch && v.toNotify.contains (if dma then Holder.dma n else Holder.engine n)) = true :=
      List.any_eq_true.mpr ⟨v, hmem, by rw [hep, hnot, beq_self_eq_true]; rfl⟩
    exact if_pos hany
  · have hhead : (v.epoch == epoch && v.toNotify.contains (if dma then Holder.dma n else Holder.engine n)) = true := by
      rw [hep, hnot, beq_self_eq_true]; rfl
    have hany : s.xtu.invals.any (fun v => v.epoch == epoch && v.toNotify.contains (if dma then Holder.dma n else Holder.engine n)) = true := by
      rw [hv, List.any_cons, hhead]; rfl
    refine (if_pos hany).trans (congrArg Host.Outcome.next ?_)
    rw [hv, List.takeWhile_cons_of_neg (by simp [hep])]
    simp only [List.map_nil, List.nil_append, List.foldl_cons, List.foldl_nil, noticeOf, hv, List.find?_cons, hhead]
  · simp only [exec, execInvalidationComplete, hfind, hnot, hwait, hreqs, hbusy, ne_eq, not_true_eq_false, Bool.false_eq_true, or_self,
      if_false]
  · simp only [exec, execTranslationMiss, Nat.mod_eq_of_lt ht, hact, Nat.not_le.mpr hpva, hmiss, decide_false, Bool.not_true, Bool.or_self,
      Bool.false_eq_true, if_false]

end Sys2Proof.Queues
end

section
/-!
Proofs of the statements about tiles and engines (spec 04), DMA engines and migrations (spec 09), tenants, publishes and revokes
(spec 02, 08, 17).
-/
namespace Sys2Proof.Engines
open Sys2Proof Sys2Proof.Machine Sys2Proof.HostInterface Sys2Proof.Queues

/-! Tiles (R80 to R88) -/

/-- A ready batch of another node (its queue number lies above the 65,536 queues of this one) with an opcode of no operator, past its first
phase. -/
def strayBatch : Desc :=
  { uid := 1, queue := 65536, raw := 0, opcode := 0, tenant := 0, reqId := 0, phase := .ready, bytesDone := 0, fin := Fin.ok, cls := 0, fathom := 0,
    halfDone := false, resv := 0, slots := [], waits := [], binds := [], pre := ⟨[], []⟩, leaves := [], nextTile := 1, tilesOut := [], tilesOk := [],
    faultTile := 0, touched := [], spread := false, stopping := false, numFlags := 0, acksOut := 0, parts := [], failedWaits := [], charged := false }

/-- The reset state with that batch alone. -/
def strayState : State := { State.reset with qmg := { State.reset.qmg with descs := [strayBatch] } }

/-- The phase of a descriptor in the next state. -/
def phaseAfter (o : Out) (uid : Nat) : Option DPhase :=
  match o with
  | .next t => (descOf t uid).map (·.phase)
  | _ => none

/-- A ready batch that opens is not dispatched as a descriptor of a queue: TILE_DISPATCH runs it, here to a failure that leaves its phase, where
the dispatch of a descriptor would have left it running. -/
theorem tileDispatch_batch_ne :
    exec (.tileDispatch 1 []) strayState ≠ .next (let p := openPhase (opOpen strayState strayBatch []).2 1
      descCheck (sendBatches 256 (p.1.foldl (fun s t => chargeTile s 1 t) p.2) 1) 1) := fun h =>
  absurd (congrArg (phaseAfter · 1) h) (by decide +kernel)

/-- Refutes O22: its clause on TILE_DISPATCH says of every ready descriptor that opens what holds only of those of this node's queues. A ready
tile batch of another node goes through its own checks (R83), so the batch of `strayState` ends in a failure and starts no phase. -/
theorem not_tilesMoveThroughTheirSteps : ¬ Obligations.TilesMoveThroughTheirSteps := by
  rintro ⟨-, hdispatch, -⟩
  exact tileDispatch_batch_ne (hdispatch 1 [] strayBatch strayState rfl rfl rfl)

/-- Refutes O60: its clause on TILE_DISPATCH is the one that O22 makes, and fails for the same ready batch of another node. -/
theorem not_theOrdinaryCaseCompletes : ¬ Obligations.TheOrdinaryCaseCompletes := by
  intro h
  obtain ⟨-, -, -, ⟨-, hdispatch, -⟩, -⟩ := h strayState
  obtain ⟨t, hexec, rfl⟩ := hdispatch 1 [] strayBatch rfl rfl rfl
  exact tileDispatch_batch_ne hexec

/-- A tile that stands at step k takes the step. -/
theorem atStep_of_step {s : State} {uid num k : Nat} {tr : TileRec} {d : Desc} (htr : tileRec s uid num = some tr)
    (hd : descOf s uid = some d) (hk : tr.step = k) (f : State → TileRec → Desc → State) : atStep s uid num k f = f s tr d := by
  simp only [atStep, htr, hd, hk, if_true]

/-! Engines (R93 to R96) -/

/-- Settles O23. -/
theorem enginesLeaveAndReturnToService : Obligations.EnginesLeaveAndReturnToService := by
  refine ⟨fun e s he hstate => ?_, fun uid tile tr d s htr hd hstep => ⟨_, rfl, advance_nowNs _ _, ?_⟩,
    fun e slot s he hact hrng => ?_, fun e env s hbusy he => ?_, fun s => rfl⟩
  · exact if_neg (by omega)
  · exact congrArg Host.Outcome.next (atStep_of_step htr hd hstep _)
  · simp only [exec, execSpareActivated, hact, hrng, Bool.not_true, Bool.false_eq_true, if_false]
    refine ⟨_, rfl, rfl, ?_, ?_⟩
    · rw [setMapSlot, getF_setF_ne, getF_setF_ne, getF_setF_self]
      · rfl
      · simp only [fldKey, Reg.nmeStatus_state, Reg.nmeStatus_phys_slot]; omega
      · simp only [fldKey, Reg.nmeStatus_state, Reg.nmeMap_slot_k]; omega
    · rw [setMapSlot, getF_setF_ne, getF_setF_self]
      simp only [fldKey, Reg.nmeStatus_phys_slot, Reg.nmeMap_slot_k]; omega
  · have hreg : getF (setF s Reg.nmeRetire_engine e) Reg.nmeRetire_engine = e := by rw [getF_setF_self, Nat.mod_eq_of_lt he]
    have hst (h : e ≤ 95) : getF (setF s Reg.nmeRetire_engine e) Reg.nmeStatus_state e = getF s Reg.nmeStatus_state e :=
      getF_setF_ne s e (by simp only [fldKey, Reg.nmeStatus_state, Reg.nmeRetire_engine]; omega)
    simp only [exec, execNmeRetire, hbusy, hreg, Bool.false_eq_true, if_false]
    exact ⟨fun h => if_pos h, fun h h2 => (if_neg (Nat.not_lt.mpr h)).trans (if_pos ((hst h).trans h2)),
      fun h h2 => (if_neg (Nat.not_lt.mpr h)).trans (if_neg (by rw [hst h]; exact h2))⟩

/-! DMA engines (R195 to R206) -/

/-- A failed data read of a channel fails its piece at the address read. -/
theorem hostFail_of_data {s : State} {q : HostRead} {cause : Nat} (st : Status) (hflush : q.flush = false) (he : q.engine < 32) :
    hostFail s q cause st = (let u := if cause = 2 then aerNote s (readFn s q) .completionTimeout else s
      failPiece { u with dma := { u.dma with reads := u.dma.reads.filter (fun x => x.tag ≠ q.tag) } } q.engine q.piece cause ⟨st, q.addr, .iova, 0⟩) := by
  simp only [hostFail, Nat.not_le.mpr he, hflush, Bool.not_false, if_true, if_false]

/-- DMA_PIECE of a running transfer with read window left, whose charge lets it go on, translates the next piece and carries it on. -/
theorem dmaPiece_of_charged {s : State} {e : Nat} {env : NMap Gran} {r : DmaRun} {d : Desc} (hr : nfind s.dma.run e = some r)
    (hd : descOf s r.uid = some d) (hmig : r.mig = none) (hsusp : r.suspended = false) (hfail : r.fail = none)
    (hphase : d.phase = .ready ∨ d.phase = .running) (hahead : r.ahead < pieces d.raw)
    (hroom : c2SrcHost d.raw = true → readsOut s e + (pieceOf d.raw r.ahead).2 ≤ rdWindow s)
    (hcharge : (pieceCharge s e r d (pieceOf d.raw r.ahead).2).1 = true) :
    exec (.dmaPiece e env) s =
      (let u := modDesc (pieceCharge s e r d (pieceOf d.raw r.ahead).2).2 d.uid (fun x => { x with phase := .running })
       let x := pieceXlate (attrib u 4 4 d.tenant) e r.ch r.ahead d
       .next (pieceGo x.2 e r d x.1 env)) := by
  have hph : (d.phase == .ready || d.phase == .running) = true := by
    obtain h | h := hphase <;> rw [h] <;> rfl
  have hwin : (c2SrcHost d.raw && decide (rdWindow s < readsOut s e + (pieceOf d.raw r.ahead).2)) = false := by
    cases hsrc : c2SrcHost d.raw
    · rfl
    · rw [Bool.true_and, decide_eq_false (Nat.not_lt.mpr (hroom hsrc))]
  simp only [exec, execDmaPiece, hr, hd, hmig, hsusp, hfail, hph, hwin, Nat.not_le.mpr hahead, Option.isSome_none, Bool.not_true, decide_false,
    Bool.or_self, Bool.false_eq_true, if_false, hcharge]

/-- Settles O24. -/
theorem dmaEnginesMoveTheirPieces : Obligations.DmaEnginesMoveTheirPieces := by
  refine ⟨fun tag env q s hq => ⟨fun hflush he => ?_, fun bytes hflush => ?_, fun bytes r d hflush he hr hd => ?_⟩,
    fun e c s he hidle hseven hpick => ?_, fun e env r d s hr hd hmig hsusp hfail hphase hahead hroom hcharge => ?_,
    fun tag q s hq => ?_, fun e r s hr hsusp hheld hseven => ?_, fun uid reqId o s ho => ?_⟩
  · simp only [exec, execHostCompletion, execHostCompletionTimeout, hq, hostFail_of_data _ hflush he]
    exact ⟨rfl, rfl, rfl⟩
  · simp only [exec, execHostCompletion, hq, hflush, if_true, Bool.false_eq_true, if_false]
  · have hd' : ∀ m, descOf { s with dma := m } r.uid = some d := fun _ => hd
    simp only [exec, execHostCompletion, hq, hflush, hostData, Nat.not_le.mpr he, hr, hd', Bool.false_eq_true, if_false]
  · dsimp only at hpick ⊢
    simp only [exec, execDmaChannelSelect, hidle, hseven, Nat.not_le.mpr he, Option.map_none, Option.getD_none, Option.isSome_none,
      decide_false, Bool.or_self, Bool.false_and, Bool.false_eq_true, if_false, hpick, startSeven]
  · rw [dmaPiece_of_charged hr hd hmig hsusp hfail hphase hahead hroom hcharge]
    dsimp only
    refine ⟨fun hbad => congrArg Host.Outcome.next (if_pos hbad), fun hdone hwaits hflight hlink hup hmiss => ?_⟩
    refine ⟨fun hsrc => congrArg Host.Outcome.next ?_, fun hsrc => congrArg Host.Outcome.next ?_⟩ <;>
      simp only [pieceGo, hdone, hwaits, hflight, hlink, hup, hmiss, hsrc, ne_eq, not_true_eq_false, Bool.not_true, Bool.false_eq_true, if_false,
        if_true]
  · simp only [exec, execFlushReadComplete, hq]
  · simp only [exec, execDmaSuspendResume, hr, hsusp, hheld, hseven, List.any_nil, Bool.not_true, Option.isSome_none, Bool.or_self,
      Bool.false_eq_true, if_false]
  · simp only [exec, execWriteAcknowledge, ho]

/-! Migrations (R184, R186, R208) -/

/-- Settles O25. -/
theorem migrationsRunAndReport : Obligations.MigrationsRunAndReport := by
  refine ⟨fun ppa iova pasid index s => ⟨fun hoff => ?_, fun hen hbad => ?_, fun hen hppa hiova hown => ⟨fun hfull => ?_, fun hroom => ?_⟩⟩,
    fun e outcome r m s hr hm hroom hout => ?_, fun s => rfl, fun i m s hi hm => ?_, fun s hen => ?_⟩
  · exact if_pos (by rw [hoff]; rfl)
  · simp only [exec, execDmaMigCmd, hen, Bool.not_true, Bool.false_eq_true, if_false]
    exact if_pos hbad
  · simp only [exec, execDmaMigCmd, hen, Bool.not_true, Bool.false_eq_true, if_false]
    exact (if_neg (by rw [hppa, hiova]; simp [hown])).trans (if_pos hfull)
  · simp only [exec, execDmaMigCmd, hen, Bool.not_true, Bool.false_eq_true, if_false]
    exact (if_neg (by rw [hppa, hiova]; simp [hown])).trans (if_neg (Nat.not_le.mpr hroom))
  · have hroom' : ¬ 64 ≤ s.dma.results.length := Nat.not_le.mpr hroom
    obtain ⟨rfl, hfail, hpiece⟩ | ⟨k, c, f, hfail, rfl⟩ := hout <;>
      simp only [exec, execMigrationDone, hr, hm, hfail, hroom', if_false]
    simp only [hpiece, Nat.le_refl, if_true]
  · have hmod : i % 4096 = i := Nat.mod_eq_of_lt hi
    simp only [exec, execXtuMigDone, hmod, hm]
    exact ⟨rfl, rfl, rfl⟩
  · simp only [exec, execMigEnClear, hen, Bool.not_true, Bool.false_eq_true, if_false]
    refine ⟨_, rfl, ?_, rfl, rfl⟩
    rw [getB_setF_ne _ _ (by decide)]
    exact getB_setB_self s Reg.xtuCtl_mig_en false 0 (by decide)

/-! Tenants (R25, R26, R356, R357, R372) -/

/-- Settles O26. -/
theorem tenantsAreCreatedAndRetired : Obligations.TenantsAreCreatedAndRetired := by
  intro t s ht
  have hmod : t % 4096 = t := Nat.mod_eq_of_lt ht
  simp only [exec, execTenantCreate, execKeySlotLoaded, execTenantRetire, execTenantKeyDestroy, hmod]
  refine ⟨fun conf be hfree hcom htab hbe hconf hrng => ?_, fun be hfree hbad => ?_, fun hpend hrng => ?_,
    fun hact => ?_, fun hact => ?_, fun r hr hidle => ?_⟩
  · have hdebug : (conf && getB s Reg.secStatus_debug_granted) = false := by
      cases conf
      · rfl
      · exact (hconf rfl).2
    have hfeat : (conf && !feature s 2) = false := by
      cases conf
      · rfl
      · rw [(hconf rfl).1]; rfl
    have hsr1 : (be && !feature s 1) = false := by
      cases be
      · rfl
      · rw [hbe rfl]; rfl
    have htrng : (needsRandom s t conf && !getB s Reg.secStatus_trng_ok) = false := by
      cases hneed : needsRandom s t conf
      · rfl
      · rw [hrng hneed]; rfl
    rw [if_neg (not_not_intro hfree), if_neg (by rw [hdebug]; exact Bool.false_ne_true),
      if_neg (by rw [hcom, hfeat, htab, hsr1, htrng]; exact Bool.false_ne_true)]
    have hkey : fldKey Reg.xtuTenant0_state t ≠ fldKey Reg.xtuTenant0_sr1_bus_error t ∧ fldKey Reg.xtuTenant0_state t ≠
        fldKey Reg.xtuTenant0_confidential t ∧ fldKey Reg.xtuTenant0_confidential t ≠ fldKey Reg.xtuTenant0_sr1_bus_error t := by
      simp only [fldKey, Reg.xtuTenant0_state, Reg.xtuTenant0_sr1_bus_error, Reg.xtuTenant0_confidential]; omega
    obtain ⟨hsr1key, hconfkey, hboth⟩ := hkey
    refine ⟨_, rfl, ?_, ?_, rfl, rfl⟩
    · exact (getF_setF_ne _ _ hsr1key).trans ((getF_setF_ne _ _ hconfkey).trans (getF_setF_self ..))
    · exact (getB_setF_ne _ _ hboth).trans (getB_setB_self _ _ _ _ (by decide))
  · rw [if_neg (not_not_intro hfree), Bool.false_and, if_neg Bool.false_ne_true]
    refine if_pos ?_
    obtain h | h := hbad <;> simp [h]
  · have htrng : (needsRandom s t (getB s Reg.xtuTenant0_confidential t) && !getB s Reg.secStatus_trng_ok) = false := by
      cases hneed : needsRandom s t (getB s Reg.xtuTenant0_confidential t)
      · rfl
      · rw [hrng hneed]; rfl
    rw [hpend, htrng]
    rfl
  · rw [if_neg (not_not_intro hact)]
    exact ⟨_, _, _, rfl, rfl, rfl⟩
  · exact if_pos hact
  · simp only [hr, hidle, Bool.false_eq_true, if_false]
    refine ⟨_, (apply_ite Host.Outcome.next ..).symm, ?_, ?_, rfl, rfl, ?_⟩
    · exact (getF_setF_self ..).trans (Nat.zero_mod _)
    · refine (getF_setF_ne (f := Reg.xtuTenant0_state) (n := t) (setF s Reg.secSlot_state 0 t) 0 ?_).trans ((getF_setF_self ..).trans (Nat.zero_mod _))
      simp only [fldKey, Reg.secSlot_state, Reg.xtuTenant0_state]; omega
    · simp

/-! Publishes and revokes (R43, R189, R190) -/

/-- Settles O28. -/
theorem publishesAndRevokesEnd : Obligations.PublishesAndRevokesEnd := by
  refine ⟨fun region bound p s hp hwait hdrain => ?_, fun t pva v s ht hv => ⟨fun hfl hdir => ?_, advance_nowNs _ _, ?_⟩⟩
  · have hbusy : ¬ (p.waiting ≠ [] ∨ (p.drain = true ∧ stillBound (learnBound s region bound) region p.replaced = true)) := by
      rintro (h | ⟨hd, hb⟩)
      · exact h hwait
      · rw [hdrain hd] at hb
        exact Bool.false_ne_true hb
    simp only [exec, execPublishComplete, hp]
    exact if_neg hbusy
  · simp only [exec, execRevokeDrainDone, Nat.mod_eq_of_lt ht, hv, hfl, hdir, ne_eq, not_true_eq_false, or_self, if_false]
  · simp only [exec, execRevokeStragglerTimeout, Nat.mod_eq_of_lt ht, hv]
    exact ⟨_, _, rfl, rfl⟩

end Sys2Proof.Engines
end

section
/-!
Proofs of the statements about the fabric's packets, the directory and the router (spec 12, 13, 14).
-/
namespace Sys2Proof.Fabric
open Sys2Proof Sys2Proof.Machine Sys2Proof.HostInterface Sys2Proof.Queues Sys2Proof.Engines

/-! The clock -/

/-- A step that touches registers, TEL's state and the clock alone. -/
def CountsOnly (s t : State) : Prop := ∃ r x n, t = { s with regs := r, tel := x, nowNs := n }

theorem CountsOnly.refl (s : State) : CountsOnly s s := ⟨_, _, _, rfl⟩

theorem CountsOnly.foldl {α : Type} {f : State → α → State} (hf : ∀ {s u} a, CountsOnly s u → CountsOnly s (f u a)) {s u : State}
    (h : CountsOnly s u) (l : List α) : CountsOnly s (l.foldl f u) := by
  induction l generalizing u with
  | nil => exact h
  | cons a l ih => exact ih (hf a h)

theorem CountsOnly.setF {s u : State} (h : CountsOnly s u) (f : Fld) (v n : Nat) : CountsOnly s (Machine.setF u f v n) := by
  obtain ⟨r, x, m, rfl⟩ := h
  exact ⟨_, _, _, rfl⟩

theorem CountsOnly.telAdd {s u : State} (h : CountsOnly s u) (k n : Nat) : CountsOnly s (Machine.telAdd u k n) := by
  unfold Machine.telAdd
  dsimp only
  split
  · exact h.setF ..
  · exact (h.setF ..).setF ..

theorem CountsOnly.telEvent {s u : State} (h : CountsOnly s u) (code inst n : Nat) : CountsOnly s (Machine.telEvent u code inst n) := by
  refine CountsOnly.foldl (fun k h => ?_) h _
  split
  · exact h.telAdd ..
  · exact h

theorem CountsOnly.countTime {s u : State} (h : CountsOnly s u) (d : Nat) : CountsOnly s (Machine.countTime u d) := by
  unfold Machine.countTime
  split
  · exact h
  · have hfrac : CountsOnly s { u with tel := { u.tel with frac := (d * engMHz u + u.tel.frac) % 1000 } } := by
      obtain ⟨r, x, m, rfl⟩ := h
      exact ⟨_, _, _, rfl⟩
    exact CountsOnly.foldl (fun _ h => h.telEvent ..)
      (CountsOnly.foldl (fun _ h => h.telEvent ..) (((hfrac.telEvent ..).telEvent ..).telEvent ..) _) _

/-- The clock's advance counts time, and leaves everything but registers, TEL's state and the clock alone. -/
theorem advance_countsOnly (s : State) (t : Nat) : CountsOnly s (advance s t) := by
  unfold advance
  split
  · exact .refl s
  · obtain ⟨r, x, n, h⟩ := (CountsOnly.refl s).countTime (t - s.nowNs)
    exact ⟨_, _, _, by rw [h]⟩

theorem advance_nie (s : State) (t : Nat) : (advance s t).nie = s.nie := by
  obtain ⟨r, x, n, h⟩ := advance_countsOnly s t
  rw [h]

/-! Requests (R304, R445, R446) -/

/-- A request from an SR2 with a PPA is served by the owner. -/
theorem takeReq_of_owner {s u : State} {port : Nat} {p : Pkt} (harr : arrives s port p = (true, u)) (hsr2 : fromSr2 u port = true)
    (hppa : p.isPpa = true) : takeReq s port p = ownerReq u port p := by
  simp only [takeReq, harr, hsr2, hppa, Bool.not_true, Bool.and_self, Bool.false_eq_true, if_false, if_true]

/-- A request from another sender goes through the entry checks. -/
theorem takeReq_of_entry {s u : State} {port : Nat} {p : Pkt} (harr : arrives s port p = (true, u)) (hsr2 : fromSr2 u port = false) :
    takeReq s port p = entryReq u port (ingressData u port p) := by
  simp only [takeReq, harr, hsr2, Bool.not_true, Bool.false_and, Bool.false_eq_true, if_false]

/-- A request that does not reach the units has the effect of its discard. -/
theorem takeReq_of_discard {s u : State} {port : Nat} {p : Pkt} (harr : arrives s port p = (false, u)) : takeReq s port p = u := by
  simp only [takeReq, harr, Bool.not_false, if_true]

/-- Settles O29. -/
theorem fabricRequestsAreTaken : Obligations.FabricRequestsAreTaken := by
  intro port p env s
  dsimp only
  refine ⟨fun u ha hs hp => congrArg _ (takeReq_of_owner ha hs hp), fun u ha hs hp => congrArg _ (takeReq_of_owner ha hs hp),
    fun u ha hs hp => congrArg _ (takeReq_of_owner ha hs hp), fun u ha hs => congrArg _ (takeReq_of_entry ha hs),
    fun u ha hs => congrArg _ (takeReq_of_entry ha hs), fun u ha hs => congrArg _ (takeReq_of_entry ha hs),
    fun u ha hs hp => congrArg _ (takeReq_of_owner ha hs hp), fun u ha hs hp => congrArg _ (takeReq_of_owner ha hs hp),
    fun u ha hs hp => congrArg _ (takeReq_of_owner ha hs hp), fun u ha hs => congrArg _ (takeReq_of_entry ha hs),
    fun u ha hs => congrArg _ (takeReq_of_entry ha hs), fun u ha hs => congrArg _ (takeReq_of_entry ha hs),
    fun u q v ha hq => ?_, fun u ha => ?_, fun u ha => ?_, fun u ha => ?_, fun u ha => congrArg _ (takeReq_of_discard ha), fun u ha => ?_⟩
  · simp only [exec, execDoorbellPacket, ha, hq, Bool.not_true, Bool.false_eq_true, if_false]
  · simp only [exec, execTileBatch, ha, if_true]
  · simp only [exec, execCmdFwd, ha, if_true]
  · simp only [exec, execSetReq, ha, if_true]
  · simp only [exec, execTileBatch, ha, Bool.false_eq_true, if_false]

/-! Responses (R304, R318, R445) -/

/-- Settles O30. -/
theorem fabricResponsesEndTheirRequest : Obligations.FabricResponsesEndTheirRequest := by
  intro port p s u
  dsimp only
  refine ⟨fun o id ⟨ha, hm⟩ hc => ?_, fun o id ⟨ha, hm⟩ hc => ?_, fun o ⟨ha, hm⟩ hc => ?_, fun o id env ⟨ha, hm⟩ hc => ?_,
    fun o v env ⟨ha, hm⟩ hc hu => ?_, fun o v env ⟨ha, hm⟩ hu => ?_, fun o ⟨ha, hm⟩ => ?_, fun o ⟨ha, hm⟩ => ?_, fun o ⟨ha, hm⟩ => ?_,
    fun ⟨ha, hm⟩ => ?_, fun ⟨ha, hm⟩ => ?_, fun env ⟨ha, hm⟩ => ?_, fun env ⟨ha, hm⟩ => ?_, fun ⟨ha, hm⟩ => ?_, fun ⟨ha, hm⟩ => ?_,
    fun ⟨ha, hm⟩ => ?_, fun ha => ?_, fun ha => ?_, fun ha => ?_⟩
  · simp only [exec, execRdRsp, ha, hm, hc, Bool.not_true, Bool.false_eq_true, if_false]
  · simp only [exec, execWrRsp, ha, hm, hc, Bool.not_true, Bool.false_eq_true, if_false]
  · simp only [exec, execWrRsp, ha, hm, hc, Bool.not_true, Bool.false_eq_true, if_false]
  · simp only [exec, execAtomicRsp, ha, hm, hc, Bool.not_true, Bool.false_eq_true, if_false]
  · simp only [exec, execAtomicRsp, ha, hm, hc, hu, Bool.not_true, Bool.false_eq_true, if_false]
  · simp only [exec, execBatchRsp, ha, hm, hu, Bool.not_true, Bool.false_eq_true, if_false]
  · simp only [exec, execCmdRsp, ha, hm, Bool.not_true, Bool.false_eq_true, if_false]
  · simp only [exec, execSetRsp, ha, hm, Bool.not_true, Bool.false_eq_true, if_false]
  · simp only [exec, execErrRsp, ha, hm, Bool.not_true, Bool.false_eq_true, if_false]
  · simp only [exec, execRdRsp, ha, hm, Bool.not_true, Bool.false_eq_true, if_false, lateRsp]
  · simp only [exec, execWrRsp, ha, hm, Bool.not_true, Bool.false_eq_true, if_false, lateRsp]
  · simp only [exec, execAtomicRsp, ha, hm, Bool.not_true, Bool.false_eq_true, if_false, lateRsp]
  · simp only [exec, execBatchRsp, ha, hm, Bool.not_true, Bool.false_eq_true, if_false, lateRsp]
  · simp only [exec, execCmdRsp, ha, hm, Bool.not_true, Bool.false_eq_true, if_false, lateRsp]
  · simp only [exec, execSetRsp, ha, hm, Bool.not_true, Bool.false_eq_true, if_false, lateRsp]
  · simp only [exec, execErrRsp, ha, hm, Bool.not_true, Bool.false_eq_true, if_false, lateRsp]
  · simp only [exec, execSetWithdraw, ha, Bool.not_true, Bool.false_eq_true, if_false]
  · simp only [exec, execWithdrawAck, ha, Bool.not_true, Bool.false_eq_true, if_false]
  · simp only [exec, execCacheRelease, ha, Bool.not_true, Bool.false_eq_true, if_false]

/-! Flows, jobs and timers (R313, R316, R318, R320) -/

theorem rcSweep_nowNs (s : State) : (rcSweep s).nowNs = s.nowNs := rfl

theorem rcSweep_nie (s : State) :
    (rcSweep s).nie = { s.nie with rc := s.nie.rc.filter (fun e => decide (s.nowNs < e.writtenNs + rcLifeNs)) } := rfl

/-- An entry that has reached the end of its life does not stay. -/
theorem not_mem_rcSweep {s : State} {e : RcEnt} (h : e.writtenNs + rcLifeNs ≤ s.nowNs) : e ∉ (rcSweep s).nie.rc := fun hmem =>
  absurd (of_decide_eq_true (List.mem_filter.mp hmem).2) (Nat.not_lt.mpr h)

/-- Settles O31. -/
theorem flowsAndJobsTakeTheirEffect : Obligations.FlowsAndJobsTakeTheirEffect := by
  refine ⟨fun f j src s hf hj => ?_, fun f x s hx => ?_, fun tenant reqId e s he => ?_,
    fun dst tenant reqId o s ho => ⟨_, rfl, advance_nowNs _ _, ?_⟩⟩
  · have hfm : f % 65536 = f := Nat.mod_eq_of_lt hf
    have hjm : j % 4096 = j := Nat.mod_eq_of_lt hj
    simp only [exec, execNieFlowOpen, execNieFlowClose, hfm, hjm]
    refine ⟨fun h => ?_, fun h0 hnone hjob => ?_, fun h0 hnone hjob => ?_, fun h => ?_, fun h0 hsome => ⟨_, rfl, ?_⟩,
      fun tenant ranks ppa hjob => ?_, fun tenant ranks ppa hjob => ?_⟩
    · exact if_pos (h.imp_right Option.isSome_iff_ne_none.mpr)
    · simp only [h0, hnone, hjob, Option.isSome_none, Bool.false_eq_true, or_self, if_false, Bool.not_false, if_true]
    · simp only [h0, hnone, hjob, Option.isSome_none, Bool.false_eq_true, or_self, if_false, Bool.not_true]
    · exact if_pos (h.imp_right Option.isNone_iff_eq_none.mpr)
    · exact if_neg (not_or_intro h0 (fun h => hsome (Option.isNone_iff_eq_none.mp h)))
    · rw [execJobBind, if_neg (by rw [hjob, not_or]; exact ⟨Nat.not_le.mpr hj, Bool.false_ne_true⟩)]
      refine ⟨_, rfl, getB_setB_self _ _ _ _ (by decide), ?_, ?_, ?_, rfl⟩
      · rw [setB, getF_setF_ne, getF_setF_ne, getF_setF_ne, getF_setF_self] <;>
          simp only [fldKey, Reg.nieJob0_valid, Reg.nieJob0_tenant, Reg.nieJob4_rank_count, Reg.nieJob8_rank_ppa] <;> omega
      · rw [setB, getF_setF_ne, getF_setF_ne, getF_setF_self] <;>
          simp only [fldKey, Reg.nieJob0_valid, Reg.nieJob4_rank_count, Reg.nieJob8_rank_ppa] <;> omega
      · rw [setB, getF_setF_ne, getF_setF_self]
        simp only [fldKey, Reg.nieJob0_valid, Reg.nieJob8_rank_ppa]; omega
    · exact if_pos (.inr hjob)
  · simp only [exec, execFlowRelease, hx]
  · have hexec : exec (.replayCacheExpiry tenant reqId) s = .next (rcSweep (advance s (e.writtenNs + rcLifeNs))) := by
      simp only [exec, execReplayCacheExpiry, he]
    have hnow : (rcSweep (advance s (e.writtenNs + rcLifeNs))).nowNs = max s.nowNs (e.writtenNs + rcLifeNs) := by
      rw [rcSweep_nowNs, advance_nowNs]
    refine ⟨_, hexec, hnow, ?_, ?_⟩
    · rw [rcSweep_nie, rcSweep_nowNs, advance_nie]
    · exact not_mem_rcSweep (by rw [advance_nowNs]; exact Nat.le_max_right ..)
  · simp only [exec, execCompletionTimeout, ho]

/-! The directory (R261 to R279) -/

/-- Settles O32. -/
theorem directoryMessagesTakeTheirEffect : Obligations.DirectoryMessagesTakeTheirEffect := by
  intro port p s u
  dsimp only
  refine ⟨fun a v ⟨ha, hs⟩ => ?_, fun a v e ⟨ha, hs⟩ he => ⟨fun hst => ?_, fun hst hown => ?_⟩, fun a v ⟨ha, hs⟩ ht => ?_,
    fun a v t ⟨ha, hs⟩ ht hsnp => ?_, fun a v t ⟨ha, hs⟩ ht hcomp hag => ?_, fun v ⟨ha, hs⟩ => ?_, fun v ⟨ha, hs⟩ => ?_, fun v ⟨ha, hs⟩ => ?_,
    fun v ⟨ha, hs⟩ hag => ?_⟩
  · simp only [exec, execWbData, ha, hs, Bool.not_true, Bool.false_eq_true, if_false]
  · simp only [exec, execEvictClean, ha, hs, he, hst, Bool.not_true, Bool.false_eq_true, if_false]
  · simp only [exec, execEvictClean, ha, hs, he, hst, hown, Bool.not_true, Bool.false_eq_true, if_false, if_true]
  · simp only [exec, execSnpRsp, ha, hs, ht, Bool.not_true, Bool.false_eq_true, if_false]
  · simp only [exec, execSnpRsp, ha, hs, ht, hsnp, Bool.not_true, Bool.false_eq_true, if_false, if_true]
  · simp only [exec, execCompAck, ha, hs, ht, hcomp, hag, beq_self_eq_true, Bool.and_self, Bool.not_true, Bool.false_eq_true, if_false, if_true]
  · simp only [exec, execEvictClean, ha, hs, Bool.not_true, Bool.false_eq_true, if_false]
  · simp only [exec, execSnpRsp, ha, hs, Bool.not_true, Bool.false_eq_true, if_false]
  · simp only [exec, execCompAck, ha, hs, Bool.not_true, Bool.false_eq_true, if_false]
  · have hsome : (agentOf u p.src).isNone = false := Option.isNone_eq_false_iff.mpr (Option.isSome_iff_ne_none.mpr hag)
    simp only [exec, execWbData, ha, hs, hsome, Bool.not_true, Bool.false_eq_true, if_false]

/-- The reset state with a new N pending for the arbiters of the directory's banks, and one grant counted in bank 0. -/
def pendingArbN : State :=
  setShadow { State.reset with dir := { State.reset.dir with arbs := [(0, { arb0 with cnt := 1 })] } } Reg.dirCtl_arb_n 20 0

/-- The grant count of bank 0's arbiter in the next state. -/
def bankGrants (o : Out) : Option Nat :=
  match o with
  | .next t => some (ngetD arb0 t.dir.arbs 0).cnt
  | _ => none

/-- Refutes O33: DIR_COMMIT does more than bring pending values into force. Where a new N of the banks' arbiters is pending (`pendingArbN`), it
also resets their grant counters (R229). -/
theorem not_directoryTimersAndCommandsTakeTheirEffect : ¬ Obligations.DirectoryTimersAndCommandsTakeTheirEffect := by
  rintro ⟨-, -, -, -, -, hcommit⟩
  have hcount := congrArg bankGrants (hcommit pendingArbN)
  exact absurd hcount (by decide +kernel)

/-! The router (R303 to R312) -/

/-- The half and destination written to ROUTER_TBL_ADDR read back, and the table's halves stay in their states. -/
theorem tblAddr_written (s : State) (half : Bool) {d : Nat} (hd : d < 2 ^ Reg.routerTblAddr_dest.width) :
    let u := setF (setB s Reg.routerTblAddr_half half) Reg.routerTblAddr_dest d
    getF u Reg.routerTblAddr_dest = d ∧ getB u Reg.routerTblAddr_half = half ∧ ∀ b, halfState u b = halfState s b := by
  refine ⟨?_, ?_, fun b => ?_⟩
  · rw [getF_setF_self, Nat.mod_eq_of_lt hd]
  · rw [getB_setF_ne _ _ (by decide), getB_setB_self _ _ _ _ (by decide)]
  · rw [halfState, halfState, setB, getF_setF_ne _ _ (by decide), getF_setF_ne _ _ (by decide), getF_setF_ne _ _ (by decide),
      getF_setF_ne _ _ (by decide)]

/-- Settles O34. -/
theorem routerCommandsTakeTheirEffect : Obligations.RouterCommandsTakeTheirEffect := by
  refine ⟨fun port p r s hport hst hvc hnew hr => ?_, fun id r s hr hsent hout => ?_, fun half d v s hd => ?_,
    fun port p s u ha => ⟨fun h => ?_, fun h => ?_, fun h => ?_⟩, fun d s hd hold => ?_, fun s => rfl⟩
  · simp only [exec, execPacketHeaderArrival, hnew, hst, hr, Nat.not_le.mpr hport, Nat.not_le.mpr hvc, ne_eq, not_true_eq_false, or_self,
      if_false]
  · simp only [exec, execHeaderHoldTimeout, hr, hsent, hout, Option.any_none, ne_eq, not_true_eq_false, Bool.false_eq_true, or_self, if_false]
  · obtain ⟨hdest, hhalf, hstate⟩ := tblAddr_written s half hd
    refine ⟨setF (setB s Reg.routerTblAddr_half half) Reg.routerTblAddr_dest d, rfl, hdest, hhalf, fun hbusy => congrArg Host.Outcome.next ?_, fun hidle => congrArg Host.Outcome.next ?_⟩
    · rw [tblWrite, hhalf, hstate, if_pos hbusy]
    · rw [tblWrite, hhalf, hstate, if_neg (not_not_intro hidle), hdest]
  · simp only [exec, execEpochFlip, ha, h, Bool.not_true, Bool.false_eq_true, if_false, if_true]
  · simp only [exec, execEpochFlip, ha, h, Bool.not_true, Bool.false_eq_true, if_false, if_true]
    exact if_neg (by decide)
  · simp only [exec, execEpochFlip, ha, h, Bool.not_true, Bool.false_eq_true, if_false]
    exact (if_neg (by decide)).trans (if_neg (by decide))
  · have hnone : (List.range 14).any (fun p => decide (oldCount (advance s d.1) p ≠ 0)) = false :=
      List.any_eq_false.mpr fun p hp => by simp [hold p (List.mem_range.mp hp)]
    simp only [exec, execEpochRetire, hd, hnone, Bool.false_eq_true, if_false]

end Sys2Proof.Fabric
end

section
/-!
Proofs of the statements about the fabric's ports and link keys and about admission (spec 13, 15, 17).
-/
namespace Sys2Proof.Links
open Sys2Proof Sys2Proof.Machine Sys2Proof.HostInterface Sys2Proof.Queues Sys2Proof.Engines Sys2Proof.Fabric

/-! Frames (R281 to R288, R294) -/

/-- A command of an ACTIVE port of the twelve runs. -/
theorem active_guard {p : Nat} {s : State} (hp : p < 12) (hst : portState s p = 4) : ¬ (12 ≤ p ∨ portState s p ≠ 4) := by
  rw [not_or]
  exact ⟨Nat.not_le.mpr hp, not_not_intro hst⟩

/-- Settles O35. -/
theorem linkFramesAndRepliesTakeTheirEffect : Obligations.LinkFramesAndRepliesTakeTheirEffect := by
  intro p s hp
  refine ⟨fun hst => ⟨fun hl => ?_, fun r hl hr => ?_, fun hl hr => ?_⟩, fun corr f hst hbad => ?_, fun corr f hst => ?_,
    fun corr f hst hcrc hform hack hseq hlctl hst' hexp => ?_, fun n hst => ?_, fun hst hne => ⟨advance_nowNs _ _, ?_⟩, ?_,
    fun stamp hst => ⟨?_, ?_, ?_⟩, fun t ht => ?_⟩
  · have hl' : (portAt (updXoff s p) p).lctl.isEmpty = false := List.isEmpty_eq_false_iff.mpr hl
    simp only [exec, execFrameTransmit, active_guard hp hst, if_false, hl', Bool.not_false, if_true]
  · have hl' : (portAt (updXoff s p) p).lctl.isEmpty = true := List.isEmpty_iff.mpr hl
    simp only [exec, execFrameTransmit, active_guard hp hst, if_false, hl', Bool.not_true, Bool.false_eq_true, hr]
  · have hl' : (portAt (updXoff s p) p).lctl.isEmpty = true := List.isEmpty_iff.mpr hl
    simp only [exec, execFrameTransmit, active_guard hp hst, if_false, hl', Bool.not_true, Bool.false_eq_true, hr]
  · have hbad' : (crc32 (frameBytes f) != f.crc || !frameForm f) = true := by
      obtain h | h := hbad
      · rw [bne_iff_ne.mpr h, Bool.true_or]
      · rw [h, Bool.not_false, Bool.or_true]
    simp only [exec, execFrameReceive, active_guard hp hst, if_false, Bool.false_eq_true, Bool.false_or, hbad', if_true]
  · simp only [exec, execFrameReceive, active_guard hp hst, if_false, Bool.true_or, if_true]
  · have hbehind : ((portAt (modPort (bump s Reg.fptFecCorr_count corr p) p (fun q => { q with xoffIn := f.xoff % 32 })) p).exp + 4096 - f.seq % 4096)
        % 4096 = 0 := by rw [hexp]; omega
    simp only [exec, execFrameReceive, active_guard hp hst, if_false, Bool.false_eq_true, hcrc, hform, hack, hlctl, List.foldl_nil, hseq, hst',
      bne_self_eq_false, Bool.not_true, Bool.or_self, ne_eq, not_true_eq_false, or_self, hbehind, if_true, if_false]
  · exact if_neg (active_guard hp hst)
  · have hne' : (portAt s p).replay.isEmpty = false := List.isEmpty_eq_false_iff.mpr hne
    simp only [exec, execReplayTimeout, Nat.not_le.mpr hp, hst, hne', ne_eq, not_true_eq_false, Bool.false_eq_true, or_self, if_false]
  · exact if_neg (Nat.not_le.mpr hp)
  · exact if_neg (active_guard hp hst)
  · exact if_neg (active_guard hp hst)
  · exact if_neg (active_guard hp hst)
  · simp only [exec, execReplayReqResendTimeout, ht, Nat.not_le.mpr hp, if_false]

/-! Training (R293 to R297) -/

theorem portAt_modPort (s : State) (p : Nat) (f : PortState → PortState) : portAt (modPort s p f) p = f (portAt s p) :=
  ngetD_nset_self ..

theorem getF_modPort (s : State) (p : Nat) (f : PortState → PortState) (g : Fld) (m : Nat) : getF (modPort s p f) g m = getF s g m := rfl

theorem getB_modPort (s : State) (p : Nat) (f : PortState → PortState) (g : Fld) (m : Nat) : getB (modPort s p f) g m = getB s g m := rfl

/-- A port enters a state. -/
theorem portState_enter (s : State) (p v : Nat) (f : PortState → PortState) :
    portState (modPort (setF s Reg.fptStatus_state v p) p f) p = v % 2 ^ Reg.fptStatus_state.width := by
  rw [portState, getF_modPort, getF_setF_self]

theorem freeFrames_nowNs (s : State) (p n : Nat) : (freeFrames s p n).nowNs = s.nowNs := by
  unfold freeFrames
  split <;> rfl

/-- Settles O36. -/
theorem portsTrainAndGoDown : Obligations.PortsTrainAndGoDown := by
  intro p s hp
  have hp' : ¬ 12 ≤ p := Nat.not_le.mpr hp
  have henable (b : Bool) : portState (setB s Reg.fptCtl_enable b p) p = portState s p :=
    getF_setF_ne s (b2n b) (by simp only [fldKey, Reg.fptStatus_state, Reg.fptCtl_enable]; omega)
  refine ⟨fun hst => ?_, fun hst => ⟨?_, fun hst' => ?_⟩, fun hst => ?_, fun hst => ?_, fun lane hlane => ⟨?_, fun hst hlim => ?_⟩, fun hst => ?_,
    fun ok hst => ?_, fun c hst => ?_, fun c hst => ⟨fun hpeer => ?_, fun v hnode hport hsr2 hreg => ?_⟩, fun hst => ?_, fun hst hauto => ?_⟩
  · have hst' : ¬ portState (setB s Reg.fptCtl_enable true p) p ≠ 0 := by rw [henable]; exact not_not_intro hst
    simp only [exec, execPortEnable, hp', if_false, portEnable]
    rw [if_neg hst']
    refine ⟨_, rfl, portState_enter .., ?_, rfl, rfl⟩
    rw [getB_modPort, getB_setF_ne, getB_setB_self _ _ _ _ (by decide)]
    simp only [fldKey, Reg.fptStatus_state, Reg.fptCtl_enable]; omega
  · simp only [exec, execPortEnable, hp', if_false, portEnable]
    rw [if_pos (by rw [henable]; exact hst)]
  · simp only [exec, execPortDisable, hp', if_false, portDisable]
    rw [if_neg hst']
  · simp only [exec, execPortRetrain, hp', if_false, portRetrain, hst, ne_eq, not_true_eq_false]
  · simp only [exec, execPortRetrain, hp', if_false, portRetrain, hst, ne_eq, not_false_eq_true, if_true]
  · simp only [exec, execLossOfSignal, hp', hlane, Bool.not_true, Bool.false_eq_true, or_self, if_false]
  · simp only [exec, execLaneErrorLimit, hp', hst, hlim, hlane, Bool.not_true, Bool.false_eq_true, ne_eq, not_true_eq_false, or_self, if_false]
  · simp only [exec, execDetectSignal, hp', hst, ne_eq, not_true_eq_false, or_self, if_false]
    refine ⟨_, rfl, portState_enter .., ?_, ?_, by rw [portAt_modPort]; rfl⟩
    · rw [getF_modPort, setB, setB, getF_setF_ne, getF_setF_ne, getF_setF_ne, getF_setF_ne, getF_setF_ne, getF_setF_ne, getF_setF_self,
        Nat.zero_mod] <;>
        simp only [fldKey, Reg.fptLane_rx_failed, Reg.fptLane_tx_failed, Reg.fptStatus_rx_spare_for, Reg.fptStatus_tx_spare_for,
          Reg.fptStatus_rx_x4, Reg.fptStatus_tx_x4, Reg.fptStatus_state] <;> omega
    · rw [getF_modPort, setB, setB, getF_setF_ne, getF_setF_ne, getF_setF_ne, getF_setF_ne, getF_setF_ne, getF_setF_self, Nat.zero_mod] <;>
        simp only [fldKey, Reg.fptLane_tx_failed, Reg.fptStatus_rx_spare_for, Reg.fptStatus_tx_spare_for,
          Reg.fptStatus_rx_x4, Reg.fptStatus_tx_x4, Reg.fptStatus_state] <;> omega
  · simp only [exec, execTrainDone, hp', hst, ne_eq, not_true_eq_false, or_self, if_false]
    refine ⟨_, rfl, ?_, by rw [portAt_modPort]⟩
    refine (portState_enter ..).trans (Nat.mod_eq_of_lt ?_)
    split <;> decide
  · simp only [exec, execConfigDone, hp', hst, ne_eq, not_true_eq_false, or_self, if_false]
  · have hsame : (getF s Reg.fptPeer_node p == c.node) = false := beq_false_of_ne hpeer
    simp only [exec, execRetrainDone, hp', hst, hsame, Bool.false_and, Bool.not_false, Bool.true_or, if_true, ne_eq, not_true_eq_false, or_self,
      if_false]
  · intro d hd henc hreq hrun
    have hsame : (getF s Reg.fptPeer_node p == c.node && getF s Reg.fptPeer_port p == c.port && getB s Reg.fptPeer_sr2 p == c.sr2) = true := by
      rw [hnode, hport, hsr2, beq_self_eq_true, beq_self_eq_true, beq_self_eq_true]; rfl
    have hlen : decide ((portAt s p).replay.length < (c.expected % 4096 + 4096 - oldestNum (portAt s p)) % 4096) = false :=
      decide_eq_false (Nat.not_lt.mpr hd)
    refine ⟨_, rfl, ?_⟩
    simp only [exec, execRetrainDone, hp', hst, ne_eq, not_true_eq_false, or_self, if_false, hsame, hreg, hlen, Bool.or_self,
      Bool.not_true, henc, hreq, Bool.false_and, Bool.false_eq_true, hrun, freeFrames_nowNs, setB_nowNs, setF_nowNs, d]
  · simp only [exec, execRetrainTimeout, hp', hst, ne_eq, not_true_eq_false, or_self, if_false]
  · simp only [exec, execAutoUpTimer, hp', hst, hauto, Bool.not_true, Bool.false_eq_true, ne_eq, not_true_eq_false, or_self, if_false]
    exact ⟨_, rfl, portState_enter .., by rw [modPort_nowNs, setF_nowNs, advance_nowNs]⟩

/-! Key changes (R360 to R362) -/

/-- Settles O37. -/
theorem linkKeysAreChanged : Obligations.LinkKeysAreChanged := by
  intro p s hp
  have hp' : ¬ 12 ≤ p := Nat.not_le.mpr hp
  have hmod : p % 16 = p := Nat.mod_eq_of_lt (by omega)
  refine ⟨fun henc hcnt => ?_, fun henc hcnt hms => ?_, fun tag hroom => ?_, fun tag hfull => ⟨?_, ?_⟩, fun tag q hq hq16 => ⟨?_, ?_⟩,
    fun tag hroom => ?_, fun k hk hst hrekey hrep hseg => ?_⟩
  · simp only [exec, execRekeyTimer, hp', henc, Bool.not_true, Bool.false_eq_true, or_self, if_false]
    exact if_pos hcnt
  · simp only [exec, execRekeyTimer, hp', henc, Bool.not_true, Bool.false_eq_true, or_self, if_false]
    exact (if_neg (Nat.not_le.mpr hcnt)).trans (if_neg hms)
  · simp only [exec, execLinkRekey, linkRekey, hmod, hp', hroom, Bool.not_true, Bool.false_eq_true, if_false, ne_eq, not_true_eq_false]
  · simp only [exec, execLinkRekey, linkRekey, hmod, hp', hfull, Bool.not_false, if_false, if_true, ne_eq]
    rfl
  · simp only [exec, execPairSet, pairSet, hmod, hp', hfull, Bool.not_false, if_false, if_true, ne_eq]
    rfl
  · simp only [exec, execLinkRekey, linkRekey, Nat.mod_eq_of_lt hq16, hq, if_true, ne_eq]
    rfl
  · simp only [exec, execPairSet, pairSet, Nat.mod_eq_of_lt hq16, hq, if_true, ne_eq]
    rfl
  · simp only [exec, execPairSet, pairSet, hmod, hp', hroom, Bool.not_true, Bool.false_eq_true, if_false, ne_eq, not_true_eq_false]
    rfl
  · have hrep' : (portAt s p).replay.isEmpty = true := List.isEmpty_iff.mpr hrep
    simp only [exec, execKeyPhaseSwitch, hk, hp', hst, hrekey, hrep', hseg, ne_eq, not_true_eq_false, Bool.not_true, Bool.false_eq_true, or_self,
      if_false]
    rfl

/-! Admission (R322, R326 to R328, R331) -/

/-- The staged parameters of a bucket in the registers. -/
def stageBkt (s : State) (rate gust ovh target limit : Nat) (mode : Bool) : State :=
  setB (setF (setF (setF (setF (setF s Reg.admBktRate_rate rate) Reg.admBktGust_gust gust) Reg.admBktCfg_overhead ovh)
    Reg.admBktCfg_target_us target) Reg.admBktCfg_limit_us limit) Reg.admBktCfg_reset_mode mode

/-- Staged parameters read back at their widths. -/
theorem stageBkt_reads (s : State) (rate gust ovh target limit : Nat) (mode : Bool) :
    let u := stageBkt s rate gust ovh target limit mode
    getF u Reg.admBktRate_rate = rate % 2 ^ Reg.admBktRate_rate.width ∧ getF u Reg.admBktGust_gust = gust % 2 ^ Reg.admBktGust_gust.width ∧
    getF u Reg.admBktCfg_overhead = ovh % 2 ^ Reg.admBktCfg_overhead.width ∧
    getF u Reg.admBktCfg_target_us = target % 2 ^ Reg.admBktCfg_target_us.width ∧
    getF u Reg.admBktCfg_limit_us = limit % 2 ^ Reg.admBktCfg_limit_us.width ∧ getB u Reg.admBktCfg_reset_mode = mode := by
  refine ⟨?_, ?_, ?_, ?_, ?_, getB_setB_self _ _ _ _ (by decide)⟩
  · rw [stageBkt, setB, getF_setF_ne _ _ (by decide), getF_setF_ne _ _ (by decide), getF_setF_ne _ _ (by decide),
      getF_setF_ne _ _ (by decide), getF_setF_ne _ _ (by decide), getF_setF_self]
  · rw [stageBkt, setB, getF_setF_ne _ _ (by decide), getF_setF_ne _ _ (by decide), getF_setF_ne _ _ (by decide),
      getF_setF_ne _ _ (by decide), getF_setF_self]
  · rw [stageBkt, setB, getF_setF_ne _ _ (by decide), getF_setF_ne _ _ (by decide), getF_setF_ne _ _ (by decide), getF_setF_self]
  · rw [stageBkt, setB, getF_setF_ne _ _ (by decide), getF_setF_ne _ _ (by decide), getF_setF_self]
  · rw [stageBkt, setB, getF_setF_ne _ _ (by decide), getF_setF_self]

/-- A component level fits its four bits. -/
theorem fathomLevel_lt (sum w : Nat) : fathomLevel sum w < 16 := by
  unfold fathomLevel
  omega

/-- A step that touches registers alone. -/
def RegsOnly (s t : State) : Prop := ∃ r, t = { s with regs := r }

theorem RegsOnly.refl (s : State) : RegsOnly s s := ⟨_, rfl⟩

theorem RegsOnly.setF {s u : State} (h : RegsOnly s u) (f : Fld) (v n : Nat) : RegsOnly s (Machine.setF u f v n) := by
  obtain ⟨r, rfl⟩ := h
  exact ⟨_, rfl⟩

theorem RegsOnly.eq {s t : State} (h : RegsOnly s t) : t = { s with regs := t.regs } := by
  obtain ⟨r, rfl⟩ := h
  rfl

theorem stageBkt_regsOnly (s : State) (rate gust ovh target limit : Nat) (mode : Bool) :
    RegsOnly s (stageBkt s rate gust ovh target limit mode) :=
  ((((((RegsOnly.refl s).setF ..).setF ..).setF ..).setF ..).setF ..).setF ..

/-- A READ of a bucket below 5120 shows its parameters and its level. -/
theorem bktRead_of_lt (s : State) {k : Nat} (hk : k < 5120) : bktRead s k =
    setF (stageBkt (bktResult s k 0) (bktAt s k).rate (bktAt s k).gust (bktAt s k).ovh (bktAt s k).target (bktAt s k).limit (bktAt s k).resetMode)
      Reg.admBktLevel_level ((bktLevel (bktAt s k) s.nowNs / (lvlUnit : Int)) % (2 ^ 48 : Int)).toNat := by
  simp only [bktRead, Nat.mod_eq_of_lt (show k < 8192 by omega), Nat.not_le.mpr hk, if_false]
  rfl

theorem emod_toNat_lt (x : Int) (n : Nat) : (x % (2 ^ n : Int)).toNat < 2 ^ n := by
  have hpos : (0 : Int) < 2 ^ n := Int.pow_pos (by decide)
  have hlt := Int.emod_lt_of_pos x hpos
  rw [Int.toNat_lt (Int.emod_nonneg _ (Int.ne_of_gt hpos))]
  exact_mod_cast hlt

/-- Settles O38. -/
theorem admissionCommandsTakeTheirEffect : Obligations.AdmissionCommandsTakeTheirEffect := by
  refine ⟨fun h e hs pos s hhold hpos hfind => ?_, fun h hs s hredo => ?_, fun k s hk => ?_, fun k s hlo hhi => ?_,
    fun k rate gust ovh target limit mode s hk hrate hgust hovh htarget hlimit => ?_, fun u s => ?_⟩
  · simp only [exec, execAdmRelease, hhold, hpos, Option.bind_some, hfind]
  · simp only [exec, execAdmRedecide, hredo]
  · have hread := bktRead_of_lt s hk
    refine ⟨_, rfl, ?_, ?_, ?_, ?_⟩
    · obtain ⟨r, h⟩ := stageBkt_regsOnly (bktResult s k 0) (bktAt s k).rate (bktAt s k).gust (bktAt s k).ovh (bktAt s k).target (bktAt s k).limit
        (bktAt s k).resetMode
      rw [hread, h]
      rfl
    · rw [hread, getF_setF_ne _ _ (by decide)]
      exact (stageBkt_reads ..).1
    · rw [hread, getF_setF_ne _ _ (by decide)]
      exact (stageBkt_reads ..).2.1
    · rw [hread, getF_setF_self]
      exact Nat.mod_eq_of_lt (emod_toNat_lt _ 48)
  · simp only [exec, execAdmBktRead, bktRead, Nat.mod_eq_of_lt hhi, hlo, if_true]
  · obtain ⟨h1, h2, h3, h4, h5, h6⟩ := stageBkt_reads s rate gust ovh target limit mode
    rw [Nat.mod_eq_of_lt hrate] at h1
    rw [Nat.mod_eq_of_lt hgust] at h2
    rw [Nat.mod_eq_of_lt hovh] at h3
    rw [Nat.mod_eq_of_lt htarget] at h4
    rw [Nat.mod_eq_of_lt hlimit] at h5
    refine ⟨bktResult (stageBkt s rate gust ovh target limit mode) k 0, ?_, (((stageBkt_regsOnly ..).setF ..).setF ..).eq⟩
    change Host.Outcome.next (bktWrite (stageBkt s rate gust ovh target limit mode) k) = _
    rw [bktWrite, Nat.mod_eq_of_lt (show k < 8192 by omega), if_neg (Nat.not_le.mpr hk), h1, h2, h3, h4, h5, h6]
    rfl
  · refine ⟨_, rfl, rfl, ?_, ?_⟩
    · rw [getF_setF_ne _ _ (by decide), getF_setF_ne _ _ (by decide), getF_setF_ne _ _ (by decide), getF_setF_self]
      exact Nat.mod_eq_of_lt (fathomLevel_lt ..)
    · rw [getF_setF_ne _ _ (by decide), getF_setF_self]
      exact Nat.mod_eq_of_lt (Nat.lt_of_le_of_lt (Nat.min_le_left ..) (by decide))

end Sys2Proof.Links
end

section
/-!
Proofs of the statements about the memory controllers and data integrity (spec 10, 11).
-/
namespace Sys2Proof.Stacks
open Sys2Proof Sys2Proof.Machine Sys2Proof.HostInterface Sys2Proof.Queues Sys2Proof.Engines Sys2Proof.Fabric Sys2Proof.Links

/-! TEL's counters -/

/-- A field that begins where no counter of TEL keeps its value or its overflow mark. -/
def OffCounters (f : Fld) (n : Nat) : Prop := fldKey f n % 64 ≠ 0 ∧ fldKey f n % 64 ≠ 48

theorem getF_telAdd {f : Fld} {n : Nat} (h : OffCounters f n) (s : State) (k d : Nat) : getF (telAdd s k d) f n = getF s f n := by
  obtain ⟨h0, h48⟩ := h
  have hval : fldKey f n ≠ fldKey Reg.telCnt_value k := fun he => by
    rw [he] at h0; simp only [fldKey, Reg.telCnt_value] at h0; omega
  have hovf : fldKey f n ≠ fldKey Reg.telCnt_overflow k := fun he => by
    rw [he] at h48; simp only [fldKey, Reg.telCnt_overflow] at h48; omega
  unfold telAdd
  dsimp only
  split
  · exact getF_setF_ne _ _ hval
  · exact (getF_setF_ne _ _ hval).trans (getF_setF_ne _ _ hovf)

/-- A fold of steps that each keep a field keeps it. -/
theorem getF_foldl {α : Type} {f : Fld} {n : Nat} {g : State → α → State} (h : ∀ s a, getF (g s a) f n = getF s f n) (l : List α) (s : State) :
    getF (l.foldl g s) f n = getF s f n := by
  induction l generalizing s with
  | nil => rfl
  | cons a l ih => rw [List.foldl_cons, ih, h]

theorem getF_telEvent {f : Fld} {n : Nat} (h : OffCounters f n) (s : State) (code inst d : Nat) :
    getF (telEvent s code inst d) f n = getF s f n := by
  refine getF_foldl (fun s k => ?_) _ s
  split
  · exact getF_telAdd h ..
  · rfl

/-- A field off TEL's counters reads as before when the clock advances. -/
theorem getF_advance {f : Fld} {n : Nat} (h : OffCounters f n) (s : State) (t : Nat) : getF (advance s t) f n = getF s f n := by
  unfold advance
  split
  · rfl
  · change getF (countTime s (t - s.nowNs)) f n = _
    unfold countTime
    split
    · rfl
    · refine (getF_foldl (fun s x => getF_telEvent h ..) _ _).trans ((getF_foldl (fun s x => getF_telEvent h ..) _ _).trans ?_)
      rw [getF_telEvent h, getF_telEvent h, getF_telEvent h]
      rfl

/-! Memory controllers (R211, R219 to R231, R253) -/

/-- u is s at the end of a bank's refresh interval. -/
def RefreshDue (s u : State) (st k : Nat) : Prop :=
  (nfind s.smc.lastRefresh k = none ∧ u = s) ∨ ∃ t, nfind s.smc.lastRefresh k = some t ∧ u = advance s (t + refreshNs s st)

/-- REFRESH of a bank, its operands in range: u is the state at the end of the interval. -/
theorem exec_refresh {st c ps b k : Nat} {s u : State} (hst : st < 12) (hc : c < 32) (hps : ps < 2) (hb : b < 64)
    (hk : k = (st * 32 + c) * 128 + ps * 64 + b)
    (hu : RefreshDue s u st k)
    (reqs : List MemReq) :
    exec (.refresh st c ps b reqs) s =
      (let mine := reqs.filter (fun r => posPresents r.pos && bankKey ((st * 32 + c) * chanBytes + r.z % chanBytes) == k)
       let v := { u with smc := { u.smc with lastRefresh := nput u.smc.lastRefresh k u.nowNs } }
       if (mine.any (fun r => decide (2 ≤ urgency r.ageNs (posTarget s r.pos))) &&
          decide (ngetD 0 s.smc.owed k < min 8 (getF u Reg.smcCtl_postpone_max st))) = true then
         .next (telEvent { v with smc := { v.smc with owed := nset 0 v.smc.owed k (ngetD 0 s.smc.owed k + 1) } } 0x15 st 1)
       else .next { v with smc := { v.smc with
         openRow := ndel v.smc.openRow k, owed := if mine = [] then nset 0 v.smc.owed k 0 else v.smc.owed } }) := by
  subst hk
  obtain ⟨hn, rfl⟩ | ⟨t, hn, rfl⟩ := hu <;>
    simp only [exec, execRefresh, Nat.mod_eq_of_lt hst, Nat.mod_eq_of_lt hc, Nat.mod_eq_of_lt hps, Nat.mod_eq_of_lt hb, hn] <;> rfl

/-- The state at the end of a bank's refresh interval: the clock no earlier, the limit of postponed refreshes as before. -/
theorem refresh_due {s u : State} {st k : Nat}
    (hu : RefreshDue s u st k) :
    s.nowNs ≤ u.nowNs ∧ getF u Reg.smcCtl_postpone_max st = getF s Reg.smcCtl_postpone_max st := by
  have hoff : OffCounters Reg.smcCtl_postpone_max st := by
    simp only [OffCounters, fldKey, Reg.smcCtl_postpone_max]; omega
  obtain ⟨-, rfl⟩ | ⟨t, -, rfl⟩ := hu
  · exact ⟨Nat.le_refl _, rfl⟩
  · rw [advance_nowNs, getF_advance hoff]
    exact ⟨Nat.le_max_left .., rfl⟩

/-- Of a bank with a request of U2 or U3 waiting, the refresh is postponed while one more may be owed. -/
theorem exec_refresh_urgent {st c ps b k : Nat} {s u : State} (hst : st < 12) (hc : c < 32) (hps : ps < 2) (hb : b < 64)
    (hk : k = (st * 32 + c) * 128 + ps * 64 + b)
    (hu : RefreshDue s u st k)
    {reqs : List MemReq} {r : MemReq} (hr : r ∈ reqs) (hpres : posPresents r.pos = true)
    (hbank : bankKey ((st * 32 + c) * chanBytes + r.z % chanBytes) = k) (hurg : 2 ≤ urgency r.ageNs (posTarget s r.pos))
    (howed : ngetD 0 s.smc.owed k < min 8 (getF s Reg.smcCtl_postpone_max st)) :
    exec (.refresh st c ps b reqs) s = .next (telEvent { u with smc := { u.smc with
      lastRefresh := nput u.smc.lastRefresh k u.nowNs, owed := nset 0 u.smc.owed k (ngetD 0 s.smc.owed k + 1) } } 0x15 st 1) := by
  have hmine : r ∈ reqs.filter (fun r => posPresents r.pos && bankKey ((st * 32 + c) * chanBytes + r.z % chanBytes) == k) :=
    List.mem_filter.mpr ⟨hr, by rw [hpres, hbank, beq_self_eq_true]; rfl⟩
  rw [exec_refresh hst hc hps hb hk hu]
  refine if_pos ?_
  rw [(refresh_due hu).2, decide_eq_true howed, Bool.and_true]
  exact List.any_eq_true.mpr ⟨r, hmine, decide_eq_true hurg⟩

/-- The stack masks of the four profiles with the bits of stacks that are no members cleared; every member for an empty one (R212). -/
def maskProfiles (s : State) : State :=
  let all := (members s).foldl (fun m k => m + 2 ^ k) 0
  (List.range 4).foldl (fun s n =>
    let m := (members s).foldl (fun m k => m + (if bitOf (getF s Reg.smcProf_stack_mask n) k then 2 ^ k else 0)) 0
    setF s Reg.smcProf_stack_mask (if m = 0 then all else m) n) s

/-- Masking the profiles touches registers alone, and not the count of reserved frames. -/
theorem maskProfiles_keeps (s : State) :
    getF (maskProfiles s) Reg.smcRsv_frames = getF s Reg.smcRsv_frames ∧ RegsOnly s (maskProfiles s) := by
  refine ⟨getF_foldl (fun s n => getF_setF_ne _ _ ?_) _ s, ?_⟩
  · simp only [fldKey, Reg.smcRsv_frames, Reg.smcProf_stack_mask]; omega
  · exact List.foldlRecOn _ _ (RegsOnly.refl s) (fun u hu n _ => hu.setF ..)

/-- SMC_LOCK of a layout not locked. -/
theorem exec_smcLock {s : State} (h : getB s Reg.smcLock_locked = false) : exec .smcLock s =
    .next (setB (setF (maskProfiles s) Reg.smcRsv_frames (rsvFrames (maskProfiles s))) Reg.smcLock_locked true) := by
  simp only [exec, execSmcLock, lockLayout, h, Bool.false_eq_true, if_false]
  rfl

/-- Settles O39. -/
theorem memoryControllerCommandsTakeTheirEffect : Obligations.MemoryControllerCommandsTakeTheirEffect := by
  refine ⟨fun st c reqs errs r s hst hc hon => ?_, fun g d s hd => ?_, fun st c ps b s hst hc hps hb => ?_, fun st c temp ok s hst hc => ?_,
    fun s hunlocked => ?_, fun s hlocked hready => ?_, fun s => ⟨rfl, rfl⟩⟩
  · dsimp only
    intro hpick
    have hr : exec (.channelGrant st c reqs ⟨errs, false⟩) s = execChannelGrant st c reqs ⟨errs, false⟩ s := rfl
    simp only [hr, execChannelGrant, effRank, Nat.mod_eq_of_lt hst, Nat.mod_eq_of_lt hc, hon, Bool.not_true, Bool.false_eq_true, if_false, hpick]
  · simp only [exec, execParityDelta, hd]
  · dsimp only
    refine ⟨?_, fun r hr => ?_⟩
    · cases hlast : nfind s.smc.lastRefresh ((st * 32 + c) * 128 + ps * 64 + b) with
      | none =>
        have hdue : RefreshDue s s st ((st * 32 + c) * 128 + ps * 64 + b) := .inl ⟨hlast, rfl⟩
        exact ⟨s, rfl, (refresh_due hdue).1, exec_refresh hst hc hps hb rfl hdue [],
          fun reqs r => exec_refresh_urgent hst hc hps hb rfl hdue⟩
      | some t =>
        have hdue : RefreshDue s (advance s (t + refreshNs s st)) st ((st * 32 + c) * 128 + ps * 64 + b) := .inr ⟨t, hlast, rfl⟩
        exact ⟨_, rfl, (refresh_due hdue).1, exec_refresh hst hc hps hb rfl hdue [],
          fun reqs r => exec_refresh_urgent hst hc hps hb rfl hdue⟩
    · simp only [exec, execOpenMaxExpiry, Nat.mod_eq_of_lt hst, Nat.mod_eq_of_lt hc, Nat.mod_eq_of_lt hps, Nat.mod_eq_of_lt hb, hr]
  · have hr : exec (.channelRetrain st c temp ok) s = execChannelRetrain st c temp ok s := rfl
    have hr2 (failed : Nat) : exec (.smcRetrainNow st failed) s = execSmcRetrainNow st failed s := rfl
    simp only [hr, hr2, execChannelRetrain, execSmcRetrainNow, retrainPass, Nat.mod_eq_of_lt hst, Nat.mod_eq_of_lt hc]
    refine ⟨fun h => ?_, fun h1 h2 => ?_, fun failed => trivial⟩
    · have hagain : (tempMoved (setF s Reg.smcTemp_temp temp st) st c ||
          decide (ngetD 0 (setF s Reg.smcTemp_temp temp st).smc.trainFails (st * 32 + c) ≠ 0)) = true := by
        obtain h | h := h
        · rw [h, Bool.true_or]
        · rw [decide_eq_true h, Bool.or_true]
      rw [if_pos hagain]
    · have hagain : (tempMoved (setF s Reg.smcTemp_temp temp st) st c ||
          decide (ngetD 0 (setF s Reg.smcTemp_temp temp st).smc.trainFails (st * 32 + c) ≠ 0)) = false := by
        rw [h1, decide_eq_false (not_not_intro h2)]; rfl
      rw [hagain, if_neg Bool.false_ne_true]
  · obtain ⟨hrsv, hregs⟩ := maskProfiles_keeps s
    refine ⟨_, (exec_smcLock hunlocked), getB_setB_self _ _ _ _ (by decide), ?_, ?_⟩
    · have hfit : clamp 96 4096 (getF s Reg.smcRsv_frames) < 2 ^ Reg.smcRsv_frames.width := Nat.lt_of_le_of_lt (clamp_le (by decide)) (by decide)
      rw [setB, getF_setF_ne _ _ (by decide), getF_setF_self, rsvFrames, hrsv, Nat.mod_eq_of_lt hfit]
    · exact ((hregs.setF ..).setF ..).eq
  · simp only [exec, execZmapReady, zmapReady, hlocked, hready, Bool.not_true, Bool.or_self, Bool.false_eq_true, if_false]

/-! Data integrity (R240 to R257) -/

/-- Settles O40. -/
theorem rasCommandsTakeTheirEffect : Obligations.RasCommandsTakeTheirEffect := by
  refine ⟨fun st s hst => ⟨fun hprot => ?_, fun hprot hst' => ?_, fun hen hlim => ?_⟩, fun st s hst => ?_,
    fun st c s hc hfail hprom hreb hptr => ?_, fun st c g rest errs s hst hc => ?_, fun st c ps b row s hst hc hps hb hrow hbad hen hlost hfail => ?_⟩
  · simp only [exec, execStackNoResponse, Nat.mod_eq_of_lt hst, hprot, if_true, stackGone]
  · simp only [exec, execStackNoResponse, Nat.mod_eq_of_lt hst, hprot, Bool.false_eq_true, if_false, hst']
  · simp only [exec, execUeLimitExceeded, Nat.mod_eq_of_lt hst, hen, hlim, decide_true, Bool.and_self, if_true]
  · simp only [exec, execParRetire, parRetire, Nat.mod_eq_of_lt hst]
    refine ⟨fun hp => ?_, fun hp hm => ?_, fun hp hm hr => ?_, fun hp hm hr => ?_⟩
    · simp only [setF_mem, hp, Bool.not_false, if_true]
    · simp only [setF_mem, hp, hm, Bool.not_true, Bool.not_false, Bool.false_eq_true, if_false, if_true]
    · simp only [setF_mem, hp, hm, hr, Bool.not_true, Bool.false_eq_true, if_false, if_true]
    · simp only [setF_mem, hp, hm, hr, Bool.not_true, Bool.false_eq_true, if_false]
  · dsimp only
    intro hopen
    simp only [exec, execRebuildUnit, hfail, hprom, hreb, Nat.mod_eq_of_lt hc, Nat.not_le.mpr hptr, decide_false, Bool.not_true, Bool.or_self,
      Bool.false_eq_true, if_false, hopen]
  · dsimp only
    intro hready
    refine ⟨fun hq => ?_, fun hq hbg hon hz => ?_⟩
    · simp only [exec, execMistralRead, Nat.mod_eq_of_lt hst, Nat.mod_eq_of_lt hc, hready, Bool.not_true, Bool.false_eq_true, if_false, hq]
    · simp only [exec, execMistralRead, Nat.mod_eq_of_lt hst, Nat.mod_eq_of_lt hc, hready, Bool.not_true, Bool.false_eq_true, if_false, hq, hbg,
        hon, Nat.not_le.mpr hz, decide_false, Bool.or_self]
  · simp only [exec, execRowRepair, Nat.mod_eq_of_lt hst, Nat.mod_eq_of_lt hc, Nat.mod_eq_of_lt hps, Nat.mod_eq_of_lt hb, Nat.mod_eq_of_lt hrow,
      hen, hbad, hlost, hfail, Bool.or_true, Bool.not_true, Bool.or_self, Bool.false_eq_true, if_false, Bool.not_false, Bool.true_or, if_true]
    refine ⟨trivial, fun hroom hlog => ?_⟩
    simp only [decide_eq_false (Nat.not_le.mpr hroom), hlog, Bool.or_self, Bool.false_eq_true, if_false]

end Sys2Proof.Stacks
end

section
/-!
Proofs of the statements about the root of trust, configuration and start, the pairs, power and telemetry (spec 17 to 21).
-/
namespace Sys2Proof.Management
open Sys2Proof Sys2Proof.Machine Sys2Proof.Steps Sys2Proof.HostInterface Sys2Proof.Stacks

/-! The root of trust (R353, R360 to R373) -/

/-- ERASE_RANGE, its operands in range, with the result that its checks give (R373). -/
theorem exec_eraseRange {t off n : Nat} (ht : t < 4096) (hoff : off < 2 ^ 42) (hn : n < 2 ^ 32) (tag : Nat) (pl : Place) (s : State) :
    exec (.eraseRange t tag off n pl) s =
      (let res := if off % ellBytes ≠ 0 ∨ n = 0 ∨ rsvBase s < off + n * ellBytes then 3
        else if !removed s t then 2 else if !sccqRoom s then 1 else 0
       let u := kcmd (setF (setF s Reg.secKcmdArg0_offset off) Reg.secKcmdArg1_ells n) t (getF s Reg.secKcmd_port) tag res
       .next (if res ≠ 0 then u
         else { u with sec := { s.sec with erases := s.sec.erases ++ [⟨tag % 2 ^ 24, off, n, pl⟩], cmds := s.sec.cmds + 1 } })) := by
  simp only [exec, execEraseRange, eraseRange, Nat.mod_eq_of_lt ht, Nat.mod_eq_of_lt hoff, Nat.mod_eq_of_lt hn]
  rfl

/-- A fold whose steps all leave the state as it is leaves it as it is. -/
theorem foldl_fixed_on {α β : Type} {g : β → α → β} {s : β} {l : List α} (h : ∀ a ∈ l, g s a = s) : l.foldl g s = s := by
  induction l with
  | nil => rfl
  | cons a l ih => rw [List.foldl_cons, h a List.mem_cons_self, ih fun b hb => h b (List.mem_cons_of_mem a hb)]

/-- Where no port waits for a random value, TRNG_HEALTH_PASS only marks the generator and what depends on it (R353). -/
theorem exec_trngHealthPass {s : State} (hrot : getF s Reg.secStatus_rot_state ≠ 0)
    (hwait : ∀ p, p < 12 → (portAt (secView (setB s Reg.secStatus_trng_ok true)) p).cfgWait = none) :
    exec .trngHealthPass s = .next (secView (setB s Reg.secStatus_trng_ok true)) := by
  simp only [exec, execTrngHealthPass, if_neg hrot]
  refine congrArg Host.Outcome.next (foldl_fixed_on fun p hp => ?_)
  rw [hwait p (List.mem_range.mp hp)]

/-- Settles O41. -/
theorem securityCommandsTakeTheirEffect : Obligations.SecurityCommandsTakeTheirEffect := by
  refine ⟨fun t tag off n pl s ht hoff hn => ?_, fun tag e s he => ?_, fun s => ⟨rfl, fun hrot => ⟨?_, exec_trngHealthPass hrot⟩⟩,
    fun signed s => ⟨fun hl => ?_, fun hl ht hc => ?_, fun hl ht hc => ?_⟩, fun s hopen => ⟨?_, ?_, ?_, fun b nonce f hid => ?_, fun nonce f hid => ?_⟩⟩
  · dsimp only
    rw [exec_eraseRange ht hoff hn]
    refine ⟨fun hbad => ?_, fun hbad hrem => ?_, fun hbad hrem hroom => ?_, fun hbad hrem hroom => ?_⟩
    · simp only [if_pos hbad]
      rw [if_pos (by decide)]
    · simp only [if_neg hbad, hrem, Bool.not_false, if_true]
      rw [if_pos (by decide)]
    · simp only [if_neg hbad, hrem, hroom, Bool.not_true, Bool.not_false, Bool.false_eq_true, if_false, if_true]
      rw [if_pos (by decide)]
    · simp only [if_neg hbad, hrem, hroom, Bool.not_true, Bool.false_eq_true, if_false, ne_eq, not_true_eq_false]
  · simp only [exec, execEraseComplete, he]
  · simp only [exec, execIdentityReady, if_neg hrot]
  · simp only [exec, execDebugGrant, hl, Bool.true_or, if_true]
  · have hrefused : (!signed || anyConfidential s) = true := by
      obtain h | h := hc
      · rw [h]; rfl
      · rw [h, Bool.or_true]
    simp only [exec, execDebugGrant, ht, hrefused, Bool.and_self, Bool.or_true, if_true]
  · simp only [exec, execDebugGrant, hl, ht, hc, Bool.not_true, Bool.or_self, Bool.and_false, Bool.false_eq_true, if_false]
  · simp only [exec, execSpdmGetVersion, if_pos hopen]
  · simp only [exec, execSpdmGetCapabilities, if_pos hopen]
  · simp only [exec, execSpdmNegotiateAlgorithms, if_pos hopen]
  · simp only [exec, execSpdmGetMeasurements, hopen, hid, Bool.not_true, Bool.not_false, Bool.false_eq_true, if_false, if_true]
  · simp only [exec, execSpdmGetMeasurements, hopen, hid, Bool.not_true, Bool.false_eq_true, if_false]
    rfl

/-! Configuration and start (R392 to R410, R440) -/

/-- Settles O42. -/
theorem configurationAndStartTakeTheirEffect : Obligations.ConfigurationAndStartTakeTheirEffect := by
  refine fun s => ⟨fun host => ?_, fun hopen => ?_, ⟨resetKeep s, rfl, rfl, rfl, rfl, rfl, rfl, rfl, rfl, rfl, rfl, rfl⟩,
    fun env hphase htrip => ?_, fun env h => ?_⟩
  · have hcom : getB (setHostCfg s host) Reg.cfgStatus_committed = getB s Reg.cfgStatus_committed := rfl
    have hph : getF (setHostCfg s host) Reg.cfgStatus_phase = getF s Reg.cfgStatus_phase := rfl
    simp only [exec, execCfgFeatCommit, featCommit, hcom, hph]
    refine ⟨fun hc => ?_, fun hc hp => ?_, fun hc hp => ⟨fun ha => ?_, fun ha => ?_⟩⟩
    · rw [if_pos hc]
    · simp only [hc, Bool.false_eq_true, if_false, if_pos hp]
    · simp only [hc, hp, ha, Bool.false_eq_true, if_false, ne_eq, not_true_eq_false, Bool.not_false, if_true]
    · simp only [hc, hp, ha, Bool.false_eq_true, if_false, ne_eq, not_true_eq_false, Bool.not_true]
  · simp only [exec, execCfgRptRead, hopen, Bool.not_true, Bool.false_eq_true, if_false]
  · simp only [exec, execDeviceStart, hphase, htrip, ne_eq, not_true_eq_false, Bool.false_eq_true, or_self, if_false]
    exact ⟨fun hwarm => by rw [hwarm]; rfl, fun hcold => if_pos hcold⟩
  · simp only [exec, execDeviceStart, ne_eq, if_pos h]

/-! The pairs (R374 to R382) -/

/-- Settles O43. -/
theorem claimsAndPairsTakeTheirEffect : Obligations.ClaimsAndPairsTakeTheirEffect := by
  refine fun b s => ⟨fun hrun => ?_, fun core hcore hrun => ?_, fun hclaim => ?_, fun hwin => ?_, fun hwin hst => ?_, fun hst => ?_,
    fun staged hwin hon => ?_, fun t ht => ?_⟩
  · simp only [exec, execClaimRaise, execClaimDrop, writeClaims, if_pos hrun, and_self]
  · simp only [exec, execHeartbeat, hrun, Nat.not_le.mpr hcore, Bool.not_true, Bool.false_eq_true, or_self, if_false]
  · simp only [exec, execWatchdogExpiry, if_neg hclaim, beq_iff_eq]
    exact (apply_ite Host.Outcome.next _ _ _).symm
  · simp only [exec, execSelfDiagPeriodic, hwin, Nat.zero_mod, if_true, true_and]
    exact fun cause hc => if_neg hc
  · simp only [exec, execStandbyTakeover, hwin, hst, Option.isSome_none, Bool.false_eq_true, ne_eq, not_true_eq_false, or_self, if_false,
      Nat.zero_mod, if_true, true_and]
    exact fun cause hc => if_neg hc
  · simp only [exec, execPairBootDone, hst, ne_eq, not_true_eq_false, if_false, Nat.zero_mod, if_true]
    refine ⟨(apply_ite Host.Outcome.next _ _ _).symm, fun cause hc => ?_⟩
    rw [if_neg hc]
    exact (apply_ite Host.Outcome.next _ _ _).symm
  · refine ⟨_, rfl, ?_⟩
    simp only [exec, execMgtPairReset, pairReset, hwin, hon, ne_eq, not_true_eq_false, Bool.not_true, Bool.false_eq_true, decide_false,
      Bool.or_self, if_false]
  · simp only [exec, execDoldrumsAlert, ht]

/-! Power (R386 to R390, R437) -/

/-- Settles O44. -/
theorem powerLoopsAndDomainsTakeTheirEffect : Obligations.PowerLoopsAndDomainsTakeTheirEffect := by
  refine fun b s => ⟨fun hw => ⟨fun p => ?_, fun d on hd => ?_⟩, fun hw => ⟨fun p => ?_, fun d on => ?_⟩, fun p hp => ⟨?_, ?_, ?_⟩,
    fun power icc hfit => ?_, fun temp east hfit => ?_, rfl, rfl, rfl, fun d on hpd => ?_⟩
  · simp only [exec, execDvfsTarget, if_pos hw]
  · simp only [exec, execPdSwitch, hw, Nat.mod_eq_of_lt hd, ne_eq, not_true_eq_false, if_false]
  · simp only [exec, execDvfsTarget, if_neg hw]
  · simp only [exec, execPdSwitch, ne_eq, hw, not_false_eq_true, if_true]
  · simp only [exec, execDvfsStepDone, hp]
  · simp only [exec, execAvsTimeout, hp, Option.isNone_some, Bool.not_true, Bool.or_self, Bool.false_eq_true, if_false]
  · simp only [exec, execAvsTimeout, Bool.not_false, Bool.or_true, if_true]
  · have hread : getF (setF (setF s Reg.pwrPkg_power power) Reg.pwrPkg_icc icc) Reg.pwrPkg_power = power := by
      rw [getF_setF_ne _ _ (by decide), getF_setF_self, Nat.mod_eq_of_lt hfit]
    simp only [exec, execPowerLoop, hread]
    exact (apply_ite Host.Outcome.next _ _ _).symm
  · have hread : getF (setB (setF s Reg.pwrTemp_temp temp) Reg.pwrTemp_die east) Reg.pwrTemp_temp = temp := by
      rw [setB, getF_setF_ne _ _ (by decide), getF_setF_self, Nat.mod_eq_of_lt hfit]
    simp only [exec, execThermalLoop, hread]
    exact (apply_ite Host.Outcome.next _ _ _).symm
  · simp only [exec, execPdSwitchDone, hpd]

/-! Telemetry (R416 to R426) -/

/-- Counters n and m keep their values at different places, and apart from every overflow mark. -/
theorem telCnt_keys_ne {n m : Nat} (h : m ≠ n) :
    fldKey Reg.telCnt_value m ≠ fldKey Reg.telCnt_overflow n ∧ fldKey Reg.telCnt_value m ≠ fldKey Reg.telCnt_value n := by
  simp only [fldKey, Reg.telCnt_value, Reg.telCnt_overflow]
  omega

/-- A counter's value lies apart from its overflow mark. -/
theorem telCnt_value_ne_overflow (n : Nat) : fldKey Reg.telCnt_value n ≠ fldKey Reg.telCnt_overflow n := by
  simp only [fldKey, Reg.telCnt_value, Reg.telCnt_overflow]
  omega

/-- Settles O45. -/
theorem telemetryCommandsTakeTheirEffect : Obligations.TelemetryCommandsTakeTheirEffect := by
  refine ⟨fun s => (telCommitted s).2, fun n s hn => ?_, fun s hoff => ?_, fun busy s hon => ⟨fun hbusy => ?_, fun hfree hmgts => ?_⟩, fun en k filter log2 s hk => ?_⟩
  · refine ⟨telClear s n, ?_, ?_, ?_, rfl, fun m _ hmn => ?_⟩
    · simp only [exec, execTelCntClear, if_pos hn]
    · rw [telClear, getF_setF_ne _ _ (telCnt_value_ne_overflow n), getF_setF_self, Nat.zero_mod]
    · rw [telClear, getF_setF_self, Nat.zero_mod]
    · rw [telClear, getF_setF_ne _ _ (telCnt_keys_ne hmn).1, getF_setF_ne _ _ (telCnt_keys_ne hmn).2]
  · have hr : exec .telDumpEnable s = .next (dumpEnable s) := rfl
    rw [dumpEnable, hoff, if_neg Bool.false_ne_true] at hr
    exact ⟨_, hr, getB_setB_self s _ true _ (by decide), ringCnt_setRing_self (setB s Reg.telDumpCtl_en true) ringDump ⟨0, 0⟩, rfl, rfl⟩
  · have hskip : (busy || s.dma.mgts.any (·.dump)) = true := by
      obtain h | h := hbusy
      · rw [h, Bool.true_or]
      · rw [h, Bool.or_true]
    simp only [exec, execTelDumpPeriod, hon, Bool.not_true, Bool.false_eq_true, if_false, hskip, if_true]
  · simp only [exec, execTelDumpPeriod, hon, hfree, hmgts, Bool.not_true, Bool.or_self, Bool.false_eq_true, if_false]
  · refine ⟨sampCtl s en k filter log2, rfl, ?_, ?_, ?_, fun hen hwas => ?_, ?_, ?_⟩
    · rw [sampCtl, getB_setF_ne _ _ (by decide), getB_setF_ne _ _ (by decide), getB_setF_ne _ _ (by decide), getB_setB_self _ _ _ _ (by decide)]
    · have hfit : clamp 4 24 k < 2 ^ Reg.telSampCtl_k.width := Nat.lt_of_le_of_lt (clamp_le (by decide)) (by decide)
      rw [sampCtl, getF_setF_ne _ _ (by decide), getF_setF_ne _ _ (by decide), getF_setF_self, Nat.mod_eq_of_lt hk, Nat.mod_eq_of_lt hfit]
    · rw [sampCtl, getF_setF_self]
    · have hfresh : (en && !getB s Reg.telSampCtl_en) = true := by rw [hen, hwas]; rfl
      rw [sampCtl, if_pos hfresh]
      exact ringCnt_setRing_self s ringSamp ⟨0, 0⟩
    · rw [sampCtl]
      split <;> rfl
    · rw [sampCtl]
      split <;> rfl

end Sys2Proof.Management
end

section
/-!
The statement about commands that store nothing fails: a rank is translated through a table in pool memory (spec 14, R314).
-/
namespace Sys2Proof.Frames
open Sys2Proof Sys2Proof.Machine

/-- A response that an endpoint sends to a rank of job 0. -/
def toRank : Pkt := sealHdr { pkt0 State.reset 0 0x82 1 with dstRank := true }

/-- A zero codeword whose guard does not match its data. -/
def badGuard : GranMeta := { metaZero with gxor := 1 }

/-- Port 0 is ACTIVE, and the codeword at address 0, which holds the rank table of job 0, has a wrong guard. -/
def rankTable : State :=
  let s := setF (setF State.reset Reg.fptStatus_state 4 0) Reg.routerEpoch_half0 1
  let s := setF (setB s Reg.nieJob0_valid true 0) Reg.nieJob4_rank_count 1 0
  putMeta (setZbit s 0 false) 0 badGuard

/-- The first byte of pool memory after a step that answers a next state. -/
def firstByte : Out → Option Byte
  | .next t => some (byteAt t 0)
  | _ => none

/-- The header's arrival has the rank looked up, and the guard's failure is logged in pool memory, where the RAS ring lies (R241). -/
theorem rankLookup_logs : firstByte (exec (.packetHeaderArrival 0 toRank) rankTable) = some 3 := by
  decide +kernel

/-- Refutes O57: PACKET_HEADER_ARRIVAL of a packet to a rank reads the rank table from pool memory, and a guard that fails there writes
an entry of the RAS ring. -/
theorem not_commandsThatStoreNothingKeepThePool : ¬ Obligations.CommandsThatStoreNothingKeepThePool := by
  intro h
  have hlogged := rankLookup_logs
  have hbefore : byteAt rankTable 0 ≠ 3 := by decide +kernel
  cases ht : exec (.packetHeaderArrival 0 toRank) rankTable with
  | next t =>
    rw [ht, firstByte, (h _ _ t rfl ht).2 0] at hlogged
    exact hbefore (Option.some.inj hlogged)
  | fault e => rw [ht] at hlogged; cases hlogged
  | refused e => rw [ht] at hlogged; cases hlogged

end Sys2Proof.Frames
end
